-- ==== Sys2Proof/Word.lean ====
section
/-!
DEFINITION. The word types of the panel (R131, R208) and the one finite map in which every register file and memory is held.
-/
namespace Sys2Proof

/-- One byte of memory (R5). -/
abbrev Byte := BitVec 8

/-- One lane of a vector register, and one instruction word (R131, R208). -/
abbrev Word32 := BitVec 32

/-- A scalar register, an address or a special register (R209, R332). -/
abbrev Word64 := BitVec 64

/-- A finite map from numbers to words: keys strictly rising, no entry equal to 0, which is what an unlisted key reads as.
A register file, a lane file and a memory are all held in this form, so that equal contents are equal data. -/
abbrev Sparse (w : Nat) := List (Nat × BitVec w)

/-- A memory: its entries are `Host.Cell`s. -/
abbrev Memory := Sparse 8

end Sys2Proof
end

