-- ==== Sys2Proof/Config.lean ====
section
/-!
DEFINITION. What the implementation fixes, and the free values: constants without a body, of which nothing can be proved.
-/
namespace Sys2Proof.Config

/-- Islands of the panel that this model populates (R1, R393): N, from 44 to 48. DESIGN CHOICE (log 11). -/
def nisl : Nat := 48

/-- The panel number that PANEL reads (R14). DESIGN CHOICE (log 11). -/
def panel : Nat := 0

/-- MAXM8 of an Anvil without faulty rows (R159). -/
def maxM8 : Nat := 32

/-- Bytes of one island's HBM (R89): 512 GiB. -/
def islandBytes : Nat := 512 * 2 ^ 30

/-- The firmware entry of the hub cores (R380). DESIGN CHOICE (log 2). -/
def firmwareEntry : Word64 := 0

/-- Free value: byte number n that the panel delivers where the manual gives no value (log 4). -/
opaque freeByte : Nat → Byte

/-- Free value: word number n, where the manual gives no value (log 4). -/
opaque freeWord : Nat → Word64

/-- Free choice number n, below the number of alternatives after reduction (log 4). -/
opaque freeChoice : Nat → Nat

/-- Free order of the k-blocks of an MCHB.any chain at one accumulator element: chain, element, position (R148; log 4). -/
opaque freeOrder : Nat → Nat → Nat → Nat

/-- The set of the 8-way L1 that holds the line with this line number (R81; log 7). -/
opaque l1Set : Nat → Nat

/-- The difference of a die's cycle count from the model's count (R332: not comparable between dies; log 9). -/
opaque cycleOffset : Nat → Nat → Word64

/-- The memory-side die that owns a line, 0 to 7 after reduction: the hash of R82 that software cannot see (log 7). -/
opaque sliceHash : Nat → Nat

/-- Free value: the pairing of two nodes in the rotor's matching sequence, by phase: plane in its value mod 8, slot in its eighth mod 7
(R164, R327; log 7). -/
opaque pairing : Nat → Nat → Nat

/-- Free value: bytes of an operation that one frame of 512 bytes carries, 16 to 504 after reduction (R172; log 41). -/
opaque frameBytes : Nat

/-- Free value: the bytes that the n-th transfer of an island moves across UCIe, and to or from the HBM, as the state of its caches has it
(R402; log 16). -/
opaque farBytes : Nat → Nat → Nat × Nat

/-- Free value: the contents of the immutable ROM, which measurement block 1 measures (R415; log 4). -/
opaque rom : List Byte

/-- Bytes that one queued record takes in a context's queue region (R58). DESIGN CHOICE (log 12). -/
def queueEntryBytes : Nat := 64

end Sys2Proof.Config
end

