-- ==== Sys2Proof/Syntax.lean ====
section
/-!
DEFINITION. The instructions and steps of the panel, one constructor for each row of spec/opcode_table.json, in the table's order.

The first 241 constructors are the encoded words of R216. Their operands are the fields of the word, under the letters of the
table, with the widths of R208, R209 and R211. The constructors after them are the machine's own steps: they have no word and
no field; what such a step acts on is named by the `Event` that State holds while it runs.
-/
namespace Sys2Proof

/-- One constructor for each row of the table of operations and events. -/
inductive Instr where
  /-- NOP (R328). No operation. -/
  | nop
  /-- TRAP (R328). Takes the precise trap TRAP with code n in the instruction word. -/
  | trap (n : BitVec 6)
  /-- BRK (R328). Takes the precise trap BRK with code n in the instruction word. -/
  | brk (n : BitVec 6)
  /-- TRET (R185). Leaves handler mode, restores dc and PC slots and resumes at XPC. -/
  | tret
  /-- TKILL (R186). Ends the faulting team's launch on every island. -/
  | tkill
  /-- TSKIP (R185). Leaves handler mode and resumes at XPC + 4. -/
  | tskip
  /-- MFSR (R331). Reads a special register into a scalar. -/
  | mfsr (d r : BitVec 6)
  /-- MTSR (R331). Writes a scalar to a special register; read-only registers trap ILLEGAL_INSN and TBA traps PRIV. -/
  | mtsr (a r : BitVec 6)
  /-- HALT (R330). Stops a hub core until woken or reset; traps PRIV on a team or Carter. -/
  | halt
  /-- SADD (R222). Scalar add, wrapping to 64 bits. -/
  | sadd (d a b : BitVec 6)
  /-- SSUB (R222). Scalar subtract, wrapping. -/
  | ssub (d a b : BitVec 6)
  /-- SMUL (R222). Scalar multiply, low 64 bits. -/
  | smul (d a b : BitVec 6)
  /-- SMULH (R222). Signed high 64 bits of the 128-bit product. -/
  | smulh (d a b : BitVec 6)
  /-- SMULHU (R222). Unsigned high 64 bits of the product. -/
  | smulhu (d a b : BitVec 6)
  /-- SDIV (R223). Signed division truncated to zero, with fixed results for zero divisor and overflow. -/
  | sdiv (d a b : BitVec 6)
  /-- SDIVU (R223). Unsigned division. -/
  | sdivu (d a b : BitVec 6)
  /-- SREM (R223). Signed remainder. -/
  | srem (d a b : BitVec 6)
  /-- SREMU (R223). Unsigned remainder. -/
  | sremu (d a b : BitVec 6)
  /-- SAND (R222). Bitwise AND of scalars. -/
  | sand (d a b : BitVec 6)
  /-- SOR (R222). Bitwise OR of scalars. -/
  | sor (d a b : BitVec 6)
  /-- SXOR (R222). Bitwise XOR of scalars. -/
  | sxor (d a b : BitVec 6)
  /-- SSHL (R222). Shift left by b[5:0]. -/
  | sshl (d a b : BitVec 6)
  /-- SSHR (R222). Logical shift right by b[5:0]. -/
  | sshr (d a b : BitVec 6)
  /-- SSRA (R222). Arithmetic shift right by b[5:0]. -/
  | ssra (d a b : BitVec 6)
  /-- SMIN (R222). Signed minimum. -/
  | smin (d a b : BitVec 6)
  /-- SMAX (R222). Signed maximum. -/
  | smax (d a b : BitVec 6)
  /-- SMINU (R222). Unsigned minimum. -/
  | sminu (d a b : BitVec 6)
  /-- SMAXU (R222). Unsigned maximum. -/
  | smaxu (d a b : BitVec 6)
  /-- SCLZ (R222). Counts leading zeros of a scalar. -/
  | sclz (d a : BitVec 6)
  /-- SPOPC (R222). Counts one bits of a scalar. -/
  | spopc (d a : BitVec 6)
  /-- SADDI (R224). Adds a sign-extended 14-bit immediate. -/
  | saddi (d a : BitVec 6) (i : BitVec 14)
  /-- SSHLI (R224). Shifts left by an immediate amount. -/
  | sshli (d a n : BitVec 6)
  /-- SSHRI (R224). Shifts logically right by an immediate amount. -/
  | sshri (d a n : BitVec 6)
  /-- SSRAI (R224). Shifts arithmetically right by an immediate amount. -/
  | ssrai (d a n : BitVec 6)
  /-- SLUI (R224). Loads a sign-extended 20-bit immediate times 4,096. -/
  | slui (d : BitVec 6) (i : BitVec 20)
  /-- SCMP (R225). Compares two scalars into a condition register. -/
  | scmp (d c : BitVec 3) (a b : BitVec 6)
  /-- SCMPI (R225). Compares a scalar with an immediate into a condition register. -/
  | scmpi (d c : BitVec 3) (a : BitVec 6) (i : BitVec 14)
  /-- SLD_W (R226). Scalar 4-byte load from global memory, zero-extended. -/
  | sldW (d a : BitVec 6) (o : BitVec 12)
  /-- SLD_D (R226). Scalar 8-byte load from global memory. -/
  | sldD (d a : BitVec 6) (o : BitVec 12)
  /-- SST_W (R226). Scalar 4-byte store to global memory. -/
  | sstW (d a : BitVec 6) (o : BitVec 12)
  /-- SST_D (R226). Scalar 8-byte store to global memory. -/
  | sstD (d a : BitVec 6) (o : BitVec 12)
  /-- BR (R227). Branches when the condition register xor neg is true. -/
  | br (c : BitVec 3) (n : BitVec 1) (o : BitVec 22)
  /-- CALL (R228). Sets s62 to the return address and branches by off26. -/
  | call (o : BitVec 26)
  /-- JMPR (R228). Jumps to the address in a scalar. -/
  | jmpr (a : BitVec 6)
  /-- CALLR (R228). Calls the address in a scalar, writing s62. -/
  | callr (a : BitVec 6)
  /-- RET (R228). Jumps to s62. -/
  | ret
  /-- CAND (R229). ANDs two condition registers. -/
  | cand (d a b : BitVec 3)
  /-- COR (R229). ORs two condition registers. -/
  | cor (d a b : BitVec 3)
  /-- CXOR (R229). XORs two condition registers. -/
  | cxor (d a b : BitVec 3)
  /-- CNOT (R229). Negates a condition register. -/
  | cnot (d a : BitVec 3)
  /-- LOOPH (R230). Opens a hardware loop counted by a scalar, or traps LOOP_DEPTH. -/
  | looph (a : BitVec 6) (l : BitVec 8)
  /-- LOOPHI (R230). Opens a hardware loop counted by an immediate. -/
  | loophi (n : BitVec 16) (l : BitVec 8)
  /-- LBRK (R231). Frees the innermost active loop and continues after it. -/
  | lbrk
  /-- IF (R40). Opens a structured IF on the depth counters by predicate. -/
  | vif (p : BitVec 3)
  /-- ELSE (R40). Flips the arm of the innermost IF; may enter two-slot mode. -/
  | velse
  /-- ENDIF (R40). Closes the innermost IF. -/
  | vendif
  /-- VLOOP (R40). Opens a vector loop. -/
  | vloop
  /-- VBRK (R40). Removes lanes whose predicate holds from the vector loop. -/
  | vbrk (p : BitVec 3) (k : BitVec 6)
  /-- VCONT (R40). Skips lanes whose predicate holds to the loop end. -/
  | vcont (p : BitVec 3) (k : BitVec 6)
  /-- ENDVL (R234). Closes a vector loop, branching back while any lane has dc 0. -/
  | endvl (d : BitVec 18)
  /-- EXIT (R235). Ends the team after its counts reach zero. -/
  | exit
  /-- EXIT_S (R236). Ends the team and names a checked successor task record. -/
  | exitS (a : BitVec 6)
  /-- YIELD (R237). Makes the team inactive at once. -/
  | yield
  /-- YIELDC (R238). Parks the team until a timeline reaches a value. -/
  | yieldc (a b t : BitVec 6)
  /-- SPLIT (R53). Divides the team into narrower subteams. -/
  | split (w : BitVec 6)
  /-- FUSE (R54). Rendezvous with the buddy team to fuse to double width, writing a result code. -/
  | fuse (d w : BitVec 6) (t : BitVec 5)
  /-- LEASE (R286). Sets the declared lease and leaves measurement mode. -/
  | lease (a : BitVec 6)
  /-- LEASEM (R286). Enters lease measurement mode. -/
  | leasem
  /-- LEASEQ (R286). Reads a lease figure selected by k. -/
  | leaseq (d k : BitVec 6)
  /-- GBAR (R268). Arrives at a group barrier and waits for the phase. -/
  | gbar (g s o : BitVec 2)
  /-- GARRIVE (R268). Arrives in the current barrier phase and returns it. -/
  | garrive (d : BitVec 6) (g s o : BitVec 2)
  /-- GWAIT (R268). Parks until the barrier phase passes a given value. -/
  | gwait (a : BitVec 6) (g s o : BitVec 2)
  /-- GQRY (R270). Reads a group-barrier figure selected by k. -/
  | gqry (d : BitVec 6) (g : BitVec 2) (k : BitVec 4)
  /-- VADD (R241). Vector add, wrapping. -/
  | vadd (d a b : BitVec 7) (p : BitVec 3)
  /-- VSUB (R241). Vector subtract, wrapping. -/
  | vsub (d a b : BitVec 7) (p : BitVec 3)
  /-- VADDS (R241). Vector signed saturating add. -/
  | vadds (d a b : BitVec 7) (p : BitVec 3)
  /-- VSUBS (R241). Vector signed saturating subtract. -/
  | vsubs (d a b : BitVec 7) (p : BitVec 3)
  /-- VMUL (R241). Vector multiply, low 32 bits. -/
  | vmul (d a b : BitVec 7) (p : BitVec 3)
  /-- VMULH (R241). Vector signed multiply, high 32 bits. -/
  | vmulh (d a b : BitVec 7) (p : BitVec 3)
  /-- VMULHU (R241). Vector unsigned multiply, high 32 bits. -/
  | vmulhu (d a b : BitVec 7) (p : BitVec 3)
  /-- VMAD (R241). Vector multiply-add into vd, wrapping. -/
  | vmad (d a b : BitVec 7) (p : BitVec 3)
  /-- VAND (R241). Vector bitwise AND. -/
  | vand (d a b : BitVec 7) (p : BitVec 3)
  /-- VOR (R241). Vector bitwise OR. -/
  | vor (d a b : BitVec 7) (p : BitVec 3)
  /-- VXOR (R241). Vector bitwise XOR. -/
  | vxor (d a b : BitVec 7) (p : BitVec 3)
  /-- VANDN (R241). Vector a AND NOT b. -/
  | vandn (d a b : BitVec 7) (p : BitVec 3)
  /-- VSHL (R241). Vector shift left. -/
  | vshl (d a b : BitVec 7) (p : BitVec 3)
  /-- VSHR (R241). Vector logical shift right. -/
  | vshr (d a b : BitVec 7) (p : BitVec 3)
  /-- VSRA (R241). Vector arithmetic shift right. -/
  | vsra (d a b : BitVec 7) (p : BitVec 3)
  /-- VROT (R241). Vector rotate left. -/
  | vrot (d a b : BitVec 7) (p : BitVec 3)
  /-- VMIN (R241). Vector signed minimum. -/
  | vmin (d a b : BitVec 7) (p : BitVec 3)
  /-- VMAX (R241). Vector signed maximum. -/
  | vmax (d a b : BitVec 7) (p : BitVec 3)
  /-- VMINU (R241). Vector unsigned minimum. -/
  | vminu (d a b : BitVec 7) (p : BitVec 3)
  /-- VMAXU (R241). Vector unsigned maximum. -/
  | vmaxu (d a b : BitVec 7) (p : BitVec 3)
  /-- VADDUS (R241). Vector unsigned saturating add. -/
  | vaddus (d a b : BitVec 7) (p : BitVec 3)
  /-- VSUBUS (R241). Vector unsigned saturating subtract. -/
  | vsubus (d a b : BitVec 7) (p : BitVec 3)
  /-- VABSD (R241). Vector signed absolute difference. -/
  | vabsd (d a b : BitVec 7) (p : BitVec 3)
  /-- VAVG (R241). Vector signed rounding average. -/
  | vavg (d a b : BitVec 7) (p : BitVec 3)
  /-- VCEQ (R244). Vector equality compare into a predicate. -/
  | vceq (d : BitVec 3) (a b : BitVec 7) (p : BitVec 3)
  /-- VCNE (R244). Vector inequality compare into a predicate. -/
  | vcne (d : BitVec 3) (a b : BitVec 7) (p : BitVec 3)
  /-- VCLT (R244). Vector signed less-than compare. -/
  | vclt (d : BitVec 3) (a b : BitVec 7) (p : BitVec 3)
  /-- VCLE (R244). Vector signed less-or-equal compare. -/
  | vcle (d : BitVec 3) (a b : BitVec 7) (p : BitVec 3)
  /-- VCLTU (R244). Vector unsigned less-than compare. -/
  | vcltu (d : BitVec 3) (a b : BitVec 7) (p : BitVec 3)
  /-- VCLEU (R244). Vector unsigned less-or-equal compare. -/
  | vcleu (d : BitVec 3) (a b : BitVec 7) (p : BitVec 3)
  /-- VCTST (R244). Vector bit test into a predicate. -/
  | vctst (d : BitVec 3) (a b : BitVec 7) (p : BitVec 3)
  /-- VADDH2 (R243). Packed 16-bit adds. -/
  | vaddh2 (d a b : BitVec 7) (p : BitVec 3)
  /-- VADDB4 (R243). Packed 8-bit adds. -/
  | vaddb4 (d a b : BitVec 7) (p : BitVec 3)
  /-- VMULH2 (R243). Packed 16-bit multiplies. -/
  | vmulh2 (d a b : BitVec 7) (p : BitVec 3)
  /-- VDOT4 (R243). Signed 4-way byte dot product accumulated into vd. -/
  | vdot4 (d a b : BitVec 7) (p : BitVec 3)
  /-- VSEL (R242). Selects a or b per lane by a predicate held in pg. -/
  | vsel (d a b : BitVec 7) (q : BitVec 3)
  /-- VCLZ (R242). Vector leading-zero count. -/
  | vclz (d a : BitVec 7) (p : BitVec 3)
  /-- VPOPC (R242). Vector population count. -/
  | vpopc (d a : BitVec 7) (p : BitVec 3)
  /-- VBREV (R242). Vector bit reverse. -/
  | vbrev (d a : BitVec 7) (p : BitVec 3)
  /-- VADDI (R245). Vector add of a 9-bit immediate. -/
  | vaddi (d a : BitVec 7) (p : BitVec 3) (i : BitVec 9)
  /-- VSHLI (R245). Vector shift left by an immediate. -/
  | vshli (d a : BitVec 7) (p : BitVec 3) (n : BitVec 5)
  /-- VSHRI (R245). Vector logical shift right by an immediate. -/
  | vshri (d a : BitVec 7) (p : BitVec 3) (n : BitVec 5)
  /-- VSRAI (R245). Vector arithmetic shift right by an immediate. -/
  | vsrai (d a : BitVec 7) (p : BitVec 3) (n : BitVec 5)
  /-- VMOVI (R245). Moves a sign-extended 16-bit immediate into each lane. -/
  | vmovi (d : BitVec 7) (p : BitVec 3) (i : BitVec 16)
  /-- VMOVHI (R245). Writes an immediate into bits 31:16 of each lane. -/
  | vmovhi (d : BitVec 7) (p : BitVec 3) (i : BitVec 16)
  /-- VCMPI (R245). Compares lanes with an immediate into a predicate. -/
  | vcmpi (d c : BitVec 3) (a : BitVec 7) (p : BitVec 3) (i : BitVec 9)
  /-- FADD (R246). FP32 add. -/
  | fadd (d a b : BitVec 7) (p : BitVec 3)
  /-- FSUB (R246). FP32 subtract. -/
  | fsub (d a b : BitVec 7) (p : BitVec 3)
  /-- FMUL (R246). FP32 multiply. -/
  | fmul (d a b : BitVec 7) (p : BitVec 3)
  /-- FMAC (R246). FP32 fused multiply-accumulate into vd. -/
  | fmac (d a b : BitVec 7) (p : BitVec 3)
  /-- FMIN (R247). FP32 minimum ignoring one NaN. -/
  | fmin (d a b : BitVec 7) (p : BitVec 3)
  /-- FMAX (R247). FP32 maximum ignoring one NaN. -/
  | fmax (d a b : BitVec 7) (p : BitVec 3)
  /-- FMINM (R247). FP32 minimum propagating NaN. -/
  | fminm (d a b : BitVec 7) (p : BitVec 3)
  /-- FMAXM (R247). FP32 maximum propagating NaN. -/
  | fmaxm (d a b : BitVec 7) (p : BitVec 3)
  /-- FCEQ (R248). FP32 equality compare into a predicate. -/
  | fceq (d : BitVec 3) (a b : BitVec 7) (p : BitVec 3)
  /-- FCLT (R248). FP32 less-than compare, NV on NaN. -/
  | fclt (d : BitVec 3) (a b : BitVec 7) (p : BitVec 3)
  /-- FCLE (R248). FP32 less-or-equal compare, NV on NaN. -/
  | fcle (d : BitVec 3) (a b : BitVec 7) (p : BitVec 3)
  /-- FCUN (R248). FP32 unordered test into a predicate. -/
  | fcun (d : BitVec 3) (a b : BitVec 7) (p : BitVec 3)
  /-- FDIV (R249). FP32 correctly rounded division. -/
  | fdiv (d a b : BitVec 7) (p : BitVec 3)
  /-- FSQRT (R249). FP32 square root. -/
  | fsqrt (d a : BitVec 7) (p : BitVec 3)
  /-- FRSQ (R249). FP32 reciprocal square root. -/
  | frsq (d a : BitVec 7) (p : BitVec 3)
  /-- FRCP (R249). FP32 reciprocal. -/
  | frcp (d a : BitVec 7) (p : BitVec 3)
  /-- FEXP2 (R250). FP32 base-2 exponential. -/
  | fexp2 (d a : BitVec 7) (p : BitVec 3)
  /-- FLOG2 (R250). FP32 base-2 logarithm. -/
  | flog2 (d a : BitVec 7) (p : BitVec 3)
  /-- FSINPI (R250). FP32 sin(pi a). -/
  | fsinpi (d a : BitVec 7) (p : BitVec 3)
  /-- FCOSPI (R250). FP32 cos(pi a). -/
  | fcospi (d a : BitVec 7) (p : BitVec 3)
  /-- FMA (R251). FP32 fused a*b + c. -/
  | fma (d a b c : BitVec 5) (p : BitVec 3)
  /-- FMS (R251). FP32 fused a*b - c. -/
  | fms (d a b c : BitVec 5) (p : BitVec 3)
  /-- FNMA (R251). FP32 fused -(a*b) + c. -/
  | fnma (d a b c : BitVec 5) (p : BitVec 3)
  /-- FNMS (R251). FP32 fused -(a*b) - c. -/
  | fnms (d a b c : BitVec 5) (p : BitVec 3)
  /-- HADD2 (R252). Paired FP16 add. -/
  | hadd2 (d a b : BitVec 7) (p : BitVec 3)
  /-- HMUL2 (R252). Paired FP16 multiply. -/
  | hmul2 (d a b : BitVec 7) (p : BitVec 3)
  /-- HFMAC2 (R252). Paired FP16 fused multiply-accumulate. -/
  | hfmac2 (d a b : BitVec 7) (p : BitVec 3)
  /-- HMAX2 (R252). Paired FP16 maximum. -/
  | hmax2 (d a b : BitVec 7) (p : BitVec 3)
  /-- BADD2 (R252). Paired BF16 add. -/
  | badd2 (d a b : BitVec 7) (p : BitVec 3)
  /-- BMUL2 (R252). Paired BF16 multiply. -/
  | bmul2 (d a b : BitVec 7) (p : BitVec 3)
  /-- BFMAC2 (R252). Paired BF16 fused multiply-accumulate. -/
  | bfmac2 (d a b : BitVec 7) (p : BitVec 3)
  /-- BMAX2 (R252). Paired BF16 maximum. -/
  | bmax2 (d a b : BitVec 7) (p : BitVec 3)
  /-- CVT (R254). Converts each lane by a conversion code in its own rounding mode. -/
  | cvt (d a k : BitVec 7) (p : BitVec 3) (m : BitVec 2)
  /-- FCLASS (R253). Writes a one-hot FP32 class mask. -/
  | fclass (d a : BitVec 7) (p : BitVec 3)
  /-- FRINT (R253). Rounds FP32 to an integral value. -/
  | frint (d a : BitVec 7) (p : BitVec 3)
  /-- FSCALB (R253). Scales FP32 by a power of two. -/
  | fscalb (d a b : BitVec 7) (p : BitVec 3)
  /-- FGETEXP (R253). Extracts the FP32 exponent as INT32. -/
  | fgetexp (d a : BitVec 7) (p : BitVec 3)
  /-- PAND (R257). Predicate AND. -/
  | pand (d a b : BitVec 3)
  /-- POR (R257). Predicate OR. -/
  | por (d a b : BitVec 3)
  /-- PXOR (R257). Predicate XOR. -/
  | pxor (d a b : BitVec 3)
  /-- PANDN (R257). Predicate AND NOT. -/
  | pandn (d a b : BitVec 3)
  /-- PNOT (R257). Predicate NOT. -/
  | pnot (d a : BitVec 3)
  /-- PFLAG (R258). Copies a flag bit into a predicate. -/
  | pflag (d f : BitVec 3)
  /-- FLCLR (R258). Clears masked flags in each active lane. -/
  | flclr (m : BitVec 5)
  /-- FLRD (R258). Reads the flag register into a vector. -/
  | flrd (d : BitVec 6)
  /-- MFACC (R314). Moves CB slots to lanes by conversion code. -/
  | mfacc (d : BitVec 7) (t : BitVec 1) (k b : BitVec 6) (p : BitVec 3)
  /-- MTACC (R314). Moves lanes to CB slots by conversion code. -/
  | mtacc (d : BitVec 7) (k b : BitVec 6) (p : BitVec 3)
  /-- MFACCZ (R314). Moves CB slots to lanes and zeroes them indivisibly. -/
  | mfaccz (d : BitVec 7) (t : BitVec 1) (k b : BitVec 6) (p : BitVec 3)
  /-- SHFLI (R259). Shuffle by absolute lane index. -/
  | shfli (d a b : BitVec 7) (p : BitVec 3)
  /-- SHFLU (R259). Shuffle from lane l - b. -/
  | shflu (d a b : BitVec 7) (p : BitVec 3)
  /-- SHFLD (R259). Shuffle from lane l + b. -/
  | shfld (d a b : BitVec 7) (p : BitVec 3)
  /-- SHFLX (R259). Shuffle from lane l xor b. -/
  | shflx (d a b : BitVec 7) (p : BitVec 3)
  /-- VALL (R260). Votes whether the source holds in every active lane. -/
  | vall (j : BitVec 1) (d : BitVec 3) (k : BitVec 1) (s : BitVec 3)
  /-- VANY (R260). Votes whether the source holds in some active lane. -/
  | vany (j : BitVec 1) (d : BitVec 3) (k : BitVec 1) (s : BitVec 3)
  /-- VBAL (R260). Writes the ballot mask of the source to a scalar. -/
  | vbal (d : BitVec 6) (k : BitVec 1) (s : BitVec 3)
  /-- VCNT (R260). Counts active lanes where the source holds. -/
  | vcnt (d : BitVec 6) (k : BitVec 1) (s : BitVec 3)
  /-- VRED (R261). Reduces active lanes to a vector or scalar result. -/
  | vred (d a : BitVec 7) (t : BitVec 1) (o : BitVec 6) (p : BitVec 3)
  /-- VSCANI (R261). Inclusive scan over active lanes. -/
  | vscani (d a : BitVec 7) (o : BitVec 6) (p : BitVec 3)
  /-- VSCANX (R261). Exclusive scan over active lanes. -/
  | vscanx (d a : BitVec 7) (o : BitVec 6) (p : BitVec 3)
  /-- VBCAST (R264). Broadcasts one lane's value to every active lane. -/
  | vbcast (d a b : BitVec 6)
  /-- VEXTR (R264). Extracts one lane into a scalar. -/
  | vextr (d a b : BitVec 6)
  /-- VINSR (R264). Inserts a scalar into one lane. -/
  | vinsr (d a b : BitVec 6)
  /-- VCPRS (R264). Compresses predicated lanes' values. -/
  | vcprs (d a : BitVec 6) (p : BitVec 3)
  /-- VLANE (R264). Writes each lane's LID or HID. -/
  | vlane (d : BitVec 6) (h : BitVec 1)
  /-- VTID (R264). Writes each lane's TID. -/
  | vtid (d : BitVec 6)
  /-- LDS (R273). Vector load from SP. -/
  | lds (d a : BitVec 7) (b : BitVec 6) (p z : BitVec 3)
  /-- STS (R273). Vector store to SP. -/
  | sts (d a : BitVec 7) (b : BitVec 6) (p z : BitVec 3)
  /-- LDA (R273). Vector load from AB. -/
  | lda (d a : BitVec 7) (b : BitVec 6) (p z : BitVec 3)
  /-- STA (R273). Vector store to AB. -/
  | sta (d a : BitVec 7) (b : BitVec 6) (p z : BitVec 3)
  /-- LDG (R273). Vector load from global memory through the L1. -/
  | ldg (d a : BitVec 7) (b : BitVec 6) (p z : BitVec 3)
  /-- STG (R273). Vector store to global memory through the L1. -/
  | stg (d a : BitVec 7) (b : BitVec 6) (p z : BitVec 3)
  /-- ATOM (R277). Per-lane 32-bit atomic in global memory. -/
  | atom (d a : BitVec 7) (b : BitVec 6) (o : BitVec 4) (r : BitVec 2)
  /-- FENCE (R282). Widens a release or acquire to every location. -/
  | fence (s o : BitVec 2)
  /-- ACQ (R283). Reads a sync object as an acquire. -/
  | acq (d a : BitVec 6) (s : BitVec 2)
  /-- REL (R283). Writes a sync object as a release. -/
  | rel (b a : BitVec 6) (s : BitVec 2)
  /-- BIND (R284). Writes a binding-table entry and returns its index or a status. -/
  | bind (d a b : BitVec 6)
  /-- UNBIND (R284). Frees a binding-table entry. -/
  | unbind (a : BitVec 6)
  /-- CINV (R285). Writes back and drops L1 lines of a range. -/
  | cinv (a b : BitVec 6)
  /-- CWB_WRITEBACK (R285). Writes back dirty L1 lines of a range and keeps them. -/
  | cwbWriteback (a b : BitVec 6)
  /-- SATOM (R279). Scalar 64-bit atomic in global memory. -/
  | satom (o : BitVec 4) (r : BitVec 2) (d a b : BitVec 6)
  /-- WAIT (R287). Takes pending deferred causes, then waits until outstanding counts fall to limits. -/
  | wait (l s c t r : BitVec 4)
  /-- CPOST (R289). Posts an eight-register message to the Carter inbox. -/
  | cpost (a : BitVec 6)
  /-- WAITGE (R290). Parks until a word, timeline or counter reaches a value. -/
  | waitge (a b : BitVec 6) (f s : BitVec 2) (o : BitVec 1)
  /-- WAITGEC (R290). Parks until a word or timeline falls to at most a value. -/
  | waitgec (a b : BitVec 6) (f s : BitVec 2) (o : BitVec 1)
  /-- LAUNCH (R293). Releases and appends a task record to the pending-launch queue, parking if full. -/
  | launch (a : BitVec 6)
  /-- LAUNCHNB (R293). Appends a task record or reports LQFULL. -/
  | launchnb (d a : BitVec 6)
  /-- ARMCNT (R295). Arms an arrival counter from a descriptor and writes a status. -/
  | armcnt (d a b : BitVec 6)
  /-- DISARM (R296). Disarms an arrival counter. -/
  | disarm (d b : BitVec 6)
  /-- CNTRD (R297). Reads an arrival-counter figure. -/
  | cntrd (d k b : BitVec 6)
  /-- HEAT (R298). Requests explicit heat units from the Hearth. -/
  | heat (d a : BitVec 6)
  /-- COOL (R298). Returns held heat units. -/
  | cool (a : BitVec 6)
  /-- CWB_WAYBILL (R299). Carter starts a waybill read from global memory. -/
  | cwbWaybill (d a : BitVec 6)
  /-- CWBR (R299). Carter starts a waybill held in eight registers. -/
  | cwbr (d a : BitVec 6)
  /-- CSTRA (R299). Carter starts an A operand stream. -/
  | cstra (d a : BitVec 6)
  /-- CSTRB (R299). Carter starts a B operand stream. -/
  | cstrb (d a : BitVec 6)
  /-- CINBOX (R301). Carter takes the oldest inbox entry, acquiring. -/
  | cinbox (d : BitVec 6)
  /-- CDONE (R301). Completes the oldest pending inbox entry. -/
  | cdone
  /-- CTLADV (R302). Closes a Carter timeline operation. -/
  | ctladv (d : BitVec 6) (t : BitVec 2)
  /-- CWAITQ (R303). Reads a Carter queue figure. -/
  | cwaitq (d k : BitVec 6)
  /-- MCHB (R305). Opens a chain and takes a yard entry. -/
  | mchb (a b : BitVec 6) (y c : BitVec 1) (g : BitVec 2)
  /-- MCHE (R311). Closes the chain and assigns its Anvil timeline number. -/
  | mche (d : BitVec 6)
  /-- MZACC (R312). Zeroes a range of CB slots. -/
  | mzacc (a b : BitVec 6)
  /-- MCAP (R313). Reads the Anvil capability word. -/
  | mcap (d : BitVec 6)
  /-- MSTAT (R313). Reads and optionally clears the team's Anvil status. -/
  | mstat (d : BitVec 6) (c : BitVec 1)
  /-- MMA (R306). Appends a run of k-blocks to the open chain. -/
  | mma (f : BitVec 5) (v : BitVec 7) (e : BitVec 2) (b : BitVec 6) (p : BitVec 3) (s o : BitVec 1)
  /-- RLD_W (R319). Remote 4-byte load per lane. -/
  | rldW (d : BitVec 7) (a : BitVec 6) (o : BitVec 1) (b : BitVec 6) (p : BitVec 3)
  /-- RLD_D (R319). Remote 8-byte load per lane. -/
  | rldD (d : BitVec 7) (a : BitVec 6) (o : BitVec 1) (b : BitVec 6) (p : BitVec 3)
  /-- RLD_Q (R319). Remote 16-byte load per lane. -/
  | rldQ (d : BitVec 7) (a : BitVec 6) (o : BitVec 1) (b : BitVec 6) (p : BitVec 3)
  /-- RST_W (R319). Remote 4-byte store per lane. -/
  | rstW (d : BitVec 7) (a : BitVec 6) (o : BitVec 1) (b : BitVec 6) (p : BitVec 3)
  /-- RST_D (R319). Remote 8-byte store per lane. -/
  | rstD (d : BitVec 7) (a : BitVec 6) (o : BitVec 1) (b : BitVec 6) (p : BitVec 3)
  /-- RST_Q (R319). Remote 16-byte store per lane. -/
  | rstQ (d : BitVec 7) (a : BitVec 6) (o : BitVec 1) (b : BitVec 6) (p : BitVec 3)
  /-- RATOM (R322). Remote 64-bit atomic. -/
  | ratom (o : BitVec 4) (r : BitVec 2) (d a b : BitVec 6)
  /-- RNOTIFY (R323). Adds to a remote notify word without data return. -/
  | rnotify (a b : BitVec 6) (q r : BitVec 1)
  /-- RFENCE (R324). Waits until earlier remote operations are performed. -/
  | rfence
  /-- TREADY (R325). Releases and fires a tile-table entry, writing a status. -/
  | tready (d a : BitVec 6)
  /-- CLQRY (R326). Reads a collective figure. -/
  | clqry (d a k : BitVec 6)
  /-- TOPO (R327). Reads the island view of a virtual island. -/
  | topo (d a : BitVec 6)
  /-- HIMM (R335). Hint widening the next instruction's immediate. -/
  | himm (p : BitVec 22)
  /-- HMOD (R336). Hint giving rounding mode, scope or cache policy to the next instruction. -/
  | hmod (c : BitVec 4) (s r : BitVec 3)
  /-- HSCHED (R337). Hint biasing issue ties or loop buffering. -/
  | hsched (x : BitVec 10) (c : BitVec 4) (n : BitVec 8)
  /-- HNOP (R338). Hint with no effect carrying a marker payload. -/
  | hnop (p : BitVec 22)
  /-- HINT_KIND_NOOP (R220). A hint of kind 4 to 15 executes as a no-op. -/
  | hintKindNoop (kind : BitVec 4) (payload : BitVec 22)
  /-- ACCESS_COMPLETE (R275). A load or store completes and its outstanding count falls. -/
  | accessComplete
  /-- ATOMIC_PERFORM (R82). The owning die's atomic unit performs an atomic or word read. -/
  | atomicPerform
  /-- WRITE_ARRIVAL (R127). A write completes at a store controller or memory-side die and is counted. -/
  | writeArrival
  /-- COUNTER_CARTER_MESSAGE (R130). A CARTER action adds its message once the target inbox has room. -/
  | counterCarterMessage
  /-- TLB_INVALIDATION_ACK (R93). An agent acknowledges an invalidation once its conditions hold. -/
  | tlbInvalidationAck
  /-- ISLAND_TASK_PUSH (R57). A task record enters an island task queue once it accepts, after validation. -/
  | islandTaskPush
  /-- PENDING_LAUNCH_FORWARD (R33). A core forwards its oldest pending-launch entry when the island queue accepts. -/
  | pendingLaunchForward
  /-- COACH_PLACEMENT (R60). The dispatcher places the next coach on a fitting core. -/
  | coachPlacement
  /-- TEAM_ADMISSION (R64). At cycle end the core admits inactive teams that fit. -/
  | teamAdmission
  /-- LEASE_WINDOW_END (R66). A 4,096-instruction window ends and leases are recomputed. -/
  | leaseWindowEnd
  /-- TEAM_FORCED (R68). A team inactive for 8 quanta is forced into the active set. -/
  | teamForced
  /-- TEAM_WAKE (R73). A parked team's condition holds and it is woken at its continuation. -/
  | teamWake
  /-- FUSE_TIMEOUT (R54). A FUSE wait's 2^t resident cycles expire with code TIMEOUT. -/
  | fuseTimeout
  /-- SWAP_OUT (R74). An eligible coach is saved and its resources freed. -/
  | swapOut
  /-- COACH_RESTORE (R74). A swapped-out coach is restored when ready and its room is free. -/
  | coachRestore
  /-- QUANTUM_BOUNDARY (R75). At each 2 ms quantum the core rotates coaches of equal priority. -/
  | quantumBoundary
  /-- SUCCESSOR_PUSH (R29). A successor is pushed into its island queue when teams ended mixed. -/
  | successorPush
  /-- TASK_COMPLETION (R24). A task whose teams all exited performs its island-scope release. -/
  | taskCompletion
  /-- JOIN_DECREMENT (R24). The owning die decrements the join counter, or ends the context with JOIN_DENIED. -/
  | joinDecrement
  /-- HEAT_GRANT (R401). The Hearth grants the oldest highest-priority request that fits the budget. -/
  | heatGrant
  /-- WAYBILL_ELEMENT_LAND (R118). The copy engine moves and converts waybill elements to the destination. -/
  | waybillElementLand
  /-- WAYBILL_COMPLETE (R122). A waybill completes and its timeline operation may complete. -/
  | waybillComplete
  /-- STREAM_BLOCK_PUSH (R121). The Carter pushes stream k-blocks once the consuming chain is dispatched. -/
  | streamBlockPush
  /-- CHAIN_DISPATCH (R152). The yard dispatches a ready heated chain and the Anvil checks its headers. -/
  | chainDispatch
  /-- KBLOCK_APPLY (R155). The Anvil applies a k-block when both FIFOs hold it. -/
  | kblockApply
  /-- FRAME_RECEIVE (R172). A receiver checks a whole frame and performs it, or drops it at the firewall. -/
  | frameReceive
  /-- FRAME_RETRY (R172). The sender retries a failing frame from its retry buffer. -/
  | frameRetry
  /-- RELAY_FORWARD (R164). A relay island sends a held frame on in its scheduled slot. -/
  | relayForward
  /-- ROTOR_SLOT (R164). A rotor slot begins and frames are sent on its matchings. -/
  | rotorSlot
  /-- REMOTE_REPLY (R167). A remote acknowledgement or reply returns and the rm count falls. -/
  | remoteReply
  /-- REMOTE_TIMEOUT (R171). A remote operation not performed after 1 ms is a fatal error. -/
  | remoteTimeout
  /-- REPORT_ONLY_TIMEOUT (R188). A report-only handler that has not ended in 1 ms is ended with its context. -/
  | reportOnlyTimeout
  /-- BELLOWS_SEND (R175). After heat is granted the Bellows reads SRC and sends its tile to peers. -/
  | bellowsSend
  /-- COLLECTIVE_COMPLETE (R176). A peer holding every tile writes DST, returns heat and raises its timeline. -/
  | collectiveComplete
  /-- HCPSEL_WRITE (R364). The driver selects the host command protocol major and capabilities. -/
  | hcpselWrite
  /-- QUEUE_ENABLE (R365). Setting EN checks and enables a host command queue. -/
  | queueEnable
  /-- QUEUE_DISABLE (R365). Clearing EN stops a queue and resets HEAD and QERR. -/
  | queueDisable
  /-- DOORBELL (R366). The host writes a queue tail to make commands available. -/
  | doorbell
  /-- CMD_NOP (R367). Host command that only completes. -/
  | cmdNop
  /-- CMD_LAUNCH (R371). Host command that validates a launch descriptor and arms its waits. -/
  | cmdLaunch
  /-- CMD_WRITE (R376). Host command storing a value at an island word as a release. -/
  | cmdWrite
  /-- CMD_COPY (R376). Host command copying bytes between host and island memory. -/
  | cmdCopy
  /-- CMD_MCTSET (R377). Host command changing a multicast-table entry if quiescent. -/
  | cmdMctset
  /-- CMD_KILL (R377). Host command ending a live launch as TKILL does. -/
  | cmdKill
  /-- LAUNCH_DISPATCH (R374). All wait conditions hold; tables are written and records pushed. -/
  | launchDispatch
  /-- CTX_CREATE (R384). Mailbox request creating a context from a descriptor. -/
  | ctxCreate
  /-- CTX_DESTROY (R388). Mailbox request ending and freeing a context. -/
  | ctxDestroy
  /-- CTX_SUSPEND (R389). Mailbox request saving a context's cores as images. -/
  | ctxSuspend
  /-- CTX_RESUME (R391). Mailbox request restoring saved core images. -/
  | ctxResume
  /-- INVAL (R396). Mailbox request invalidating translations on named islands. -/
  | inval
  /-- PF_DONE (R397). Mailbox request resuming agents parked on a page fault. -/
  | pfDone
  /-- TOPO_READ (R392). Mailbox request copying the topology table to the host. -/
  | topoRead
  /-- TOPO_FENCE (R394). Mailbox request fencing an island or returning it to service. -/
  | topoFence
  /-- TOPO_REMAP (R394). Mailbox request exchanging two virtual island numbers. -/
  | topoRemap
  /-- HEARTH_BUDGET_WRITE (R400). Writing BUDGET changes the heat budget and may let grants resume. -/
  | hearthBudgetWrite
  /-- FWMASK_WRITE (R404). Writing FWMASK changes which islands' frames the ingress admits. -/
  | fwmaskWrite
  /-- CORECTX_WRITE (R405). Writing CORECTX grants a core or is ignored with ERR set. -/
  | corectxWrite
  /-- KEY_ZEROISE (R408). Writing ZERO drops the owner's L2 lines and clears the key slot. -/
  | keyZeroise
  /-- FAREQ_ASSIGN (R409). FAREQ assigns frames to a context or reports an error in FASTAT. -/
  | fareqAssign
  /-- FAREQ_QUARANTINE (R409). FAREQ quarantines frames and the cores held at destruction. -/
  | fareqQuarantine
  /-- SCRUB_START (R410). Writing SCRUBCTL fixes the scrub set and starts scrubbing. -/
  | scrubStart
  /-- SCRUB_UNIT (R410). Every 25 ticks one 64 KiB unit is zeroed; the last clears Q. -/
  | scrubUnit
  /-- ISLAND_RESET (R412). Writing ISLRST resets keys, grants, FWMASK, stores and the Hearth. -/
  | islandReset
  /-- ISLAND_RESET_END (R412). After 50 µs the reset ends and an interrupted scrub restarts. -/
  | islandResetEnd
  /-- DISCARD (R416). Writing DISCARD stops and discards a context on the island. -/
  | discard
  /-- HUB_WAKE (R381). Writing WAKE resumes a halted hub core at PC + 4. -/
  | hubWake
  /-- REGISTER_WRITE (R399). A write to a register with no behaviour of its own. -/
  | registerWrite
  /-- ENERGY_WINDOW (R403). A 1 ms energy window ends and issue cuts are lifted. -/
  | energyWindow
  /-- CORRECTED_ERROR (R420). A correctable error is corrected and counted. -/
  | correctedError
  /-- UNCORRECTABLE_ERROR (R420). An uncorrectable error lists a line, quarantines a frame or marks bytes. -/
  | uncorrectableError
  /-- TEMPERATURE_CROSSING (R419). HOT passes 95 °C or reaches 115 °C, stopping converters and fencing. -/
  | temperatureCrossing
  /-- LINK_WINDOW_END (R422). A 17.5 ms link window ends and margins and retries are judged. -/
  | linkWindowEnd
  /-- FW_LOAD (R415). Writing FWGO starts verifying a staged firmware image. -/
  | fwLoad
  /-- FW_VERIFY_COMPLETE (R415). Verification ends with the image written to flash or rejected. -/
  | fwVerifyComplete
  /-- HUB_RESET (R423). A hub reset ends every context and restarts firmware after verification. -/
  | hubReset
  /-- SPDM_REQUEST (R415). The hub answers an SPDM attestation request over MCTP. -/
  | spdmRequest
  /-- POWER_ON (R418). Power-on clears health counters and brings the panel up. -/
  | powerOn
  /-- ILLEGAL_INSN (R219). A fetched word that is not a valid instruction for its agent traps ILLEGAL_INSN precisely. -/
  | illegalInsn
  /-- INSTRUCTION_FETCH_FAULT (R228). An instruction fetch at a target or fall-through address meets a translation fault and traps precisely with ATYPE 0, or parks on a page fault. -/
  | instructionFetchFault
  /-- INVALID_COMMAND (R367). A host command with an invalid OPC or non-zero reserved bytes completes with status INVALID and does nothing else. -/
  | invalidCommand
  /-- INVALID_MAILBOX_REQUEST (R382). A mailbox request with an unlisted CODE fails with INVALID. -/
  | invalidMailboxRequest
  /-- EDGE_PORT_LINK_UP (R379). An edge optical port comes up and negotiates the island link protocol, or stays down when no major is shared. -/
  | edgePortLinkUp
  /-- POWER_LOSS (R415). The panel loses its supply, possibly in the middle of a flash write, which leaves an image that fails verification at the next reset. -/
  | powerLoss
  deriving DecidableEq, Repr

end Sys2Proof
end

