-- ==== Sys2Proof/Machine/Event.lean ====
section
/-!
DEFINITION. The machine's own steps with what each acts on: an island, a core, a handle of State, a function and a queue of the
host, or the value that comes from outside. The step's instruction is the row of the table of operations and events.
-/
namespace Sys2Proof.Machine

/-- A step of the machine, one constructor for each row of the table that has no word. -/
inductive Event where
  /-- ACCESS_COMPLETE (R275). -/
  | accessComplete (op : Nat)
  /-- ATOMIC_PERFORM (R82). -/
  | atomicPerform (op lane : Nat)
  /-- WRITE_ARRIVAL (R127). -/
  | writeArrival (sp isl core addr : Nat) (bytes : List (BitVec 8)) (ctx va : Nat)
  /-- COUNTER_CARTER_MESSAGE (R130). -/
  | counterCarterMessage (isl core : Nat)
  /-- TLB_INVALIDATION_ACK (R93). -/
  | tlbInvalidationAck (inv agent : Nat)
  /-- ISLAND_TASK_PUSH (R57). -/
  | islandTaskPush (push : Nat)
  /-- PENDING_LAUNCH_FORWARD (R33). -/
  | pendingLaunchForward (isl core : Nat)
  /-- COACH_PLACEMENT (R60). -/
  | coachPlacement (isl : Nat)
  /-- TEAM_ADMISSION (R64). -/
  | teamAdmission (isl core : Nat)
  /-- LEASE_WINDOW_END (R66). -/
  | leaseWindowEnd (uid : Nat)
  /-- TEAM_FORCED (R68). -/
  | teamForced (uid : Nat)
  /-- TEAM_WAKE (R73). -/
  | teamWake (uid : Nat)
  /-- FUSE_TIMEOUT (R54). -/
  | fuseTimeout (uid : Nat)
  /-- SWAP_OUT (R74). -/
  | swapOut (coach : Nat)
  /-- COACH_RESTORE (R74). -/
  | coachRestore (coach : Nat)
  /-- QUANTUM_BOUNDARY (R75). -/
  | quantumBoundary (isl core : Nat)
  /-- SUCCESSOR_PUSH (R29). -/
  | successorPush (coach : Nat)
  /-- TASK_COMPLETION (R24). -/
  | taskCompletion (task : Nat)
  /-- JOIN_DECREMENT (R24). -/
  | joinDecrement (task : Nat)
  /-- HEAT_GRANT (R401). -/
  | heatGrant (isl : Nat)
  /-- WAYBILL_ELEMENT_LAND (R118). -/
  | waybillElementLand (wb elem : Nat)
  /-- WAYBILL_COMPLETE (R122). -/
  | waybillComplete (wb : Nat)
  /-- STREAM_BLOCK_PUSH (R121). -/
  | streamBlockPush (wb : Nat)
  /-- CHAIN_DISPATCH (R152). -/
  | chainDispatch (isl core : Nat)
  /-- KBLOCK_APPLY (R155). -/
  | kblockApply (isl core block : Nat)
  /-- FRAME_RECEIVE (R172). -/
  | frameReceive (frame : Nat)
  /-- FRAME_RETRY (R172). -/
  | frameRetry (frame : Nat)
  /-- RELAY_FORWARD (R164). -/
  | relayForward (frame : Nat)
  /-- ROTOR_SLOT (R164). -/
  | rotorSlot (plane : Nat)
  /-- REMOTE_REPLY (R167). -/
  | remoteReply (frame : Nat)
  /-- REMOTE_TIMEOUT (R171). -/
  | remoteTimeout (frame : Nat)
  /-- REPORT_ONLY_TIMEOUT (R188). -/
  | reportOnlyTimeout (uid : Nat)
  /-- BELLOWS_SEND (R175). -/
  | bellowsSend (isl ctx entry : Nat)
  /-- COLLECTIVE_COMPLETE (R176). -/
  | collectiveComplete (isl ctx entry : Nat)
  /-- HCPSEL_WRITE (R364). -/
  | hcpselWrite (fn : Nat) (val : BitVec 64)
  /-- QUEUE_ENABLE (R365). -/
  | queueEnable (fn queue : Nat) (cbase qbase ctl : BitVec 64)
  /-- QUEUE_DISABLE (R365). -/
  | queueDisable (fn queue : Nat)
  /-- DOORBELL (R366). -/
  | doorbell (fn queue tail : Nat)
  /-- CMD_NOP (R367). -/
  | cmdNop (fn queue : Nat)
  /-- CMD_LAUNCH (R371). -/
  | cmdLaunch (fn queue : Nat)
  /-- CMD_WRITE (R376). -/
  | cmdWrite (fn queue : Nat)
  /-- CMD_COPY (R376). -/
  | cmdCopy (fn queue : Nat)
  /-- CMD_MCTSET (R377). -/
  | cmdMctset (fn queue : Nat)
  /-- CMD_KILL (R377). -/
  | cmdKill (fn queue : Nat)
  /-- LAUNCH_DISPATCH (R374). -/
  | launchDispatch (launch : Nat)
  /-- CTX_CREATE (R384). -/
  | ctxCreate (fn : Nat)
  /-- CTX_DESTROY (R388). -/
  | ctxDestroy (fn : Nat)
  /-- CTX_SUSPEND (R389). -/
  | ctxSuspend (fn : Nat)
  /-- CTX_RESUME (R391). -/
  | ctxResume (fn : Nat)
  /-- INVAL (R396). -/
  | inval (fn : Nat)
  /-- PF_DONE (R397). -/
  | pfDone (fn : Nat)
  /-- TOPO_READ (R392). -/
  | topoRead (fn : Nat)
  /-- TOPO_FENCE (R394). -/
  | topoFence (fn : Nat)
  /-- TOPO_REMAP (R394). -/
  | topoRemap (fn : Nat)
  /-- HEARTH_BUDGET_WRITE (R400). -/
  | hearthBudgetWrite (isl : Nat) (val : BitVec 64)
  /-- FWMASK_WRITE (R404). -/
  | fwmaskWrite (isl : Nat) (val : BitVec 64)
  /-- CORECTX_WRITE (R405). -/
  | corectxWrite (isl core : Nat) (val : BitVec 64)
  /-- KEY_ZEROISE (R408). -/
  | keyZeroise (isl key : Nat)
  /-- FAREQ_ASSIGN (R409). -/
  | fareqAssign (isl : Nat) (val : BitVec 64)
  /-- FAREQ_QUARANTINE (R409). -/
  | fareqQuarantine (isl : Nat) (val : BitVec 64)
  /-- SCRUB_START (R410). -/
  | scrubStart (isl : Nat)
  /-- SCRUB_UNIT (R410). -/
  | scrubUnit (isl : Nat)
  /-- ISLAND_RESET (R412). -/
  | islandReset (isl : Nat)
  /-- ISLAND_RESET_END (R412). -/
  | islandResetEnd (isl : Nat)
  /-- DISCARD (R416). -/
  | discard (isl : Nat) (val : BitVec 64)
  /-- HUB_WAKE (R381). -/
  | hubWake (writer hub : Nat)
  /-- REGISTER_WRITE (R399). -/
  | registerWrite (bar : Bool) (unit off : Nat) (val : BitVec 64)
  /-- ENERGY_WINDOW (R403). -/
  | energyWindow (isl : Nat)
  /-- CORRECTED_ERROR (R420). -/
  | correctedError (isl unit : Nat)
  /-- UNCORRECTABLE_ERROR (R420). -/
  | uncorrectableError (isl sp core addr : Nat)
  /-- TEMPERATURE_CROSSING (R419). -/
  | temperatureCrossing (isl : Nat) (inlet hot : BitVec 16)
  /-- LINK_WINDOW_END (R422). -/
  | linkWindowEnd (isl plane : Nat) (margin : BitVec 8)
  /-- FW_LOAD (R415). -/
  | fwLoad
  /-- FW_VERIFY_COMPLETE (R415). -/
  | fwVerifyComplete (good : Bool)
  /-- HUB_RESET (R423). -/
  | hubReset (good : Bool)
  /-- SPDM_REQUEST (R415). -/
  | spdmRequest (block : Nat)
  /-- POWER_ON (R418). -/
  | powerOn
  /-- ILLEGAL_INSN (R219). -/
  | illegalInsn (word : BitVec 32)
  /-- INSTRUCTION_FETCH_FAULT (R228). -/
  | instructionFetchFault
  /-- INVALID_COMMAND (R367). -/
  | invalidCommand (fn queue : Nat)
  /-- INVALID_MAILBOX_REQUEST (R382). -/
  | invalidMailboxRequest (fn : Nat)
  /-- EDGE_PORT_LINK_UP (R379). -/
  | edgePortLinkUp (panel : Nat) (majors : BitVec 8)
  /-- POWER_LOSS (R415). -/
  | powerLoss (flashing : Bool)
  deriving DecidableEq, Repr

/-- The row of a step. -/
def Event.instr : Event → Instr
  | .accessComplete _ => .accessComplete
  | .atomicPerform _ _ => .atomicPerform
  | .writeArrival _ _ _ _ _ _ _ => .writeArrival
  | .counterCarterMessage _ _ => .counterCarterMessage
  | .tlbInvalidationAck _ _ => .tlbInvalidationAck
  | .islandTaskPush _ => .islandTaskPush
  | .pendingLaunchForward _ _ => .pendingLaunchForward
  | .coachPlacement _ => .coachPlacement
  | .teamAdmission _ _ => .teamAdmission
  | .leaseWindowEnd _ => .leaseWindowEnd
  | .teamForced _ => .teamForced
  | .teamWake _ => .teamWake
  | .fuseTimeout _ => .fuseTimeout
  | .swapOut _ => .swapOut
  | .coachRestore _ => .coachRestore
  | .quantumBoundary _ _ => .quantumBoundary
  | .successorPush _ => .successorPush
  | .taskCompletion _ => .taskCompletion
  | .joinDecrement _ => .joinDecrement
  | .heatGrant _ => .heatGrant
  | .waybillElementLand _ _ => .waybillElementLand
  | .waybillComplete _ => .waybillComplete
  | .streamBlockPush _ => .streamBlockPush
  | .chainDispatch _ _ => .chainDispatch
  | .kblockApply _ _ _ => .kblockApply
  | .frameReceive _ => .frameReceive
  | .frameRetry _ => .frameRetry
  | .relayForward _ => .relayForward
  | .rotorSlot _ => .rotorSlot
  | .remoteReply _ => .remoteReply
  | .remoteTimeout _ => .remoteTimeout
  | .reportOnlyTimeout _ => .reportOnlyTimeout
  | .bellowsSend _ _ _ => .bellowsSend
  | .collectiveComplete _ _ _ => .collectiveComplete
  | .hcpselWrite _ _ => .hcpselWrite
  | .queueEnable _ _ _ _ _ => .queueEnable
  | .queueDisable _ _ => .queueDisable
  | .doorbell _ _ _ => .doorbell
  | .cmdNop _ _ => .cmdNop
  | .cmdLaunch _ _ => .cmdLaunch
  | .cmdWrite _ _ => .cmdWrite
  | .cmdCopy _ _ => .cmdCopy
  | .cmdMctset _ _ => .cmdMctset
  | .cmdKill _ _ => .cmdKill
  | .launchDispatch _ => .launchDispatch
  | .ctxCreate _ => .ctxCreate
  | .ctxDestroy _ => .ctxDestroy
  | .ctxSuspend _ => .ctxSuspend
  | .ctxResume _ => .ctxResume
  | .inval _ => .inval
  | .pfDone _ => .pfDone
  | .topoRead _ => .topoRead
  | .topoFence _ => .topoFence
  | .topoRemap _ => .topoRemap
  | .hearthBudgetWrite _ _ => .hearthBudgetWrite
  | .fwmaskWrite _ _ => .fwmaskWrite
  | .corectxWrite _ _ _ => .corectxWrite
  | .keyZeroise _ _ => .keyZeroise
  | .fareqAssign _ _ => .fareqAssign
  | .fareqQuarantine _ _ => .fareqQuarantine
  | .scrubStart _ => .scrubStart
  | .scrubUnit _ => .scrubUnit
  | .islandReset _ => .islandReset
  | .islandResetEnd _ => .islandResetEnd
  | .discard _ _ => .discard
  | .hubWake _ _ => .hubWake
  | .registerWrite _ _ _ _ => .registerWrite
  | .energyWindow _ => .energyWindow
  | .correctedError _ _ => .correctedError
  | .uncorrectableError _ _ _ _ => .uncorrectableError
  | .temperatureCrossing _ _ _ => .temperatureCrossing
  | .linkWindowEnd _ _ _ => .linkWindowEnd
  | .fwLoad => .fwLoad
  | .fwVerifyComplete _ => .fwVerifyComplete
  | .hubReset _ => .hubReset
  | .spdmRequest _ => .spdmRequest
  | .powerOn => .powerOn
  | .illegalInsn _ => .illegalInsn
  | .instructionFetchFault => .instructionFetchFault
  | .invalidCommand _ _ => .invalidCommand
  | .invalidMailboxRequest _ => .invalidMailboxRequest
  | .edgePortLinkUp _ _ => .edgePortLinkUp
  | .powerLoss _ => .powerLoss

/-- A step under other numbers of the islands (R394). -/
def Event.moved (f : Nat → Nat) : Event → Event
  | .writeArrival sp isl core addr bytes ctx va => .writeArrival sp (f isl) core addr bytes ctx va
  | .counterCarterMessage isl core => .counterCarterMessage (f isl) core
  | .pendingLaunchForward isl core => .pendingLaunchForward (f isl) core
  | .coachPlacement isl => .coachPlacement (f isl)
  | .teamAdmission isl core => .teamAdmission (f isl) core
  | .quantumBoundary isl core => .quantumBoundary (f isl) core
  | .heatGrant isl => .heatGrant (f isl)
  | .chainDispatch isl core => .chainDispatch (f isl) core
  | .kblockApply isl core block => .kblockApply (f isl) core block
  | .bellowsSend isl ctx entry => .bellowsSend (f isl) ctx entry
  | .collectiveComplete isl ctx entry => .collectiveComplete (f isl) ctx entry
  | .hearthBudgetWrite isl val => .hearthBudgetWrite (f isl) val
  | .fwmaskWrite isl val => .fwmaskWrite (f isl) val
  | .corectxWrite isl core val => .corectxWrite (f isl) core val
  | .keyZeroise isl key => .keyZeroise (f isl) key
  | .fareqAssign isl val => .fareqAssign (f isl) val
  | .fareqQuarantine isl val => .fareqQuarantine (f isl) val
  | .scrubStart isl => .scrubStart (f isl)
  | .scrubUnit isl => .scrubUnit (f isl)
  | .islandReset isl => .islandReset (f isl)
  | .islandResetEnd isl => .islandResetEnd (f isl)
  | .discard isl val => .discard (f isl) val
  | .registerWrite bar unit off val => .registerWrite bar (if bar then unit else f unit) off val
  | .energyWindow isl => .energyWindow (f isl)
  | .correctedError isl unit => .correctedError (f isl) unit
  | .uncorrectableError isl sp core addr => .uncorrectableError (f isl) sp core addr
  | .temperatureCrossing isl inlet hot => .temperatureCrossing (f isl) inlet hot
  | .linkWindowEnd isl plane margin => .linkWindowEnd (f isl) plane margin
  | e => e

end Sys2Proof.Machine
end

