-- ==== Sys2Proof/Machine/State.lean ====
section
/-!
DEFINITION. The state of the panel as plain data: the running agent, the other agents, memory, caches, engines, islands,
contexts, scheduling, the network and the host side, with `State.reset` at the end.

A register file, a lane file or a memory is a `Sparse` map in which an unlisted key reads as 0. Tables are lists of records
that carry their own keys; a record that is absent stands for the reset values of its unit.
-/
namespace Sys2Proof.Machine

/-- The three kinds of agent that execute instructions (R17, R113, R380). -/
inductive AgentKind where
  | team
  | carter
  | hub
  deriving DecidableEq, Repr

/-- Where an agent stands: the four states of R62, the ended team, the idle Carter of R113, the stopped hub core of R380. -/
inductive Life where
  | inactive
  | active
  | parked
  | swapped
  | ended
  | idle
  | halted
  | trapStopped
  deriving DecidableEq, Repr

/-- What a parked agent waits for (R73). A retried wait runs its instruction again at the same pc. -/
inductive Park where
  /-- Not parked. -/
  | none
  /-- WAITGE or WAITGEC on a word (R290): its location, the value, the sense, and the acquire. -/
  | word (va : Word64) (key : Nat) (val : Word64) (atMost acq : Bool) (scope : Nat)
  /-- WAITGE, WAITGEC or YIELDC on a timeline (R124, R290). -/
  | timeline (num key : Nat) (val : Word64) (atMost acq : Bool) (scope : Nat)
  /-- WAITGE on a counter's fired bit (R290). -/
  | counter (glob : Bool) (idx : Nat) (acq : Bool) (scope : Nat)
  /-- A blocking LAUNCH, retried (R34). -/
  | launch
  /-- A FUSE (R54): the width wanted, the destination, the resident cycles that remain. -/
  | fuse (w sd left since : Nat)
  /-- GWAIT or GBAR on a phase of a group entry (R268). -/
  | group (entry : Nat) (phase : BitVec 32) (acq : Bool) (scope : Nat)
  /-- A second GARRIVE or GBAR in one phase, retried (R268). -/
  | arrive (entry : Nat) (phase : BitVec 32)
  /-- MCHB with a full yard, retried (R70). -/
  | yard
  /-- A local page fault, retried (R94). -/
  | page (va : Word64)
  deriving DecidableEq, Repr

/-- An active hardware loop (R49, R50): which of lc0-lc2 counts it, the passes that remain, its length and its last address. -/
structure Loop where
  lc : Nat
  count : BitVec 32
  len : Nat
  last : Word64
  deriving DecidableEq, Repr

/-- The hints attached to the next instruction (R334): payloads of HIMM, HMOD and HSCHED. -/
structure Hints where
  himm : Option (BitVec 22)
  hmod : Option (BitVec 10)
  hsched : Option (BitVec 12)
  deriving DecidableEq, Repr

/-- No hint attached. -/
def Hints.none : Hints := { himm := Option.none, hmod := Option.none, hsched := Option.none }

/-- Who an agent is and where it stands (R17, R19, R20, R52). `uid` is the model's own unique handle. -/
structure Ident where
  uid : Nat
  kind : AgentKind
  isl : Nat
  core : Nat
  slot : Nat
  ctx : Nat
  launch : Nat
  task : Nat
  coach : Nat
  taskId : BitVec 32
  team : Nat
  launchPos : Nat
  launchWidth : Nat
  width : Nat
  coachSz : Nat
  hitch : Nat
  vregs : Nat
  prio : Nat
  covers : List Nat
  groups : List (Option Nat)
  deriving DecidableEq, Repr

/-- The scalar side of an agent (R17, R35, R138, R209). -/
structure Scalar where
  s : Sparse 64
  c : BitVec 8
  pc : Word64
  pc1 : Option Word64
  loops : List Loop
  rmode : BitVec 2
  fpte : BitVec 5
  hints : Hints
  insn : Word32
  deriving DecidableEq, Repr

/-- The lanes of a team (R17): vector registers by register * 64 + LID, predicates, flags and depth counters by LID. -/
structure Lanes where
  v : Sparse 32
  p : Sparse 8
  flags : Sparse 5
  dc : Sparse 8
  deriving DecidableEq, Repr

/-- An IF that the front end has passed and whose ENDIF it has not (R44). `even`: every lane had dc 0 before it, and after it the lanes of each hitch
have equal dc and both 0 and 1 occur; `thenLanes` are its lanes with dc 0; `clean`: no hardware loop has begun and no cross-lane instruction has passed
since; `before`: the operations under way before it. -/
structure OpenIf where
  even : Bool
  thenLanes : List Nat
  clean : Bool
  before : List Nat
  deriving DecidableEq, Repr

/-- An instruction in a vector queue, with the scalar side at its position in program order (R35, R36) and the IFs open there. -/
structure QEntry where
  instr : Instr
  word : Word32
  sc : Scalar
  ifs : List OpenIf
  deriving DecidableEq, Repr

/-- Two-slot mode (R44-R48): how many IFs are open with its own, the lanes of the first stream, the depth counters under which each stream runs, where
the front end stands (past the ELSE; how many vector instructions of the else-arm it has passed), how many of those the second stream has issued, which
stream has been issuing, and the operations that each has begun. -/
structure TwoSlot where
  base : Nat
  thenLanes : List Nat
  dcA : Sparse 8
  dcB : Sparse 8
  inElse : Bool
  seen : Nat
  done : Nat
  second : Bool
  opsA : List Nat
  opsB : List Nat
  deriving DecidableEq, Repr

/-- A team's vector queue (R35): its entries, in two-slot mode those of each stream, and the open IFs. -/
structure Slots where
  first : List QEntry
  second : List QEntry
  ifs : List OpenIf
  two : Option TwoSlot
  deriving DecidableEq, Repr

/-- The trap registers and the hidden trap state (R182, R185, R188, R334). -/
structure Trap where
  xpc : Word64
  xcause : Word64
  xaddr : Word64
  xlanes : Word64
  xinsn : Word64
  xrec : Word64
  handler : Bool
  report : Bool
  reportSince : Nat
  cause : BitVec 16
  savedDc : Sparse 8
  savedPc : Word64
  savedPc1 : Option Word64
  resume : Option Word64
  xpcWritten : Bool
  savedHints : Hints
  savedSl : Slots
  deriving DecidableEq, Repr

/-- The five classes of outstanding operation (R275, R289, R150, R167). -/
inductive Cls where
  | ld
  | st
  | cp
  | tl
  | rm
  deriving DecidableEq, Repr

/-- An outstanding operation: it holds one unit of its class's count until `left` reaches 0. -/
structure Op where
  id : Nat
  cls : Cls
  left : Nat
  deriving DecidableEq, Repr

/-- The outstanding operations and the interlocks of a team (R71, R275, R354). `fenced`: an acquiring atomic is under way;
`rfence`: remote operations with handles below it precede the last RFENCE (R324). -/
structure Flow where
  ld : Nat
  st : Nat
  cp : Nat
  tl : Nat
  rm : Nat
  ops : List Op
  pendV : List Nat
  pendS : List Nat
  fenced : List Nat
  rfence : Nat
  deriving DecidableEq, Repr

/-- A pending deferred cause (R153): the chain's number, the cause, the address and word of its MCHB, XADDR, and the panel time at which it
was detected (R184). -/
structure Deferred where
  num : Nat
  cause : BitVec 16
  xpc : Word64
  insn : Word32
  xaddr : Word64
  time : Nat
  deriving DecidableEq, Repr

/-- A team's side of the Anvil, and explicit heat (R149, R153, R298, R313): `heatOwed` units are requested again after a save. -/
structure Anv where
  chain : Option Nat
  mstat : BitVec 4
  deferred : List Deferred
  lost : Nat
  heat : Nat
  heatWait : Option (Nat × Nat)
  heatOwed : Nat
  deriving DecidableEq, Repr

/-- A task record as read (R20). -/
structure TaskRec where
  code : Word64
  frame : Word64
  join : Word64
  arg : Word64
  wcode : Nat
  vregs : Nat
  nteams : Nat
  coachSz : Nat
  prio : Nat
  qnum : Nat
  spk : Nat
  abk : Nat
  wbk : Nat
  cbk : Nat
  lease : Nat
  lm : Bool
  taskId : BitVec 32
  valid : Bool
  deriving DecidableEq, Repr

/-- Scheduling state of a team (R62-R69, R73): life, wait, leases, the window's counts and the last window's figures; `exitRec` is the
successor that a waiting EXIT.S has read (R236), `woken` says that a parked agent's condition has held (R73, R291), `solo` the phases of the barriers of the empty group slots (R268),
`wakeRegs` the counted bytes that a woken agent acquires at .i before it continues, and `wakeSync` that what woke it is an acquire at any scope (R108). -/
structure Sched where
  life : Life
  park : Park
  woken : Bool
  lease : Nat
  effLease : Nat
  measured : Bool
  winCount : Nat
  winLines : List Nat
  winMisses : Nat
  winLost : Nat
  lastLines : Nat
  lastLost : Nat
  placedAt : Nat
  activatedAt : Nat
  parkedAt : Nat
  inactiveAt : Nat
  exitRec : Option (Word64 × TaskRec)
  solo : Sparse 32
  wakeRegs : List (Nat × Nat)
  wakeSync : Bool
  deriving DecidableEq, Repr

/-- One agent that executes instructions. -/
structure Thread where
  id : Ident
  sc : Scalar
  ln : Lanes
  tr : Trap
  fl : Flow
  an : Anv
  sch : Sched
  sl : Slots
  deriving DecidableEq, Repr

/-- A line of a core's L1 (R81): its number is the physical address divided by 128; `vas` are the virtual lines through which its
context has reached it (R99, R103); `last` marks a line of the last-use policy (R336). -/
structure L1Line where
  isl : Nat
  core : Nat
  line : Nat
  ctx : Nat
  vas : List Nat
  data : BitVec 1024
  dirty : BitVec 128
  marked : BitVec 128
  team : Nat
  stream : Bool
  last : Bool
  deriving DecidableEq, Repr

/-- A victim tag (R66). -/
structure Victim where
  isl : Nat
  core : Nat
  line : Nat
  team : Nat
  deriving DecidableEq, Repr

/-- A leaf translation held in a core's TLB (`unit` 0 to 127), in a die's TLB (128 + die) or at the ingress (130) (R92). -/
structure TlbEntry where
  isl : Nat
  unit : Nat
  ctx : Nat
  vbase : Nat
  size : Nat
  pbase : Nat
  entryKey : Nat
  w : Bool
  x : Bool
  re : Bool
  pin : Bool
  mt : Nat
  d : Bool
  deriving DecidableEq, Repr

/-- A message of a Carter's inbox with its posting tag (R114). `poster` is the posting team's handle, `op` its operation; the coach, launch,
task and priority are the posting team's; `scope` is that of the counter of a CARTER action, with its counted bytes (R108). -/
structure Msg where
  words : List Word64
  tag : Word64
  poster : Nat
  op : Nat
  coach : Nat
  launch : Nat
  task : Nat
  prio : Nat
  scope : Nat
  regs : List (Nat × Nat)
  deriving DecidableEq, Repr

/-- What a core's Carter holds besides its registers (R114, R126, R189, R301). `named` is the message whose team the record of the handler
that runs names. -/
structure CarterSt where
  isl : Nat
  core : Nat
  inbox : List Msg
  pending : List Msg
  last : Option Msg
  lastTeam : Option Msg
  faultWb : Option Nat
  named : Option Msg
  heldFaults : List Nat
  deriving DecidableEq, Repr

/-- An address in a pending-launch queue with its launching team and instruction (R33). -/
structure LaunchEnt where
  isl : Nat
  core : Nat
  ctx : Nat
  addr : Word64
  team : Ident
  subt : Nat
  xpc : Word64
  insn : Word32
  deriving DecidableEq, Repr

/-- A waybill that a Carter has started (R116-R122, R189). `landed` holds the indices of the elements that have landed, `bytes`
counts their bytes, `sent` the elements that a remote operation carries, `seq` is its place in program order, and `faultTime` the panel time
of its fault (R184). `lines` are the source lines that a multicast has read, by virtual line, each with its uncorrectable bytes, and `targets` the
coaches that take its bytes, by core, fixed when its first element moves; none for a core that receives nothing (R85). -/
structure Waybill where
  uid : Nat
  seq : Nat
  isl : Nat
  core : Nat
  ctx : Nat
  raw : List Word64
  coach : Option Nat
  launch : Nat
  task : Nat
  tl : Nat
  opn : Nat
  needHeat : Bool
  heatHeld : Bool
  landed : List Nat
  bytes : Nat
  sent : List Nat
  pushedTo : Nat
  fault : Option (BitVec 16)
  faultAddr : Word64
  faultSpace : Nat
  faultTime : Nat
  lines : List (Nat × BitVec 1024 × BitVec 128)
  paused : Bool
  xpc : Word64
  insn : Word32
  targets : Option (List (Nat × Option Nat)) := none
  deriving DecidableEq, Repr

/-- One k-block of an operand stream: raw elements, row or column by row or column, and the block's scales (R121). -/
structure Block where
  num : Nat
  elems : List Word32
  scales : List Word32
  bad : Option (BitVec 16)
  deriving DecidableEq, Repr

/-- A stream in an operand FIFO: its header and the blocks pushed and not consumed (R121). -/
structure Stream where
  wb : Nat
  isl : Nat
  core : Nat
  isA : Bool
  smn : Nat
  sk : Nat
  sfmt : Nat
  scl : Bool
  chain : Option Nat
  blocks : List Block
  next : Nat
  deriving DecidableEq, Repr

/-- One MMA of a chain (R308): the count, fmt, flags, width, active lanes by LID, and the A-side scales by block and row. -/
structure MmaRec where
  count : Nat
  fmt : Nat
  scaled : Bool
  ov : Bool
  width : Nat
  active : BitVec 64
  scales : List (List Word32)
  deriving DecidableEq, Repr

/-- How far a chain has come (R70, R154, R155). -/
inductive ChainSt where
  | open_
  | waiting
  | wantsHeat
  | hasHeat
  | running
  deriving DecidableEq, Repr

/-- A yard entry (R150, R305, R308). `applied` has one entry for each step applied, the number of k-blocks that were at hand in it, `mche` and `order` the places of its MCHE and of its heat grant, and
`lead` the chain whose B stream it takes (R158); `begun` says that it has been dispatched, and keeps its streams through a save (R160). -/
structure Chain where
  uid : Nat
  isl : Nat
  core : Nat
  ctx : Nat
  team : Nat
  coach : Nat
  m : Nat
  n : Nat
  k : Nat
  base : Nat
  mask : BitVec 32
  any : Bool
  group : Option Nat
  nrow : Nat
  crow : Nat
  ccol : Nat
  prio : Nat
  mmas : List MmaRec
  num : Nat
  mche : Nat
  order : Nat
  lead : Nat
  begun : Bool
  st : ChainSt
  applied : List Nat
  op : Nat
  status : BitVec 4
  xpc : Word64
  insn : Word32
  deriving DecidableEq, Repr

/-- A timeline (R107, R122): `unit` is a core, or 128 + a die; `num` as R123 numbers it; the last number given and the last raise;
`dests` are the destination bytes of its operations as (operation, physical base, length). -/
structure Timeline where
  isl : Nat
  ctx : Nat
  unit : Nat
  num : Nat
  given : Nat
  raised : Nat
  dests : List (Nat × Nat × Nat)
  deriving DecidableEq, Repr

/-- An arrival counter (R125-R129): `core` 128 for a global counter of the island. `regs` lists physical (start, length) pieces. -/
structure Counter where
  isl : Nat
  core : Nat
  idx : Nat
  ctx : Nat
  owner : Option Nat
  launch : Nat
  armed : Bool
  fired : Bool
  counting : Bool
  count : Nat
  overrun : Nat
  total : Nat
  store : Nat
  regs : List (Nat × Nat)
  action : Nat
  scope : Nat
  arg : Word64
  val : Word64
  deriving DecidableEq, Repr

/-- A CARTER message that waits for room in an inbox (R130). -/
structure WaitMsg where
  isl : Nat
  core : Nat
  msg : Msg
  deriving DecidableEq, Repr

/-- A request in a Hearth's queue (R401): kind 0 chain, 1 waybill, 2 Bellows, 3 explicit; `who` is the chain, waybill, firing or agent. -/
structure HeatReq where
  kind : Nat
  who : Nat
  units : Nat
  prio : Nat
  deriving DecidableEq, Repr

/-- A context on one island (R384), with its slot, whether it is suspended (R389), and whether a fatal error has ended it (R188). `report` are
the teams that run their handlers in report-only mode, each with the cycle at which it entered and the cause. -/
structure CtxIsl where
  isl : Nat
  ctx : Nat
  fn : Nat
  slot : Nat
  root : Nat
  tba : Word64
  ctba : Word64
  centry : Word64
  frbase : Word64
  frlog2 : Nat
  tlbase : Word64
  qbase : Word64
  qsize : Nat
  ttbase : Word64
  splbase : Word64
  splsz : Nat
  savbase : Word64
  savsz : Nat
  prot : Bool
  islmask : Word64
  suspended : Bool
  dead : Bool
  report : List (Nat × Nat × BitVec 16)
  deriving DecidableEq, Repr

/-- A binding-table entry (R99). -/
structure Binding where
  isl : Nat
  ctx : Nat
  idx : Nat
  base : Nat
  len : Nat
  obj : Nat
  deriving DecidableEq, Repr

/-- A group-table entry on one island with its barrier (R30, R267): members as (record index, first team, count); `arrived` are the streams
that have arrived, `settled` the member teams, as (task, team), whose arrival stands although their stream has ended (R271); `regs` are the counted bytes of the counters that have arrived at scope .i, which each
member that leaves acquires (R108). -/
structure Group where
  isl : Nat
  ctx : Nat
  entry : Nat
  launch : Nat
  members : List (Nat × Nat × Nat)
  ext : Nat
  phase : BitVec 32
  arrived : List Nat
  settled : List (Nat × Nat)
  extCount : Nat
  regs : List (Nat × Nat)
  deriving DecidableEq, Repr

/-- A multicast-table entry (R84). -/
structure Mcast where
  isl : Nat
  ctx : Nat
  entry : Nat
  launch : Nat
  valid : Bool
  group : Nat
  cores : BitVec 128
  deriving DecidableEq, Repr

/-- A live firing of a tile-table entry (R173-R176). `st`: 1 waiting for heat, 2 for tiles, 3 combining. -/
structure Firing where
  uid : Nat
  isl : Nat
  ctx : Nat
  entry : Nat
  die : Nat
  tlx : Nat
  opn : Nat
  pk : Bool
  keyBits : Word64
  tag : Nat
  oper : Nat
  size : Nat
  src : Word64
  dst : Word64
  root : Nat
  peers : List Nat
  st : Nat
  sent : Bool
  deriving DecidableEq, Repr

/-- A tile in a Bellows' staging SRAM or, as `spill`, from byte `spot` on in the spill region (R175, R177), with its key and the sender's OP and
SIZE. `seq` is the sender's firing, `total` how many bytes it has, 0 from a peer that contributes none, `got` how many have arrived, and `fault`
the cause of a failure of its spill page. -/
structure Tile where
  isl : Nat
  ctx : Nat
  die : Nat
  pk : Bool
  keyBits : Word64
  tag : Nat
  sender : Nat
  seq : Nat
  oper : Nat
  size : Nat
  total : Nat
  got : Nat
  spill : Bool
  spot : Nat
  fault : Option (BitVec 16)
  bytes : List Byte
  deriving DecidableEq, Repr

/-- A task: queued, partly placed or placed (R57-R61, R23). `released`: its release on completion is done; `done`: its join as well (R24). `spot` is
the place of its record in the queue's part of the region, while it is not among those that the island caches (R58). -/
structure Task where
  uid : Nat
  isl : Nat
  ctx : Nat
  launch : Nat
  recIdx : Option Nat
  record : TaskRec
  stamp : Nat
  spot : Option Nat
  placed : Nat
  skips : Nat
  exited : List Nat
  released : Bool
  done : Bool
  deriving DecidableEq, Repr

/-- A placed coach and its allocations in KiB: (first, size) of SP, AB, WB and CB (R59, R77). `slots` are the first team slots of its teams
(R52), `exits` the streams that ended with plain EXIT, `succ` those that ended with EXIT.S: TEAM, the address and the record (R27). `former`
are the handles of the coaches whose stores it keeps (R28), and `rotOut` and `rotIn` say that a rotation saves or restores it (R75). `residentAt` is
when it became resident or, while it is swapped out, when it left. -/
structure Coach where
  uid : Nat
  task : Nat
  isl : Nat
  ctx : Nat
  core : Nat
  idx : Nat
  hitch : Nat
  slots : List Nat
  sp : Nat × Nat
  ab : Nat × Nat
  wb : Nat × Nat
  cb : Nat × Nat
  swapped : Bool
  placedAt : Nat
  residentAt : Nat
  exits : Nat
  succ : List (Nat × Word64 × TaskRec)
  prio : Nat
  former : List Nat
  rotOut : Bool
  rotIn : Bool
  deriving DecidableEq, Repr

/-- A push of a task record that its island has not yet accepted (R57, R58): source 0 host, 1 pending-launch entry, 2 counter,
3 successor; `sub` is the core of an entry, or the counter word and core of a counter. -/
structure Push where
  uid : Nat
  isl : Nat
  ctx : Nat
  addr : Word64
  source : Nat
  sub : Nat
  launch : Nat
  recIdx : Option Nat
  team : Option LaunchEnt
  paused : Bool
  deriving DecidableEq, Repr

/-- A wait-for condition of a launch (R372). -/
structure WaitSlot where
  isl : Nat
  va : Word64
  val : Word64
  held : Bool
  deriving DecidableEq, Repr

/-- A launch (R370-R375). `st`: 0 waiting, 1 dispatched, 2 ended, 3 dispatched and discarded in part (R416). Groups as (record, entry, first, count, E); multicast entries
as (island, entry, group, cores). -/
structure Launch where
  uid : Nat
  fn : Nat
  lid : Nat
  ctx : Nat
  queue : Nat
  tag : BitVec 32
  slot : Nat
  irq : Bool
  st : Nat
  recs : List (Nat × Word64)
  waits : List WaitSlot
  groups : List (Nat × Nat × Nat × Nat × Nat)
  mcts : List (Nat × Nat × Nat × BitVec 128)
  status : Nat
  value : Word64
  deriving DecidableEq, Repr

/-- A remote operation in flight, as the frame that carries it and then its reply (R166-R172): kind 0 read, 1 write, 2 atomic or reduction, 3
notify, 4 part of a tile. `phase`: 0 sent, 1 performed, 2 a tile that waits for its spill page; `seq` is the place of its instruction in program
order, `sentOn` the plane on which it left, `relay` says that a relay holds it, `admitted` that its tag has checked and the ingress has let it
in (R404), `home` is the panel that it comes from, `parts` are the elements of a waybill that it carries, with their addresses, and `landed` the bytes
that its waybill had landed when that left (R171). A tile carries its sender's tile-table address in `parts` (R184), its key's islands in `va`, its tag in `cmp`, its operator in `aop`, its SIZE in `dst`, its kind of key in `ord`, its bytes in all in
`size`, and the place of the frame's bytes among them in `elem`. -/
structure Frame where
  uid : Nat
  seq : Nat
  isl : Nat
  core : Nat
  ctx : Nat
  agent : Nat
  op : Nat
  lane : Nat
  dst : Nat
  panel : Nat
  tgt : Nat
  va : Word64
  kind : Nat
  size : Nat
  aop : Nat
  redop : Nat
  data : List Byte
  cmp : Word64
  ord : Bool
  rel : Bool
  acq : Bool
  wb : Option Nat
  elem : Nat
  parts : List (Nat × Word64)
  die : Nat
  phase : Nat
  sentOn : Option Nat
  relay : Bool
  admitted : Bool
  home : Nat
  retried : Nat
  sentAt : Nat
  launch : Nat
  xpc : Word64
  insn : Word32
  landed : Nat := 0
  deriving DecidableEq, Repr

/-- A pending lane of a local atomic (R82, R277). `regs` are the virtual regions bound to the words of the whole instruction's lanes when it issued,
which its acquire half drops (R99, R280). -/
structure AtomReq where
  op : Nat
  lane : Nat
  agent : Nat
  isl : Nat
  core : Nat
  ctx : Nat
  key : Nat
  va : Word64
  wide : Bool
  aop : Nat
  val : Word64
  cmp : Word64
  dst : Nat
  acq : Bool
  scope : Nat
  regs : List (Nat × Nat)
  deriving DecidableEq, Repr

/-- A load or store that has issued and is performed only when it completes (R275, R425): its agent, the place of its accesses, the store's space
code, its element code and first register, as `scalar` a scalar one, and for each element its physical lane, its virtual address, its place, its
cache policy, and its bytes to store. A load has an element of as many zeros. -/
structure LateAcc where
  op : Nat
  agent : Nat
  isl : Nat
  core : Nat
  ctx : Nat
  space : Nat
  load : Bool
  scalar : Bool
  elem : BitVec 3
  dst : Nat
  elems : List (Nat × Nat × Nat × Nat × List Byte)
  deriving DecidableEq, Repr

/-- Bytes that an agent has read ahead of its next load of just those bytes (R98, R425): a store's space code, 0 for global memory, and the place. -/
structure Early where
  agent : Nat
  isl : Nat
  core : Nat
  space : Nat
  at_ : Nat
  bytes : List Byte
  deriving DecidableEq, Repr

/-- What orders accesses beyond the order of the steps (R98, R102, R292, R425). `lag` says that an access of the present step is performed late, `late` and
`ahead` hold what is under way so, `released` and `acquired` the cores of a context, as (island, context, core), that have released and acquired at .i, and `joined` the
words that completions of tasks have decremented, as (island, context, byte). -/
structure Order where
  lag : Bool
  late : List LateAcc
  ahead : List Early
  released : List (Nat × Nat × Nat)
  acquired : List (Nat × Nat × Nat)
  joined : List (Nat × Nat × Nat)
  deriving DecidableEq, Repr

/-- An invalidation under way (R93): the acknowledgements still missing, 11 agents an island. -/
structure Inval where
  uid : Nat
  isl : Nat
  ctx : Option Nat
  base : Nat
  len : Nat
  left : List Nat
  deriving DecidableEq, Repr

/-- CORECTX of a core (R405), and the allocations that await scrub with it, as (space, first KiB, KiB) (R409, R410). -/
structure CoreCtx where
  isl : Nat
  core : Nat
  v : Bool
  q : Bool
  err : Bool
  fn : Nat
  ctx : Nat
  areas : List (Nat × Nat × Nat)
  deriving DecidableEq, Repr

/-- A 2 MiB frame of HBM (R407): owner 0 is unowned; `lost` marks a frame whose key is zeroised (R408). -/
structure FrameInfo where
  isl : Nat
  idx : Nat
  owner : Nat
  q : Bool
  lost : Bool
  deriving DecidableEq, Repr

/-- A key slot (R408). -/
structure KeySlot where
  isl : Nat
  slot : Nat
  v : Bool
  ctx : Nat
  deriving DecidableEq, Repr

/-- An island's registers and its Hearth, scrub and health state (R399-R403, R409-R412, R416, R418). `scrubSet` lists a core with its
allocations, or 128 + a frame's number; `heldCores` the cores with their allocations that a discarded context held, as (context, core,
allocations); `discard` is the context of a DISCARD that is not yet performed; `ceTimes` the corrected errors of the last second, as (unit,
cycle); `winDone` how many windows of each plane have been judged (R422); `scrubNext` says that the firmware starts a scrub once the running one has
ended (R410). -/
structure Island where
  isl : Nat
  budget : Nat
  held : Nat
  reqs : List HeatReq
  l2way : List (Nat × BitVec 16)
  fwmask : Word64
  cutfrac : BitVec 8
  ecap : Sparse 64
  ctxId : Sparse 64
  fastat : Nat
  scrubRun : Bool
  scrubTotal : Nat
  scrubDone : Nat
  scrubSet : List (Nat × List (Nat × Nat × Nat))
  scrubAt : Nat
  resetting : Bool
  resetAt : Nat
  heldCores : List (Nat × Nat × List (Nat × Nat × Nat))
  discard : Option Nat
  enqueue : Nat
  cecnt : Sparse 64
  cecore : Sparse 64
  ceTimes : List (Nat × Nat)
  uecnt : Word64
  temp : BitVec 32
  linkSent : Sparse 64
  linkRetry : Sparse 64
  winSent : Sparse 64
  winRetry : Sparse 64
  winDone : Sparse 64
  scrubNext : Bool
  margin : List (Nat × BitVec 8)
  blt : List (Nat × Nat)
  marks : List Nat
  deriving DecidableEq, Repr

/-- What an island has charged (R402, R403, R424): pJ by function and by context slot, the fractions carried (a function's under its number, a
slot's under 32 + its number), what each function has charged in the present window, and the functions that are cut. `moves` counts the transfers
charged, the model's own number of each (log 16). -/
structure Meter where
  isl : Nat
  energy : Sparse 64
  fraction : Sparse 64
  ctxen : Sparse 64
  winEnergy : Sparse 64
  cut : List Nat
  moves : Nat
  deriving DecidableEq, Repr

/-- A host command queue (R365). `hold` is the launch that holds the queue (R368); `inHand` says that a command other than a launch has been taken
and waits, `stopping` that EN has been cleared while a command is in hand, and `ctl` is the control word written then, whose fields take effect when
that command has passed. -/
structure HostQueue where
  fn : Nat
  q : Nat
  en : Bool
  log2n : Nat
  prio : Nat
  vec : Nat
  ctx : Nat
  qbase : Word64
  cbase : Word64
  head : Nat
  tail : Nat
  qerr : Nat
  hold : Option Nat
  inHand : Bool
  stopping : Bool
  ctl : Option Word64 := none
  deriving DecidableEq, Repr

/-- A function's registers in BAR0 (R363, R414). `msix` lists the vectors of the messages sent (R378). `table` holds the words of the MSI-X
table, `unmasked` its vectors that are not masked, and `pending` the pending bits (R362). -/
structure FnRegs where
  fn : Nat
  hcpsel : Word64
  accepted : Bool
  mbreq : Word64
  busy : Bool
  done : Bool
  evbase : Word64
  evcount : Word64
  mbvec : BitVec 5
  msix : List Nat
  table : Sparse 64
  unmasked : BitVec 32
  pending : BitVec 32
  deriving DecidableEq, Repr

/-- A hub core's control words (R381). -/
structure HubCtl where
  hub : Nat
  cause : BitVec 16
  fault : Bool
  halted : Bool
  xpc : Word64
  xaddr : Word64
  deriving DecidableEq, Repr

/-- A topology entry (R392). -/
structure Topo where
  site : Nat
  state : Nat
  visl : Nat
  phase : Nat
  deriving DecidableEq, Repr

/-- An entry of an image's reply table: the operation, the team block that counts it, its kind and its first destination register (R390). -/
structure Reply where
  op : Nat
  block : Nat
  kind : Nat
  dst : Nat
  deriving DecidableEq, Repr

/-- A save image (R389-R391): kind 1 coach or 2 core, with the stores, their marked bytes, the counters, the yard entries, the streams and the
reply table it holds. A core's image with `coach` 0 stands for the whole core, and those of kind 2 with a coach hold that coach's part of it.
`spot` and `kib` say where in the save area its bytes are. `rows` and `parts` are its layout, as it was saved: its teams with the bytes of their vector
registers, and its coaches with the KiB of their SP, AB, WB and CB. Bytes that the spec does not lay out are free values from `seed` on. The saved
agents stay among the agents of State, swapped out, so that a reply that arrives later finds their registers (R390). -/
structure Image where
  isl : Nat
  core : Nat
  ctx : Nat
  kind : Nat
  coach : Nat
  spot : Nat
  kib : Nat
  seed : Nat
  time : Nat
  replies : List Reply
  stores : List (Nat × Byte)
  marks : List Nat
  counters : List Counter
  chains : List Chain
  streams : List Stream
  rows : List (Nat × Nat) := []
  parts : List (Nat × Nat × Nat × Nat × Nat) := []
  deriving DecidableEq, Repr

/-- A mailbox request as submitted (R382, R414): its function, its buffer, and the dwords of the header and the payload. -/
structure MbReq where
  fn : Nat
  buf : Word64
  words : List Word64
  deriving DecidableEq, Repr

/-- The hub side of the panel (R364, R379, R381, R382, R392, R415). `flashGood` says whether the flash image verifies, `flash` is that image, `loading` the one being verified, `active` the one that
the hub runs, and `spdm` the measurement blocks answered. `mbox` lists the
mailbox requests that have been received and not answered, the first in hand, and `mbInvs` are the invalidations that the one in hand has
begun. `recovery`: the ROM loader waits; `served`: the queue last served in each priority class; `fencing`: the islands that the
firmware is fencing, with the reason; `engines`: the Anvils with faulty rows, as (island, core, MAXM ÷ 8) (R159); `hostBad`: ranges of host addresses that answer an access to a ring with an error (R365), which the
host decides (log 39). -/
structure Panel where
  power : Bool
  topo : List Topo
  gen : BitVec 32
  edges : List Nat
  fwaddr : Word64
  fwlen : Word64
  fwstat : Nat
  staged : Bool
  flashGood : Bool
  flash : List Byte
  loading : List Byte
  active : List Byte
  hubs : List HubCtl
  spdm : List (Nat × List Byte)
  mbox : List MbReq
  mbStage : Nat
  mbInvs : List Nat
  recovery : Bool
  served : List (Nat × Nat)
  fencing : List (Nat × Nat)
  engines : List (Nat × Nat × Nat)
  hostBad : List (Nat × Nat)
  deriving DecidableEq, Repr

/-- Which agent or step moves next: an entry of the model's own agenda. -/
inductive Turn where
  /-- The agent with this handle executes one instruction. -/
  | run (uid : Nat)
  /-- The agent executes one instruction, and a load or a store that it issues is performed only when it completes (R425). -/
  | lag (uid : Nat)
  /-- The agent reads an aligned element of n bytes ahead, at a place of a space, for its next load of just that element (R98, R425). -/
  | ahead (uid space a n : Nat)
  /-- The front end of the agent with this handle takes one instruction, into the vector queue where it is a vector instruction (R35). -/
  | push (uid : Nat)
  /-- The n-th step that the panel owes comes about. -/
  | due (n : Nat)
  /-- A step that comes from outside, or whose time has come. -/
  | event (e : Event)
  /-- A core's L1 writes back and drops a line, which it may do at any time (R98). -/
  | evict (isl core line : Nat)
  /-- Time passes, in cycles of the core clock (R6, R16). -/
  | tick (cycles : Nat)
  deriving DecidableEq, Repr

/-- The whole panel. -/
structure State where
  cur : Thread
  others : List Thread
  agenda : List Turn
  due : List Event
  ev : Event
  fresh : Nat
  cycle : Nat
  mem : Memory
  stores : Memory
  hubMem : Memory
  hostMem : Memory
  l1 : List L1Line
  victims : List Victim
  tlb : List TlbEntry
  carters : List CarterSt
  launchQ : List LaunchEnt
  waybills : List Waybill
  streams : List Stream
  yard : List Chain
  timelines : List Timeline
  counters : List Counter
  waitMsgs : List WaitMsg
  ctxs : List CtxIsl
  bindings : List Binding
  groups : List Group
  mcasts : List Mcast
  firings : List Firing
  tiles : List Tile
  tasks : List Task
  coaches : List Coach
  pushes : List Push
  launches : List Launch
  frames : List Frame
  atoms : List AtomReq
  ord : Order
  invals : List Inval
  images : List Image
  cores : List CoreCtx
  frameInfo : List FrameInfo
  keys : List KeySlot
  islands : List Island
  meters : List Meter
  queues : List HostQueue
  fns : List FnRegs
  panel : Panel
  deriving DecidableEq, Repr

/-- Why the machine stops. -/
inductive Fault where
  /-- Raised by `step` alone: the panel has lost its supply (R415) and the agenda brings no POWER_ON. No step can come about. Safe. -/
  | unpowered
  deriving DecidableEq, Repr

/-- Why an instruction has no meaning. -/
inductive Refusal where
  /-- Raised only by an arm of `exec` that has no meaning yet. Safe. -/
  | notModelled (mnemonic : String)
  deriving DecidableEq, Repr

/-- The outcome of an instruction or a step. -/
abbrev Result := Host.Outcome State Fault Refusal

/-- Nothing under way beyond the order of the steps. -/
def Order.none : Order := { lag := false, late := [], ahead := [], released := [], acquired := [], joined := [] }

/-- A scalar side with every register 0 and the pc given (R22, R352). -/
def Scalar.zero (pc : Word64) : Scalar :=
  { s := [], c := 0, pc := pc, pc1 := none, loops := [], rmode := 0, fpte := 0, hints := Hints.none, insn := 0 }

/-- Lanes with every register, predicate, flag and depth counter 0 (R22). -/
def Lanes.zero : Lanes := { v := [], p := [], flags := [], dc := [] }

/-- An empty vector queue, with no IF open. -/
def Slots.none : Slots := { first := [], second := [], ifs := [], two := Option.none }

/-- Trap registers 0, and no handler running (DESIGN CHOICE, log 2). -/
def Trap.zero : Trap :=
  { xpc := 0, xcause := 0, xaddr := 0, xlanes := 0, xinsn := 0, xrec := 0, handler := false, report := false, reportSince := 0,
    cause := 0, savedDc := [], savedPc := 0, savedPc1 := none, resume := none, xpcWritten := false, savedHints := Hints.none
    savedSl := Slots.none }

/-- Nothing outstanding (R22). -/
def Flow.zero : Flow :=
  { ld := 0, st := 0, cp := 0, tl := 0, rm := 0, ops := [], pendV := [], pendS := [], fenced := [], rfence := 0 }

/-- No chain, no status, no deferred cause, no heat (R298, R313). -/
def Anv.zero : Anv := { chain := none, mstat := 0, deferred := [], lost := 0, heat := 0, heatWait := none, heatOwed := 0 }

/-- Scheduling state with no lease, in the given life. -/
def Sched.zero (l : Life) : Sched :=
  { life := l, park := .none, woken := false, lease := 0, effLease := 0, measured := false, winCount := 0, winLines := [], winMisses := 0,
    winLost := 0, lastLines := 0, lastLost := 0, placedAt := 0, activatedAt := 0, parkedAt := 0, inactiveAt := 0, exitRec := none, solo := [],
    wakeRegs := [], wakeSync := false }

/-- Hub core h at the firmware entry (R380): width 4, 128 vector registers (log 13), in context 0. -/
def Thread.hubReset (h : Nat) : Thread :=
  { id := { uid := h, kind := .hub, isl := 0, core := h, slot := 0, ctx := 0, launch := 0, task := 0, coach := 0, taskId := 0,
            team := 0, launchPos := 0, launchWidth := 4, width := 4, coachSz := 1, hitch := 0, vregs := 128, prio := 0,
            covers := [], groups := [none, none, none, none] }
    sc := Scalar.zero Config.firmwareEntry, ln := Lanes.zero, tr := Trap.zero, fl := Flow.zero, an := Anv.zero
    sch := Sched.zero .active, sl := Slots.none }

/-- A hub core's control words after a hub reset (R381). -/
def HubCtl.reset (h : Nat) : HubCtl := { hub := h, cause := 0, fault := false, halted := false, xpc := 0, xaddr := 0 }

/-- An island's registers at their reset values (R399, R400, R411, R418). -/
def Island.reset (i : Nat) : Island :=
  { isl := i, budget := 128, held := 0, reqs := [], l2way := [], fwmask := 0, cutfrac := 255, ecap := [], ctxId := [], fastat := 0, scrubRun := false, scrubTotal := 0,
    scrubDone := 0, scrubSet := [], scrubAt := 0, resetting := false, resetAt := 0, heldCores := [], discard := none, enqueue := 0, cecnt := [],
    cecore := [], ceTimes := [], uecnt := 0, temp := 0, linkSent := [], linkRetry := [], winSent := [], winRetry := [], winDone := [], scrubNext := false, margin := [], blt := [],
    marks := [] }

/-- Nothing charged (R399). -/
def Meter.reset (i : Nat) : Meter := { isl := i, energy := [], fraction := [], ctxen := [], winEnergy := [], cut := [], moves := 0 }

/-- The topology entries at bring-up (R393): every populated site in service, numbered in ascending SITE order, and the hub. -/
def Topo.bringUp : List Topo :=
  (List.range 48).map (fun i =>
    { site := i, state := if i < Config.nisl then 1 else 0, visl := if i < Config.nisl then i else 255, phase := i })
    ++ [{ site := 48, state := 1, visl := 255, phase := 48 }]

/-- The hub side right after power-on. -/
def Panel.reset : Panel :=
  { power := true, topo := Topo.bringUp, gen := 0, edges := [], fwaddr := 0, fwlen := 0, fwstat := 0, staged := false,
    flashGood := true, flash := [], loading := [], active := [], hubs := [HubCtl.reset 0, HubCtl.reset 1, HubCtl.reset 2, HubCtl.reset 3], spdm := [],
    mbox := [], mbStage := 0, mbInvs := [], recovery := false, served := [], fencing := [], engines := [], hostBad := [] }

/-- The panel right after power-on: the four hub cores at the firmware entry, no context, every memory unwritten. -/
def State.reset : State :=
  { cur := Thread.hubReset 0, others := [Thread.hubReset 1, Thread.hubReset 2, Thread.hubReset 3], agenda := [], due := [],
    ev := .powerOn,
    fresh := 16, cycle := 0, mem := [], stores := [], hubMem := [], hostMem := [], l1 := [], victims := [], tlb := [],
    carters := [], launchQ := [], waybills := [], streams := [], yard := [], timelines := [], counters := [], waitMsgs := [],
    ctxs := [], bindings := [], groups := [], mcasts := [], firings := [], tiles := [], tasks := [], coaches := [], pushes := [],
    launches := [], frames := [], atoms := [], ord := Order.none, invals := [], images := [], cores := [], frameInfo := [], keys := [],
    islands := [], meters := [], queues := [], fns := [], panel := Panel.reset }

end Sys2Proof.Machine
end

