-- ==== Sys2Proof/Machine/Operands.lean ====
section
/-!
DEFINITION. The operand forms of the instructions: the registers that each names (R209, R212), and the agents that execute it (R218, R380).
-/
namespace Sys2Proof

/-- The n registers from r upward. -/
def regSpan (r n : Nat) : List Nat := (List.range n).map (fun i => r + i)

/-- How many registers an element of format VM takes (R212). -/
def elemRegs (z : BitVec 3) : Nat := if z = 3 then 2 else if z = 4 then 4 else 1

/-- The vector registers that an instruction names, with every register of a pair, quad or scale set (R209, R157, R212). -/
def Instr.vregs : Instr → List Nat
  | .vadd d a b _ => [d.toNat, a.toNat, b.toNat]
  | .vsub d a b _ => [d.toNat, a.toNat, b.toNat]
  | .vadds d a b _ => [d.toNat, a.toNat, b.toNat]
  | .vsubs d a b _ => [d.toNat, a.toNat, b.toNat]
  | .vmul d a b _ => [d.toNat, a.toNat, b.toNat]
  | .vmulh d a b _ => [d.toNat, a.toNat, b.toNat]
  | .vmulhu d a b _ => [d.toNat, a.toNat, b.toNat]
  | .vmad d a b _ => [d.toNat, a.toNat, b.toNat]
  | .vand d a b _ => [d.toNat, a.toNat, b.toNat]
  | .vor d a b _ => [d.toNat, a.toNat, b.toNat]
  | .vxor d a b _ => [d.toNat, a.toNat, b.toNat]
  | .vandn d a b _ => [d.toNat, a.toNat, b.toNat]
  | .vshl d a b _ => [d.toNat, a.toNat, b.toNat]
  | .vshr d a b _ => [d.toNat, a.toNat, b.toNat]
  | .vsra d a b _ => [d.toNat, a.toNat, b.toNat]
  | .vrot d a b _ => [d.toNat, a.toNat, b.toNat]
  | .vmin d a b _ => [d.toNat, a.toNat, b.toNat]
  | .vmax d a b _ => [d.toNat, a.toNat, b.toNat]
  | .vminu d a b _ => [d.toNat, a.toNat, b.toNat]
  | .vmaxu d a b _ => [d.toNat, a.toNat, b.toNat]
  | .vaddus d a b _ => [d.toNat, a.toNat, b.toNat]
  | .vsubus d a b _ => [d.toNat, a.toNat, b.toNat]
  | .vabsd d a b _ => [d.toNat, a.toNat, b.toNat]
  | .vavg d a b _ => [d.toNat, a.toNat, b.toNat]
  | .vceq _ a b _ => [a.toNat, b.toNat]
  | .vcne _ a b _ => [a.toNat, b.toNat]
  | .vclt _ a b _ => [a.toNat, b.toNat]
  | .vcle _ a b _ => [a.toNat, b.toNat]
  | .vcltu _ a b _ => [a.toNat, b.toNat]
  | .vcleu _ a b _ => [a.toNat, b.toNat]
  | .vctst _ a b _ => [a.toNat, b.toNat]
  | .vaddh2 d a b _ => [d.toNat, a.toNat, b.toNat]
  | .vaddb4 d a b _ => [d.toNat, a.toNat, b.toNat]
  | .vmulh2 d a b _ => [d.toNat, a.toNat, b.toNat]
  | .vdot4 d a b _ => [d.toNat, a.toNat, b.toNat]
  | .vsel d a b _ => [d.toNat, a.toNat, b.toNat]
  | .vclz d a _ => [d.toNat, a.toNat]
  | .vpopc d a _ => [d.toNat, a.toNat]
  | .vbrev d a _ => [d.toNat, a.toNat]
  | .vaddi d a _ _ => [d.toNat, a.toNat]
  | .vshli d a _ _ => [d.toNat, a.toNat]
  | .vshri d a _ _ => [d.toNat, a.toNat]
  | .vsrai d a _ _ => [d.toNat, a.toNat]
  | .vmovi d _ _ => [d.toNat]
  | .vmovhi d _ _ => [d.toNat]
  | .vcmpi _ _ a _ _ => [a.toNat]
  | .fadd d a b _ => [d.toNat, a.toNat, b.toNat]
  | .fsub d a b _ => [d.toNat, a.toNat, b.toNat]
  | .fmul d a b _ => [d.toNat, a.toNat, b.toNat]
  | .fmac d a b _ => [d.toNat, a.toNat, b.toNat]
  | .fmin d a b _ => [d.toNat, a.toNat, b.toNat]
  | .fmax d a b _ => [d.toNat, a.toNat, b.toNat]
  | .fminm d a b _ => [d.toNat, a.toNat, b.toNat]
  | .fmaxm d a b _ => [d.toNat, a.toNat, b.toNat]
  | .fceq _ a b _ => [a.toNat, b.toNat]
  | .fclt _ a b _ => [a.toNat, b.toNat]
  | .fcle _ a b _ => [a.toNat, b.toNat]
  | .fcun _ a b _ => [a.toNat, b.toNat]
  | .fdiv d a b _ => [d.toNat, a.toNat, b.toNat]
  | .fsqrt d a _ => [d.toNat, a.toNat]
  | .frsq d a _ => [d.toNat, a.toNat]
  | .frcp d a _ => [d.toNat, a.toNat]
  | .fexp2 d a _ => [d.toNat, a.toNat]
  | .flog2 d a _ => [d.toNat, a.toNat]
  | .fsinpi d a _ => [d.toNat, a.toNat]
  | .fcospi d a _ => [d.toNat, a.toNat]
  | .fma d a b c _ => [d.toNat, a.toNat, b.toNat, c.toNat]
  | .fms d a b c _ => [d.toNat, a.toNat, b.toNat, c.toNat]
  | .fnma d a b c _ => [d.toNat, a.toNat, b.toNat, c.toNat]
  | .fnms d a b c _ => [d.toNat, a.toNat, b.toNat, c.toNat]
  | .hadd2 d a b _ => [d.toNat, a.toNat, b.toNat]
  | .hmul2 d a b _ => [d.toNat, a.toNat, b.toNat]
  | .hfmac2 d a b _ => [d.toNat, a.toNat, b.toNat]
  | .hmax2 d a b _ => [d.toNat, a.toNat, b.toNat]
  | .badd2 d a b _ => [d.toNat, a.toNat, b.toNat]
  | .bmul2 d a b _ => [d.toNat, a.toNat, b.toNat]
  | .bfmac2 d a b _ => [d.toNat, a.toNat, b.toNat]
  | .bmax2 d a b _ => [d.toNat, a.toNat, b.toNat]
  | .cvt d a _ _ _ => [d.toNat, a.toNat]
  | .fclass d a _ => [d.toNat, a.toNat]
  | .frint d a _ => [d.toNat, a.toNat]
  | .fscalb d a b _ => [d.toNat, a.toNat, b.toNat]
  | .fgetexp d a _ => [d.toNat, a.toNat]
  | .flrd d => [d.toNat]
  | .mfacc d _ _ _ _ => [d.toNat]
  | .mtacc d _ _ _ => [d.toNat]
  | .mfaccz d _ _ _ _ => [d.toNat]
  | .shfli d a b _ => [d.toNat, a.toNat, b.toNat]
  | .shflu d a b _ => [d.toNat, a.toNat, b.toNat]
  | .shfld d a b _ => [d.toNat, a.toNat, b.toNat]
  | .shflx d a b _ => [d.toNat, a.toNat, b.toNat]
  | .vred d a t _ _ => if t.toNat = 0 then [d.toNat, a.toNat] else [a.toNat]
  | .vscani d a _ _ => [d.toNat, a.toNat]
  | .vscanx d a _ _ => [d.toNat, a.toNat]
  | .vbcast d a _ => [d.toNat, a.toNat]
  | .vextr _ a _ => [a.toNat]
  | .vinsr d _ _ => [d.toNat]
  | .vcprs d a _ => [d.toNat, a.toNat]
  | .vlane d _ => [d.toNat]
  | .vtid d => [d.toNat]
  | .lds d a _ _ z => a.toNat :: regSpan d.toNat (elemRegs z)
  | .sts d a _ _ z => a.toNat :: regSpan d.toNat (elemRegs z)
  | .lda d a _ _ z => a.toNat :: regSpan d.toNat (elemRegs z)
  | .sta d a _ _ z => a.toNat :: regSpan d.toNat (elemRegs z)
  | .ldg d a _ _ z => a.toNat :: regSpan d.toNat (elemRegs z)
  | .stg d a _ _ z => a.toNat :: regSpan d.toNat (elemRegs z)
  | .atom d a _ o _ => a.toNat :: regSpan d.toNat (if o.toNat = 9 then 2 else 1)
  | .mma _ v _ _ _ s _ => if s.toNat = 1 then regSpan v.toNat 16 else []
  | .rldW d a _ _ _ => 2 * a.toNat :: (2 * a.toNat + 1) :: regSpan d.toNat 1
  | .rldD d a _ _ _ => 2 * a.toNat :: (2 * a.toNat + 1) :: regSpan d.toNat 2
  | .rldQ d a _ _ _ => 2 * a.toNat :: (2 * a.toNat + 1) :: regSpan d.toNat 4
  | .rstW d a _ _ _ => 2 * a.toNat :: (2 * a.toNat + 1) :: regSpan d.toNat 1
  | .rstD d a _ _ _ => 2 * a.toNat :: (2 * a.toNat + 1) :: regSpan d.toNat 2
  | .rstQ d a _ _ _ => 2 * a.toNat :: (2 * a.toNat + 1) :: regSpan d.toNat 4
  | .nop | .trap _ | .brk _ | .tret | .tkill | .tskip | .mfsr _ _ | .mtsr _ _ | .halt | .sadd _ _ _ | .ssub _ _ _ | .smul _ _ _
  | .smulh _ _ _ | .smulhu _ _ _ | .sdiv _ _ _ | .sdivu _ _ _ | .srem _ _ _ | .sremu _ _ _ | .sand _ _ _ | .sor _ _ _
  | .sxor _ _ _ | .sshl _ _ _ | .sshr _ _ _ | .ssra _ _ _ | .smin _ _ _ | .smax _ _ _ | .sminu _ _ _ | .smaxu _ _ _ | .sclz _ _
  | .spopc _ _ | .saddi _ _ _ | .sshli _ _ _ | .sshri _ _ _ | .ssrai _ _ _ | .slui _ _ | .scmp _ _ _ _ | .scmpi _ _ _ _
  | .sldW _ _ _ | .sldD _ _ _ | .sstW _ _ _ | .sstD _ _ _ | .br _ _ _ | .call _ | .jmpr _ | .callr _ | .ret | .cand _ _ _
  | .cor _ _ _ | .cxor _ _ _ | .cnot _ _ | .looph _ _ | .loophi _ _ | .lbrk | .vif _ | .velse | .vendif | .vloop | .vbrk _ _
  | .vcont _ _ | .endvl _ | .exit | .exitS _ | .yield | .yieldc _ _ _ | .split _ | .fuse _ _ _ | .lease _ | .leasem
  | .leaseq _ _ | .gbar _ _ _ | .garrive _ _ _ _ | .gwait _ _ _ _ | .gqry _ _ _ | .pand _ _ _ | .por _ _ _ | .pxor _ _ _
  | .pandn _ _ _ | .pnot _ _ | .pflag _ _ | .flclr _ | .vall _ _ _ _ | .vany _ _ _ _ | .vbal _ _ _ | .vcnt _ _ _ | .fence _ _
  | .acq _ _ _ | .rel _ _ _ | .bind _ _ _ | .unbind _ | .cinv _ _ | .cwbWriteback _ _ | .satom _ _ _ _ _ | .wait _ _ _ _ _
  | .cpost _ | .waitge _ _ _ _ _ | .waitgec _ _ _ _ _ | .launch _ | .launchnb _ _ | .armcnt _ _ _ | .disarm _ _ | .cntrd _ _ _
  | .heat _ _ | .cool _ | .cwbWaybill _ _ | .cwbr _ _ | .cstra _ _ | .cstrb _ _ | .cinbox _ | .cdone | .ctladv _ _
  | .cwaitq _ _ | .mchb _ _ _ _ _ | .mche _ | .mzacc _ _ | .mcap _ | .mstat _ _ | .ratom _ _ _ _ _ | .rnotify _ _ _ _ | .rfence
  | .tready _ _ | .clqry _ _ _ | .topo _ _ | .himm _ | .hmod _ _ _ | .hsched _ _ _ | .hnop _ | .hintKindNoop _ _
  | .accessComplete | .atomicPerform | .writeArrival | .counterCarterMessage | .tlbInvalidationAck | .islandTaskPush
  | .pendingLaunchForward | .coachPlacement | .teamAdmission | .leaseWindowEnd | .teamForced | .teamWake | .fuseTimeout
  | .swapOut | .coachRestore | .quantumBoundary | .successorPush | .taskCompletion | .joinDecrement | .heatGrant
  | .waybillElementLand | .waybillComplete | .streamBlockPush | .chainDispatch | .kblockApply | .frameReceive | .frameRetry
  | .relayForward | .rotorSlot | .remoteReply | .remoteTimeout | .reportOnlyTimeout | .bellowsSend | .collectiveComplete
  | .hcpselWrite | .queueEnable | .queueDisable | .doorbell | .cmdNop | .cmdLaunch | .cmdWrite | .cmdCopy | .cmdMctset
  | .cmdKill | .launchDispatch | .ctxCreate | .ctxDestroy | .ctxSuspend | .ctxResume | .inval | .pfDone | .topoRead
  | .topoFence | .topoRemap | .hearthBudgetWrite | .fwmaskWrite | .corectxWrite | .keyZeroise | .fareqAssign | .fareqQuarantine
  | .scrubStart | .scrubUnit | .islandReset | .islandResetEnd | .discard | .hubWake | .registerWrite | .energyWindow
  | .correctedError | .uncorrectableError | .temperatureCrossing | .linkWindowEnd | .fwLoad | .fwVerifyComplete | .hubReset
  | .spdmRequest | .powerOn | .illegalInsn | .instructionFetchFault | .invalidCommand | .invalidMailboxRequest
  | .edgePortLinkUp | .powerLoss => []

/-- The scalar registers that an instruction names, with every register of a pair or a group (R209, R288). -/
def Instr.sregs : Instr → List Nat
  | .mfsr d _ => [d.toNat]
  | .mtsr a _ => [a.toNat]
  | .sadd d a b => [d.toNat, a.toNat, b.toNat]
  | .ssub d a b => [d.toNat, a.toNat, b.toNat]
  | .smul d a b => [d.toNat, a.toNat, b.toNat]
  | .smulh d a b => [d.toNat, a.toNat, b.toNat]
  | .smulhu d a b => [d.toNat, a.toNat, b.toNat]
  | .sdiv d a b => [d.toNat, a.toNat, b.toNat]
  | .sdivu d a b => [d.toNat, a.toNat, b.toNat]
  | .srem d a b => [d.toNat, a.toNat, b.toNat]
  | .sremu d a b => [d.toNat, a.toNat, b.toNat]
  | .sand d a b => [d.toNat, a.toNat, b.toNat]
  | .sor d a b => [d.toNat, a.toNat, b.toNat]
  | .sxor d a b => [d.toNat, a.toNat, b.toNat]
  | .sshl d a b => [d.toNat, a.toNat, b.toNat]
  | .sshr d a b => [d.toNat, a.toNat, b.toNat]
  | .ssra d a b => [d.toNat, a.toNat, b.toNat]
  | .smin d a b => [d.toNat, a.toNat, b.toNat]
  | .smax d a b => [d.toNat, a.toNat, b.toNat]
  | .sminu d a b => [d.toNat, a.toNat, b.toNat]
  | .smaxu d a b => [d.toNat, a.toNat, b.toNat]
  | .sclz d a => [d.toNat, a.toNat]
  | .spopc d a => [d.toNat, a.toNat]
  | .saddi d a _ => [d.toNat, a.toNat]
  | .sshli d a _ => [d.toNat, a.toNat]
  | .sshri d a _ => [d.toNat, a.toNat]
  | .ssrai d a _ => [d.toNat, a.toNat]
  | .slui d _ => [d.toNat]
  | .scmp _ _ a b => [a.toNat, b.toNat]
  | .scmpi _ _ a _ => [a.toNat]
  | .sldW d a _ => [d.toNat, a.toNat]
  | .sldD d a _ => [d.toNat, a.toNat]
  | .sstW d a _ => [d.toNat, a.toNat]
  | .sstD d a _ => [d.toNat, a.toNat]
  | .call _ => [62]
  | .jmpr a => [a.toNat]
  | .callr a => [a.toNat, 62]
  | .ret  => [62]
  | .looph a _ => [a.toNat]
  | .exitS a => [a.toNat]
  | .yieldc a b _ => [a.toNat, b.toNat]
  | .fuse d _ _ => [d.toNat]
  | .lease a => [a.toNat]
  | .leaseq d _ => [d.toNat]
  | .garrive d _ _ _ => [d.toNat]
  | .gwait a _ _ _ => [a.toNat]
  | .gqry d _ _ => [d.toNat]
  | .mfacc _ _ _ b _ => [b.toNat]
  | .mtacc _ _ b _ => [b.toNat]
  | .mfaccz _ _ _ b _ => [b.toNat]
  | .vbal d _ _ => [d.toNat]
  | .vcnt d _ _ => [d.toNat]
  | .vred d _ t _ _ => if t.toNat = 0 then [] else [d.toNat]
  | .vbcast _ _ b => [b.toNat]
  | .vextr d _ b => [d.toNat, b.toNat]
  | .vinsr _ a b => [a.toNat, b.toNat]
  | .lds _ _ b _ _ => [b.toNat]
  | .sts _ _ b _ _ => [b.toNat]
  | .lda _ _ b _ _ => [b.toNat]
  | .sta _ _ b _ _ => [b.toNat]
  | .ldg _ _ b _ _ => [b.toNat]
  | .stg _ _ b _ _ => [b.toNat]
  | .atom _ _ b _ _ => [b.toNat]
  | .acq d a _ => [d.toNat, a.toNat]
  | .rel b a _ => [b.toNat, a.toNat]
  | .bind d a b => [d.toNat, a.toNat, a.toNat + 1, b.toNat]
  | .unbind a => [a.toNat]
  | .cinv a b => [a.toNat, b.toNat]
  | .cwbWriteback a b => [a.toNat, b.toNat]
  | .satom _ _ d a b => [d.toNat, a.toNat, b.toNat]
  | .cpost a => regSpan a.toNat 8
  | .waitge a b _ _ _ => [a.toNat, b.toNat]
  | .waitgec a b _ _ _ => [a.toNat, b.toNat]
  | .launch a => [a.toNat]
  | .launchnb d a => [d.toNat, a.toNat]
  | .armcnt d a b => [d.toNat, a.toNat, b.toNat]
  | .disarm d b => [d.toNat, b.toNat]
  | .cntrd d _ b => [d.toNat, b.toNat]
  | .heat d a => [d.toNat, a.toNat]
  | .cool a => [a.toNat]
  | .cwbWaybill d a => [d.toNat, a.toNat]
  | .cwbr d a => d.toNat :: regSpan a.toNat 8
  | .cstra d a => [d.toNat, a.toNat]
  | .cstrb d a => [d.toNat, a.toNat]
  | .cinbox d => regSpan d.toNat 8
  | .ctladv d _ => [d.toNat]
  | .cwaitq d _ => [d.toNat]
  | .mchb a b _ _ _ => [a.toNat, b.toNat, b.toNat + 1]
  | .mche d => [d.toNat]
  | .mzacc a b => [a.toNat, b.toNat]
  | .mcap d => [d.toNat]
  | .mstat d _ => [d.toNat]
  | .mma _ _ _ b _ _ _ => [b.toNat]
  | .rldW _ _ _ b _ => [b.toNat]
  | .rldD _ _ _ b _ => [b.toNat]
  | .rldQ _ _ _ b _ => [b.toNat]
  | .rstW _ _ _ b _ => [b.toNat]
  | .rstD _ _ _ b _ => [b.toNat]
  | .rstQ _ _ _ b _ => [b.toNat]
  | .ratom _ _ d a b => [d.toNat, a.toNat, a.toNat + 1, b.toNat]
  | .rnotify a b _ _ => [a.toNat, a.toNat + 1, b.toNat]
  | .tready d a => [d.toNat, a.toNat]
  | .clqry d a _ => [d.toNat, a.toNat]
  | .topo d a => [d.toNat, a.toNat]
  | .nop | .trap _ | .brk _ | .tret | .tkill | .tskip | .halt | .br _ _ _ | .cand _ _ _ | .cor _ _ _ | .cxor _ _ _ | .cnot _ _
  | .loophi _ _ | .lbrk | .vif _ | .velse | .vendif | .vloop | .vbrk _ _ | .vcont _ _ | .endvl _ | .exit | .yield | .split _
  | .leasem | .gbar _ _ _ | .vadd _ _ _ _ | .vsub _ _ _ _ | .vadds _ _ _ _ | .vsubs _ _ _ _ | .vmul _ _ _ _ | .vmulh _ _ _ _
  | .vmulhu _ _ _ _ | .vmad _ _ _ _ | .vand _ _ _ _ | .vor _ _ _ _ | .vxor _ _ _ _ | .vandn _ _ _ _ | .vshl _ _ _ _
  | .vshr _ _ _ _ | .vsra _ _ _ _ | .vrot _ _ _ _ | .vmin _ _ _ _ | .vmax _ _ _ _ | .vminu _ _ _ _ | .vmaxu _ _ _ _
  | .vaddus _ _ _ _ | .vsubus _ _ _ _ | .vabsd _ _ _ _ | .vavg _ _ _ _ | .vceq _ _ _ _ | .vcne _ _ _ _ | .vclt _ _ _ _
  | .vcle _ _ _ _ | .vcltu _ _ _ _ | .vcleu _ _ _ _ | .vctst _ _ _ _ | .vaddh2 _ _ _ _ | .vaddb4 _ _ _ _ | .vmulh2 _ _ _ _
  | .vdot4 _ _ _ _ | .vsel _ _ _ _ | .vclz _ _ _ | .vpopc _ _ _ | .vbrev _ _ _ | .vaddi _ _ _ _ | .vshli _ _ _ _
  | .vshri _ _ _ _ | .vsrai _ _ _ _ | .vmovi _ _ _ | .vmovhi _ _ _ | .vcmpi _ _ _ _ _ | .fadd _ _ _ _ | .fsub _ _ _ _
  | .fmul _ _ _ _ | .fmac _ _ _ _ | .fmin _ _ _ _ | .fmax _ _ _ _ | .fminm _ _ _ _ | .fmaxm _ _ _ _ | .fceq _ _ _ _
  | .fclt _ _ _ _ | .fcle _ _ _ _ | .fcun _ _ _ _ | .fdiv _ _ _ _ | .fsqrt _ _ _ | .frsq _ _ _ | .frcp _ _ _ | .fexp2 _ _ _
  | .flog2 _ _ _ | .fsinpi _ _ _ | .fcospi _ _ _ | .fma _ _ _ _ _ | .fms _ _ _ _ _ | .fnma _ _ _ _ _ | .fnms _ _ _ _ _
  | .hadd2 _ _ _ _ | .hmul2 _ _ _ _ | .hfmac2 _ _ _ _ | .hmax2 _ _ _ _ | .badd2 _ _ _ _ | .bmul2 _ _ _ _ | .bfmac2 _ _ _ _
  | .bmax2 _ _ _ _ | .cvt _ _ _ _ _ | .fclass _ _ _ | .frint _ _ _ | .fscalb _ _ _ _ | .fgetexp _ _ _ | .pand _ _ _
  | .por _ _ _ | .pxor _ _ _ | .pandn _ _ _ | .pnot _ _ | .pflag _ _ | .flclr _ | .flrd _ | .shfli _ _ _ _ | .shflu _ _ _ _
  | .shfld _ _ _ _ | .shflx _ _ _ _ | .vall _ _ _ _ | .vany _ _ _ _ | .vscani _ _ _ _ | .vscanx _ _ _ _ | .vcprs _ _ _
  | .vlane _ _ | .vtid _ | .fence _ _ | .wait _ _ _ _ _ | .cdone | .rfence | .himm _ | .hmod _ _ _ | .hsched _ _ _ | .hnop _
  | .hintKindNoop _ _ | .accessComplete | .atomicPerform | .writeArrival | .counterCarterMessage | .tlbInvalidationAck
  | .islandTaskPush | .pendingLaunchForward | .coachPlacement | .teamAdmission | .leaseWindowEnd | .teamForced | .teamWake
  | .fuseTimeout | .swapOut | .coachRestore | .quantumBoundary | .successorPush | .taskCompletion | .joinDecrement | .heatGrant
  | .waybillElementLand | .waybillComplete | .streamBlockPush | .chainDispatch | .kblockApply | .frameReceive | .frameRetry
  | .relayForward | .rotorSlot | .remoteReply | .remoteTimeout | .reportOnlyTimeout | .bellowsSend | .collectiveComplete
  | .hcpselWrite | .queueEnable | .queueDisable | .doorbell | .cmdNop | .cmdLaunch | .cmdWrite | .cmdCopy | .cmdMctset
  | .cmdKill | .launchDispatch | .ctxCreate | .ctxDestroy | .ctxSuspend | .ctxResume | .inval | .pfDone | .topoRead
  | .topoFence | .topoRemap | .hearthBudgetWrite | .fwmaskWrite | .corectxWrite | .keyZeroise | .fareqAssign | .fareqQuarantine
  | .scrubStart | .scrubUnit | .islandReset | .islandResetEnd | .discard | .hubWake | .registerWrite | .energyWindow
  | .correctedError | .uncorrectableError | .temperatureCrossing | .linkWindowEnd | .fwLoad | .fwVerifyComplete | .hubReset
  | .spdmRequest | .powerOn | .illegalInsn | .instructionFetchFault | .invalidCommand | .invalidMailboxRequest
  | .edgePortLinkUp | .powerLoss => []

/-- A team executes every member except those of major 0x3A (R218). -/
def Instr.teamOk : Instr → Bool
  | .cwbWaybill _ _ => false
  | .cwbr _ _ => false
  | .cstra _ _ => false
  | .cstrb _ _ => false
  | .cinbox _ => false
  | .cdone => false
  | .ctladv _ _ => false
  | .cwaitq _ _ => false
  | .nop | .trap _ | .brk _ | .tret | .tkill | .tskip | .mfsr _ _ | .mtsr _ _ | .halt | .sadd _ _ _ | .ssub _ _ _ | .smul _ _ _
  | .smulh _ _ _ | .smulhu _ _ _ | .sdiv _ _ _ | .sdivu _ _ _ | .srem _ _ _ | .sremu _ _ _ | .sand _ _ _ | .sor _ _ _
  | .sxor _ _ _ | .sshl _ _ _ | .sshr _ _ _ | .ssra _ _ _ | .smin _ _ _ | .smax _ _ _ | .sminu _ _ _ | .smaxu _ _ _ | .sclz _ _
  | .spopc _ _ | .saddi _ _ _ | .sshli _ _ _ | .sshri _ _ _ | .ssrai _ _ _ | .slui _ _ | .scmp _ _ _ _ | .scmpi _ _ _ _
  | .sldW _ _ _ | .sldD _ _ _ | .sstW _ _ _ | .sstD _ _ _ | .br _ _ _ | .call _ | .jmpr _ | .callr _ | .ret | .cand _ _ _
  | .cor _ _ _ | .cxor _ _ _ | .cnot _ _ | .looph _ _ | .loophi _ _ | .lbrk | .vif _ | .velse | .vendif | .vloop | .vbrk _ _
  | .vcont _ _ | .endvl _ | .exit | .exitS _ | .yield | .yieldc _ _ _ | .split _ | .fuse _ _ _ | .lease _ | .leasem
  | .leaseq _ _ | .gbar _ _ _ | .garrive _ _ _ _ | .gwait _ _ _ _ | .gqry _ _ _ | .vadd _ _ _ _ | .vsub _ _ _ _
  | .vadds _ _ _ _ | .vsubs _ _ _ _ | .vmul _ _ _ _ | .vmulh _ _ _ _ | .vmulhu _ _ _ _ | .vmad _ _ _ _ | .vand _ _ _ _
  | .vor _ _ _ _ | .vxor _ _ _ _ | .vandn _ _ _ _ | .vshl _ _ _ _ | .vshr _ _ _ _ | .vsra _ _ _ _ | .vrot _ _ _ _
  | .vmin _ _ _ _ | .vmax _ _ _ _ | .vminu _ _ _ _ | .vmaxu _ _ _ _ | .vaddus _ _ _ _ | .vsubus _ _ _ _ | .vabsd _ _ _ _
  | .vavg _ _ _ _ | .vceq _ _ _ _ | .vcne _ _ _ _ | .vclt _ _ _ _ | .vcle _ _ _ _ | .vcltu _ _ _ _ | .vcleu _ _ _ _
  | .vctst _ _ _ _ | .vaddh2 _ _ _ _ | .vaddb4 _ _ _ _ | .vmulh2 _ _ _ _ | .vdot4 _ _ _ _ | .vsel _ _ _ _ | .vclz _ _ _
  | .vpopc _ _ _ | .vbrev _ _ _ | .vaddi _ _ _ _ | .vshli _ _ _ _ | .vshri _ _ _ _ | .vsrai _ _ _ _ | .vmovi _ _ _
  | .vmovhi _ _ _ | .vcmpi _ _ _ _ _ | .fadd _ _ _ _ | .fsub _ _ _ _ | .fmul _ _ _ _ | .fmac _ _ _ _ | .fmin _ _ _ _
  | .fmax _ _ _ _ | .fminm _ _ _ _ | .fmaxm _ _ _ _ | .fceq _ _ _ _ | .fclt _ _ _ _ | .fcle _ _ _ _ | .fcun _ _ _ _
  | .fdiv _ _ _ _ | .fsqrt _ _ _ | .frsq _ _ _ | .frcp _ _ _ | .fexp2 _ _ _ | .flog2 _ _ _ | .fsinpi _ _ _ | .fcospi _ _ _
  | .fma _ _ _ _ _ | .fms _ _ _ _ _ | .fnma _ _ _ _ _ | .fnms _ _ _ _ _ | .hadd2 _ _ _ _ | .hmul2 _ _ _ _ | .hfmac2 _ _ _ _
  | .hmax2 _ _ _ _ | .badd2 _ _ _ _ | .bmul2 _ _ _ _ | .bfmac2 _ _ _ _ | .bmax2 _ _ _ _ | .cvt _ _ _ _ _ | .fclass _ _ _
  | .frint _ _ _ | .fscalb _ _ _ _ | .fgetexp _ _ _ | .pand _ _ _ | .por _ _ _ | .pxor _ _ _ | .pandn _ _ _ | .pnot _ _
  | .pflag _ _ | .flclr _ | .flrd _ | .mfacc _ _ _ _ _ | .mtacc _ _ _ _ | .mfaccz _ _ _ _ _ | .shfli _ _ _ _ | .shflu _ _ _ _
  | .shfld _ _ _ _ | .shflx _ _ _ _ | .vall _ _ _ _ | .vany _ _ _ _ | .vbal _ _ _ | .vcnt _ _ _ | .vred _ _ _ _ _
  | .vscani _ _ _ _ | .vscanx _ _ _ _ | .vbcast _ _ _ | .vextr _ _ _ | .vinsr _ _ _ | .vcprs _ _ _ | .vlane _ _ | .vtid _
  | .lds _ _ _ _ _ | .sts _ _ _ _ _ | .lda _ _ _ _ _ | .sta _ _ _ _ _ | .ldg _ _ _ _ _ | .stg _ _ _ _ _ | .atom _ _ _ _ _
  | .fence _ _ | .acq _ _ _ | .rel _ _ _ | .bind _ _ _ | .unbind _ | .cinv _ _ | .cwbWriteback _ _ | .satom _ _ _ _ _
  | .wait _ _ _ _ _ | .cpost _ | .waitge _ _ _ _ _ | .waitgec _ _ _ _ _ | .launch _ | .launchnb _ _ | .armcnt _ _ _
  | .disarm _ _ | .cntrd _ _ _ | .heat _ _ | .cool _ | .mchb _ _ _ _ _ | .mche _ | .mzacc _ _ | .mcap _ | .mstat _ _
  | .mma _ _ _ _ _ _ _ | .rldW _ _ _ _ _ | .rldD _ _ _ _ _ | .rldQ _ _ _ _ _ | .rstW _ _ _ _ _ | .rstD _ _ _ _ _
  | .rstQ _ _ _ _ _ | .ratom _ _ _ _ _ | .rnotify _ _ _ _ | .rfence | .tready _ _ | .clqry _ _ _ | .topo _ _ | .himm _
  | .hmod _ _ _ | .hsched _ _ _ | .hnop _ | .hintKindNoop _ _ | .accessComplete | .atomicPerform | .writeArrival
  | .counterCarterMessage | .tlbInvalidationAck | .islandTaskPush | .pendingLaunchForward | .coachPlacement | .teamAdmission
  | .leaseWindowEnd | .teamForced | .teamWake | .fuseTimeout | .swapOut | .coachRestore | .quantumBoundary | .successorPush
  | .taskCompletion | .joinDecrement | .heatGrant | .waybillElementLand | .waybillComplete | .streamBlockPush | .chainDispatch
  | .kblockApply | .frameReceive | .frameRetry | .relayForward | .rotorSlot | .remoteReply | .remoteTimeout
  | .reportOnlyTimeout | .bellowsSend | .collectiveComplete | .hcpselWrite | .queueEnable | .queueDisable | .doorbell | .cmdNop
  | .cmdLaunch | .cmdWrite | .cmdCopy | .cmdMctset | .cmdKill | .launchDispatch | .ctxCreate | .ctxDestroy | .ctxSuspend
  | .ctxResume | .inval | .pfDone | .topoRead | .topoFence | .topoRemap | .hearthBudgetWrite | .fwmaskWrite | .corectxWrite
  | .keyZeroise | .fareqAssign | .fareqQuarantine | .scrubStart | .scrubUnit | .islandReset | .islandResetEnd | .discard
  | .hubWake | .registerWrite | .energyWindow | .correctedError | .uncorrectableError | .temperatureCrossing | .linkWindowEnd
  | .fwLoad | .fwVerifyComplete | .hubReset | .spdmRequest | .powerOn | .illegalInsn | .instructionFetchFault | .invalidCommand
  | .invalidMailboxRequest | .edgePortLinkUp | .powerLoss => true

/-- The Carter executes majors 0x00 to 0x0B, 0x37, fn 1, 2 and 5 to 9 of 0x39, 0x3A, 0x3E and 0x3F (R218). -/
def Instr.carterOk : Instr → Bool
  | .vif _ => false
  | .velse => false
  | .vendif => false
  | .vloop => false
  | .vbrk _ _ => false
  | .vcont _ _ => false
  | .endvl _ => false
  | .exit => false
  | .exitS _ => false
  | .yield => false
  | .yieldc _ _ _ => false
  | .split _ => false
  | .fuse _ _ _ => false
  | .lease _ => false
  | .leasem => false
  | .leaseq _ _ => false
  | .gbar _ _ _ => false
  | .garrive _ _ _ _ => false
  | .gwait _ _ _ _ => false
  | .gqry _ _ _ => false
  | .vadd _ _ _ _ => false
  | .vsub _ _ _ _ => false
  | .vadds _ _ _ _ => false
  | .vsubs _ _ _ _ => false
  | .vmul _ _ _ _ => false
  | .vmulh _ _ _ _ => false
  | .vmulhu _ _ _ _ => false
  | .vmad _ _ _ _ => false
  | .vand _ _ _ _ => false
  | .vor _ _ _ _ => false
  | .vxor _ _ _ _ => false
  | .vandn _ _ _ _ => false
  | .vshl _ _ _ _ => false
  | .vshr _ _ _ _ => false
  | .vsra _ _ _ _ => false
  | .vrot _ _ _ _ => false
  | .vmin _ _ _ _ => false
  | .vmax _ _ _ _ => false
  | .vminu _ _ _ _ => false
  | .vmaxu _ _ _ _ => false
  | .vaddus _ _ _ _ => false
  | .vsubus _ _ _ _ => false
  | .vabsd _ _ _ _ => false
  | .vavg _ _ _ _ => false
  | .vceq _ _ _ _ => false
  | .vcne _ _ _ _ => false
  | .vclt _ _ _ _ => false
  | .vcle _ _ _ _ => false
  | .vcltu _ _ _ _ => false
  | .vcleu _ _ _ _ => false
  | .vctst _ _ _ _ => false
  | .vaddh2 _ _ _ _ => false
  | .vaddb4 _ _ _ _ => false
  | .vmulh2 _ _ _ _ => false
  | .vdot4 _ _ _ _ => false
  | .vsel _ _ _ _ => false
  | .vclz _ _ _ => false
  | .vpopc _ _ _ => false
  | .vbrev _ _ _ => false
  | .vaddi _ _ _ _ => false
  | .vshli _ _ _ _ => false
  | .vshri _ _ _ _ => false
  | .vsrai _ _ _ _ => false
  | .vmovi _ _ _ => false
  | .vmovhi _ _ _ => false
  | .vcmpi _ _ _ _ _ => false
  | .fadd _ _ _ _ => false
  | .fsub _ _ _ _ => false
  | .fmul _ _ _ _ => false
  | .fmac _ _ _ _ => false
  | .fmin _ _ _ _ => false
  | .fmax _ _ _ _ => false
  | .fminm _ _ _ _ => false
  | .fmaxm _ _ _ _ => false
  | .fceq _ _ _ _ => false
  | .fclt _ _ _ _ => false
  | .fcle _ _ _ _ => false
  | .fcun _ _ _ _ => false
  | .fdiv _ _ _ _ => false
  | .fsqrt _ _ _ => false
  | .frsq _ _ _ => false
  | .frcp _ _ _ => false
  | .fexp2 _ _ _ => false
  | .flog2 _ _ _ => false
  | .fsinpi _ _ _ => false
  | .fcospi _ _ _ => false
  | .fma _ _ _ _ _ => false
  | .fms _ _ _ _ _ => false
  | .fnma _ _ _ _ _ => false
  | .fnms _ _ _ _ _ => false
  | .hadd2 _ _ _ _ => false
  | .hmul2 _ _ _ _ => false
  | .hfmac2 _ _ _ _ => false
  | .hmax2 _ _ _ _ => false
  | .badd2 _ _ _ _ => false
  | .bmul2 _ _ _ _ => false
  | .bfmac2 _ _ _ _ => false
  | .bmax2 _ _ _ _ => false
  | .cvt _ _ _ _ _ => false
  | .fclass _ _ _ => false
  | .frint _ _ _ => false
  | .fscalb _ _ _ _ => false
  | .fgetexp _ _ _ => false
  | .pand _ _ _ => false
  | .por _ _ _ => false
  | .pxor _ _ _ => false
  | .pandn _ _ _ => false
  | .pnot _ _ => false
  | .pflag _ _ => false
  | .flclr _ => false
  | .flrd _ => false
  | .mfacc _ _ _ _ _ => false
  | .mtacc _ _ _ _ => false
  | .mfaccz _ _ _ _ _ => false
  | .shfli _ _ _ _ => false
  | .shflu _ _ _ _ => false
  | .shfld _ _ _ _ => false
  | .shflx _ _ _ _ => false
  | .vall _ _ _ _ => false
  | .vany _ _ _ _ => false
  | .vbal _ _ _ => false
  | .vcnt _ _ _ => false
  | .vred _ _ _ _ _ => false
  | .vscani _ _ _ _ => false
  | .vscanx _ _ _ _ => false
  | .vbcast _ _ _ => false
  | .vextr _ _ _ => false
  | .vinsr _ _ _ => false
  | .vcprs _ _ _ => false
  | .vlane _ _ => false
  | .vtid _ => false
  | .lds _ _ _ _ _ => false
  | .sts _ _ _ _ _ => false
  | .lda _ _ _ _ _ => false
  | .sta _ _ _ _ _ => false
  | .ldg _ _ _ _ _ => false
  | .stg _ _ _ _ _ => false
  | .atom _ _ _ _ _ => false
  | .wait _ _ _ _ _ => false
  | .cpost _ => false
  | .launch _ => false
  | .launchnb _ _ => false
  | .mchb _ _ _ _ _ => false
  | .mche _ => false
  | .mzacc _ _ => false
  | .mcap _ => false
  | .mstat _ _ => false
  | .mma _ _ _ _ _ _ _ => false
  | .rldW _ _ _ _ _ => false
  | .rldD _ _ _ _ _ => false
  | .rldQ _ _ _ _ _ => false
  | .rstW _ _ _ _ _ => false
  | .rstD _ _ _ _ _ => false
  | .rstQ _ _ _ _ _ => false
  | .nop | .trap _ | .brk _ | .tret | .tkill | .tskip | .mfsr _ _ | .mtsr _ _ | .halt | .sadd _ _ _ | .ssub _ _ _ | .smul _ _ _
  | .smulh _ _ _ | .smulhu _ _ _ | .sdiv _ _ _ | .sdivu _ _ _ | .srem _ _ _ | .sremu _ _ _ | .sand _ _ _ | .sor _ _ _
  | .sxor _ _ _ | .sshl _ _ _ | .sshr _ _ _ | .ssra _ _ _ | .smin _ _ _ | .smax _ _ _ | .sminu _ _ _ | .smaxu _ _ _ | .sclz _ _
  | .spopc _ _ | .saddi _ _ _ | .sshli _ _ _ | .sshri _ _ _ | .ssrai _ _ _ | .slui _ _ | .scmp _ _ _ _ | .scmpi _ _ _ _
  | .sldW _ _ _ | .sldD _ _ _ | .sstW _ _ _ | .sstD _ _ _ | .br _ _ _ | .call _ | .jmpr _ | .callr _ | .ret | .cand _ _ _
  | .cor _ _ _ | .cxor _ _ _ | .cnot _ _ | .looph _ _ | .loophi _ _ | .lbrk | .fence _ _ | .acq _ _ _ | .rel _ _ _
  | .bind _ _ _ | .unbind _ | .cinv _ _ | .cwbWriteback _ _ | .satom _ _ _ _ _ | .waitge _ _ _ _ _ | .waitgec _ _ _ _ _
  | .armcnt _ _ _ | .disarm _ _ | .cntrd _ _ _ | .heat _ _ | .cool _ | .cwbWaybill _ _ | .cwbr _ _ | .cstra _ _ | .cstrb _ _
  | .cinbox _ | .cdone | .ctladv _ _ | .cwaitq _ _ | .ratom _ _ _ _ _ | .rnotify _ _ _ _ | .rfence | .tready _ _ | .clqry _ _ _
  | .topo _ _ | .himm _ | .hmod _ _ _ | .hsched _ _ _ | .hnop _ | .hintKindNoop _ _ | .accessComplete | .atomicPerform
  | .writeArrival | .counterCarterMessage | .tlbInvalidationAck | .islandTaskPush | .pendingLaunchForward | .coachPlacement
  | .teamAdmission | .leaseWindowEnd | .teamForced | .teamWake | .fuseTimeout | .swapOut | .coachRestore | .quantumBoundary
  | .successorPush | .taskCompletion | .joinDecrement | .heatGrant | .waybillElementLand | .waybillComplete | .streamBlockPush
  | .chainDispatch | .kblockApply | .frameReceive | .frameRetry | .relayForward | .rotorSlot | .remoteReply | .remoteTimeout
  | .reportOnlyTimeout | .bellowsSend | .collectiveComplete | .hcpselWrite | .queueEnable | .queueDisable | .doorbell | .cmdNop
  | .cmdLaunch | .cmdWrite | .cmdCopy | .cmdMctset | .cmdKill | .launchDispatch | .ctxCreate | .ctxDestroy | .ctxSuspend
  | .ctxResume | .inval | .pfDone | .topoRead | .topoFence | .topoRemap | .hearthBudgetWrite | .fwmaskWrite | .corectxWrite
  | .keyZeroise | .fareqAssign | .fareqQuarantine | .scrubStart | .scrubUnit | .islandReset | .islandResetEnd | .discard
  | .hubWake | .registerWrite | .energyWindow | .correctedError | .uncorrectableError | .temperatureCrossing | .linkWindowEnd
  | .fwLoad | .fwVerifyComplete | .hubReset | .spdmRequest | .powerOn | .illegalInsn | .instructionFetchFault | .invalidCommand
  | .invalidMailboxRequest | .edgePortLinkUp | .powerLoss => true

/-- A hub core executes the majors of R380. -/
def Instr.hubOk : Instr → Bool
  | .exit => false
  | .exitS _ => false
  | .yield => false
  | .yieldc _ _ _ => false
  | .split _ => false
  | .fuse _ _ _ => false
  | .lease _ => false
  | .leasem => false
  | .leaseq _ _ => false
  | .gbar _ _ _ => false
  | .garrive _ _ _ _ => false
  | .gwait _ _ _ _ => false
  | .gqry _ _ _ => false
  | .mfacc _ _ _ _ _ => false
  | .mtacc _ _ _ _ => false
  | .mfaccz _ _ _ _ _ => false
  | .lds _ _ _ _ _ => false
  | .sts _ _ _ _ _ => false
  | .lda _ _ _ _ _ => false
  | .sta _ _ _ _ _ => false
  | .cpost _ => false
  | .waitge _ _ _ _ _ => false
  | .waitgec _ _ _ _ _ => false
  | .launch _ => false
  | .launchnb _ _ => false
  | .armcnt _ _ _ => false
  | .disarm _ _ => false
  | .cntrd _ _ _ => false
  | .heat _ _ => false
  | .cool _ => false
  | .cwbWaybill _ _ => false
  | .cwbr _ _ => false
  | .cstra _ _ => false
  | .cstrb _ _ => false
  | .cinbox _ => false
  | .cdone => false
  | .ctladv _ _ => false
  | .cwaitq _ _ => false
  | .mchb _ _ _ _ _ => false
  | .mche _ => false
  | .mzacc _ _ => false
  | .mcap _ => false
  | .mstat _ _ => false
  | .mma _ _ _ _ _ _ _ => false
  | .tready _ _ => false
  | .clqry _ _ _ => false
  | .nop | .trap _ | .brk _ | .tret | .tkill | .tskip | .mfsr _ _ | .mtsr _ _ | .halt | .sadd _ _ _ | .ssub _ _ _ | .smul _ _ _
  | .smulh _ _ _ | .smulhu _ _ _ | .sdiv _ _ _ | .sdivu _ _ _ | .srem _ _ _ | .sremu _ _ _ | .sand _ _ _ | .sor _ _ _
  | .sxor _ _ _ | .sshl _ _ _ | .sshr _ _ _ | .ssra _ _ _ | .smin _ _ _ | .smax _ _ _ | .sminu _ _ _ | .smaxu _ _ _ | .sclz _ _
  | .spopc _ _ | .saddi _ _ _ | .sshli _ _ _ | .sshri _ _ _ | .ssrai _ _ _ | .slui _ _ | .scmp _ _ _ _ | .scmpi _ _ _ _
  | .sldW _ _ _ | .sldD _ _ _ | .sstW _ _ _ | .sstD _ _ _ | .br _ _ _ | .call _ | .jmpr _ | .callr _ | .ret | .cand _ _ _
  | .cor _ _ _ | .cxor _ _ _ | .cnot _ _ | .looph _ _ | .loophi _ _ | .lbrk | .vif _ | .velse | .vendif | .vloop | .vbrk _ _
  | .vcont _ _ | .endvl _ | .vadd _ _ _ _ | .vsub _ _ _ _ | .vadds _ _ _ _ | .vsubs _ _ _ _ | .vmul _ _ _ _ | .vmulh _ _ _ _
  | .vmulhu _ _ _ _ | .vmad _ _ _ _ | .vand _ _ _ _ | .vor _ _ _ _ | .vxor _ _ _ _ | .vandn _ _ _ _ | .vshl _ _ _ _
  | .vshr _ _ _ _ | .vsra _ _ _ _ | .vrot _ _ _ _ | .vmin _ _ _ _ | .vmax _ _ _ _ | .vminu _ _ _ _ | .vmaxu _ _ _ _
  | .vaddus _ _ _ _ | .vsubus _ _ _ _ | .vabsd _ _ _ _ | .vavg _ _ _ _ | .vceq _ _ _ _ | .vcne _ _ _ _ | .vclt _ _ _ _
  | .vcle _ _ _ _ | .vcltu _ _ _ _ | .vcleu _ _ _ _ | .vctst _ _ _ _ | .vaddh2 _ _ _ _ | .vaddb4 _ _ _ _ | .vmulh2 _ _ _ _
  | .vdot4 _ _ _ _ | .vsel _ _ _ _ | .vclz _ _ _ | .vpopc _ _ _ | .vbrev _ _ _ | .vaddi _ _ _ _ | .vshli _ _ _ _
  | .vshri _ _ _ _ | .vsrai _ _ _ _ | .vmovi _ _ _ | .vmovhi _ _ _ | .vcmpi _ _ _ _ _ | .fadd _ _ _ _ | .fsub _ _ _ _
  | .fmul _ _ _ _ | .fmac _ _ _ _ | .fmin _ _ _ _ | .fmax _ _ _ _ | .fminm _ _ _ _ | .fmaxm _ _ _ _ | .fceq _ _ _ _
  | .fclt _ _ _ _ | .fcle _ _ _ _ | .fcun _ _ _ _ | .fdiv _ _ _ _ | .fsqrt _ _ _ | .frsq _ _ _ | .frcp _ _ _ | .fexp2 _ _ _
  | .flog2 _ _ _ | .fsinpi _ _ _ | .fcospi _ _ _ | .fma _ _ _ _ _ | .fms _ _ _ _ _ | .fnma _ _ _ _ _ | .fnms _ _ _ _ _
  | .hadd2 _ _ _ _ | .hmul2 _ _ _ _ | .hfmac2 _ _ _ _ | .hmax2 _ _ _ _ | .badd2 _ _ _ _ | .bmul2 _ _ _ _ | .bfmac2 _ _ _ _
  | .bmax2 _ _ _ _ | .cvt _ _ _ _ _ | .fclass _ _ _ | .frint _ _ _ | .fscalb _ _ _ _ | .fgetexp _ _ _ | .pand _ _ _
  | .por _ _ _ | .pxor _ _ _ | .pandn _ _ _ | .pnot _ _ | .pflag _ _ | .flclr _ | .flrd _ | .shfli _ _ _ _ | .shflu _ _ _ _
  | .shfld _ _ _ _ | .shflx _ _ _ _ | .vall _ _ _ _ | .vany _ _ _ _ | .vbal _ _ _ | .vcnt _ _ _ | .vred _ _ _ _ _
  | .vscani _ _ _ _ | .vscanx _ _ _ _ | .vbcast _ _ _ | .vextr _ _ _ | .vinsr _ _ _ | .vcprs _ _ _ | .vlane _ _ | .vtid _
  | .ldg _ _ _ _ _ | .stg _ _ _ _ _ | .atom _ _ _ _ _ | .fence _ _ | .acq _ _ _ | .rel _ _ _ | .bind _ _ _ | .unbind _
  | .cinv _ _ | .cwbWriteback _ _ | .satom _ _ _ _ _ | .wait _ _ _ _ _ | .rldW _ _ _ _ _ | .rldD _ _ _ _ _ | .rldQ _ _ _ _ _
  | .rstW _ _ _ _ _ | .rstD _ _ _ _ _ | .rstQ _ _ _ _ _ | .ratom _ _ _ _ _ | .rnotify _ _ _ _ | .rfence | .topo _ _ | .himm _
  | .hmod _ _ _ | .hsched _ _ _ | .hnop _ | .hintKindNoop _ _ | .accessComplete | .atomicPerform | .writeArrival
  | .counterCarterMessage | .tlbInvalidationAck | .islandTaskPush | .pendingLaunchForward | .coachPlacement | .teamAdmission
  | .leaseWindowEnd | .teamForced | .teamWake | .fuseTimeout | .swapOut | .coachRestore | .quantumBoundary | .successorPush
  | .taskCompletion | .joinDecrement | .heatGrant | .waybillElementLand | .waybillComplete | .streamBlockPush | .chainDispatch
  | .kblockApply | .frameReceive | .frameRetry | .relayForward | .rotorSlot | .remoteReply | .remoteTimeout
  | .reportOnlyTimeout | .bellowsSend | .collectiveComplete | .hcpselWrite | .queueEnable | .queueDisable | .doorbell | .cmdNop
  | .cmdLaunch | .cmdWrite | .cmdCopy | .cmdMctset | .cmdKill | .launchDispatch | .ctxCreate | .ctxDestroy | .ctxSuspend
  | .ctxResume | .inval | .pfDone | .topoRead | .topoFence | .topoRemap | .hearthBudgetWrite | .fwmaskWrite | .corectxWrite
  | .keyZeroise | .fareqAssign | .fareqQuarantine | .scrubStart | .scrubUnit | .islandReset | .islandResetEnd | .discard
  | .hubWake | .registerWrite | .energyWindow | .correctedError | .uncorrectableError | .temperatureCrossing | .linkWindowEnd
  | .fwLoad | .fwVerifyComplete | .hubReset | .spdmRequest | .powerOn | .illegalInsn | .instructionFetchFault | .invalidCommand
  | .invalidMailboxRequest | .edgePortLinkUp | .powerLoss => true

/-- Whether an agent executes an instruction (R218, R380). -/
def Instr.agentOk (i : Instr) : Machine.AgentKind → Bool
  | .team => i.teamOk
  | .carter => i.carterOk
  | .hub => i.hubOk

/-- The class of operation that an instruction begins, whose count it raises (R275, R277, R279, R289, R305, R314, R320-R323). -/
def Instr.raises : Instr → Option Machine.Cls
  | .sldW _ _ _ | .sldD _ _ _ | .lds _ _ _ _ _ | .lda _ _ _ _ _ | .ldg _ _ _ _ _ | .atom _ _ _ _ _ | .satom _ _ _ _ _ => some .ld
  | .mfacc _ _ _ _ _ | .mfaccz _ _ _ _ _ => some .ld
  | .sstW _ _ _ | .sstD _ _ _ | .sts _ _ _ _ _ | .sta _ _ _ _ _ | .stg _ _ _ _ _ | .mtacc _ _ _ _ | .mzacc _ _ => some .st
  | .mchb _ _ _ _ _ => some .tl
  | .cpost _ => some .cp
  | .rldW _ _ _ _ _ | .rldD _ _ _ _ _ | .rldQ _ _ _ _ _ | .rstW _ _ _ _ _ | .rstD _ _ _ _ _ | .rstQ _ _ _ _ _ => some .rm
  | .ratom _ _ _ _ _ | .rnotify _ _ _ _ => some .rm
  | .nop | .trap _ | .brk _ | .tret | .tkill | .tskip | .mfsr _ _ | .mtsr _ _ | .halt | .sadd _ _ _ | .ssub _ _ _ | .smul _ _ _
  | .smulh _ _ _ | .smulhu _ _ _ | .sdiv _ _ _ | .sdivu _ _ _ | .srem _ _ _ | .sremu _ _ _ | .sand _ _ _ | .sor _ _ _
  | .sxor _ _ _ | .sshl _ _ _ | .sshr _ _ _ | .ssra _ _ _ | .smin _ _ _ | .smax _ _ _ | .sminu _ _ _ | .smaxu _ _ _ | .sclz _ _
  | .spopc _ _ | .saddi _ _ _ | .sshli _ _ _ | .sshri _ _ _ | .ssrai _ _ _ | .slui _ _ | .scmp _ _ _ _ | .scmpi _ _ _ _
  | .br _ _ _ | .call _ | .jmpr _ | .callr _ | .ret | .cand _ _ _ | .cor _ _ _ | .cxor _ _ _ | .cnot _ _ | .looph _ _
  | .loophi _ _ | .lbrk | .vif _ | .velse | .vendif | .vloop | .vbrk _ _ | .vcont _ _ | .endvl _ | .exit | .exitS _ | .yield
  | .yieldc _ _ _ | .split _ | .fuse _ _ _ | .lease _ | .leasem | .leaseq _ _ | .gbar _ _ _ | .garrive _ _ _ _ | .gwait _ _ _ _
  | .gqry _ _ _ | .vadd _ _ _ _ | .vsub _ _ _ _ | .vadds _ _ _ _ | .vsubs _ _ _ _ | .vmul _ _ _ _ | .vmulh _ _ _ _
  | .vmulhu _ _ _ _ | .vmad _ _ _ _ | .vand _ _ _ _ | .vor _ _ _ _ | .vxor _ _ _ _ | .vandn _ _ _ _ | .vshl _ _ _ _
  | .vshr _ _ _ _ | .vsra _ _ _ _ | .vrot _ _ _ _ | .vmin _ _ _ _ | .vmax _ _ _ _ | .vminu _ _ _ _ | .vmaxu _ _ _ _
  | .vaddus _ _ _ _ | .vsubus _ _ _ _ | .vabsd _ _ _ _ | .vavg _ _ _ _ | .vceq _ _ _ _ | .vcne _ _ _ _ | .vclt _ _ _ _
  | .vcle _ _ _ _ | .vcltu _ _ _ _ | .vcleu _ _ _ _ | .vctst _ _ _ _ | .vaddh2 _ _ _ _ | .vaddb4 _ _ _ _ | .vmulh2 _ _ _ _
  | .vdot4 _ _ _ _ | .vsel _ _ _ _ | .vclz _ _ _ | .vpopc _ _ _ | .vbrev _ _ _ | .vaddi _ _ _ _ | .vshli _ _ _ _
  | .vshri _ _ _ _ | .vsrai _ _ _ _ | .vmovi _ _ _ | .vmovhi _ _ _ | .vcmpi _ _ _ _ _ | .fadd _ _ _ _ | .fsub _ _ _ _
  | .fmul _ _ _ _ | .fmac _ _ _ _ | .fmin _ _ _ _ | .fmax _ _ _ _ | .fminm _ _ _ _ | .fmaxm _ _ _ _ | .fceq _ _ _ _
  | .fclt _ _ _ _ | .fcle _ _ _ _ | .fcun _ _ _ _ | .fdiv _ _ _ _ | .fsqrt _ _ _ | .frsq _ _ _ | .frcp _ _ _ | .fexp2 _ _ _
  | .flog2 _ _ _ | .fsinpi _ _ _ | .fcospi _ _ _ | .fma _ _ _ _ _ | .fms _ _ _ _ _ | .fnma _ _ _ _ _ | .fnms _ _ _ _ _
  | .hadd2 _ _ _ _ | .hmul2 _ _ _ _ | .hfmac2 _ _ _ _ | .hmax2 _ _ _ _ | .badd2 _ _ _ _ | .bmul2 _ _ _ _ | .bfmac2 _ _ _ _
  | .bmax2 _ _ _ _ | .cvt _ _ _ _ _ | .fclass _ _ _ | .frint _ _ _ | .fscalb _ _ _ _ | .fgetexp _ _ _ | .pand _ _ _
  | .por _ _ _ | .pxor _ _ _ | .pandn _ _ _ | .pnot _ _ | .pflag _ _ | .flclr _ | .flrd _ | .shfli _ _ _ _ | .shflu _ _ _ _
  | .shfld _ _ _ _ | .shflx _ _ _ _ | .vall _ _ _ _ | .vany _ _ _ _ | .vbal _ _ _ | .vcnt _ _ _ | .vred _ _ _ _ _
  | .vscani _ _ _ _ | .vscanx _ _ _ _ | .vbcast _ _ _ | .vextr _ _ _ | .vinsr _ _ _ | .vcprs _ _ _ | .vlane _ _ | .vtid _
  | .fence _ _ | .acq _ _ _ | .rel _ _ _ | .bind _ _ _ | .unbind _ | .cinv _ _ | .cwbWriteback _ _ | .wait _ _ _ _ _
  | .waitge _ _ _ _ _ | .waitgec _ _ _ _ _ | .launch _ | .launchnb _ _ | .armcnt _ _ _ | .disarm _ _ | .cntrd _ _ _ | .heat _ _
  | .cool _ | .cwbWaybill _ _ | .cwbr _ _ | .cstra _ _ | .cstrb _ _ | .cinbox _ | .cdone | .ctladv _ _ | .cwaitq _ _ | .mche _
  | .mcap _ | .mstat _ _ | .mma _ _ _ _ _ _ _ | .rfence | .tready _ _ | .clqry _ _ _ | .topo _ _ | .himm _ | .hmod _ _ _
  | .hsched _ _ _ | .hnop _ | .hintKindNoop _ _ | .accessComplete | .atomicPerform | .writeArrival | .counterCarterMessage
  | .tlbInvalidationAck | .islandTaskPush | .pendingLaunchForward | .coachPlacement | .teamAdmission | .leaseWindowEnd
  | .teamForced | .teamWake | .fuseTimeout | .swapOut | .coachRestore | .quantumBoundary | .successorPush | .taskCompletion
  | .joinDecrement | .heatGrant | .waybillElementLand | .waybillComplete | .streamBlockPush | .chainDispatch | .kblockApply
  | .frameReceive | .frameRetry | .relayForward | .rotorSlot | .remoteReply | .remoteTimeout | .reportOnlyTimeout
  | .bellowsSend | .collectiveComplete | .hcpselWrite | .queueEnable | .queueDisable | .doorbell | .cmdNop | .cmdLaunch
  | .cmdWrite | .cmdCopy | .cmdMctset | .cmdKill | .launchDispatch | .ctxCreate | .ctxDestroy | .ctxSuspend | .ctxResume
  | .inval | .pfDone | .topoRead | .topoFence | .topoRemap | .hearthBudgetWrite | .fwmaskWrite | .corectxWrite | .keyZeroise
  | .fareqAssign | .fareqQuarantine | .scrubStart | .scrubUnit | .islandReset | .islandResetEnd | .discard | .hubWake
  | .registerWrite | .energyWindow | .correctedError | .uncorrectableError | .temperatureCrossing | .linkWindowEnd | .fwLoad
  | .fwVerifyComplete | .hubReset | .spdmRequest | .powerOn | .illegalInsn | .instructionFetchFault | .invalidCommand
  | .invalidMailboxRequest | .edgePortLinkUp | .powerLoss => none

/-- YIELD waits for nothing at all (R237). -/
def Instr.isYield : Instr → Bool
  | .yield => true
  | .nop | .trap _ | .brk _ | .tret | .tkill | .tskip | .mfsr _ _ | .mtsr _ _ | .halt | .sadd _ _ _ | .ssub _ _ _ | .smul _ _ _
  | .smulh _ _ _ | .smulhu _ _ _ | .sdiv _ _ _ | .sdivu _ _ _ | .srem _ _ _ | .sremu _ _ _ | .sand _ _ _ | .sor _ _ _
  | .sxor _ _ _ | .sshl _ _ _ | .sshr _ _ _ | .ssra _ _ _ | .smin _ _ _ | .smax _ _ _ | .sminu _ _ _ | .smaxu _ _ _ | .sclz _ _
  | .spopc _ _ | .saddi _ _ _ | .sshli _ _ _ | .sshri _ _ _ | .ssrai _ _ _ | .slui _ _ | .scmp _ _ _ _ | .scmpi _ _ _ _
  | .sldW _ _ _ | .sldD _ _ _ | .sstW _ _ _ | .sstD _ _ _ | .br _ _ _ | .call _ | .jmpr _ | .callr _ | .ret | .cand _ _ _
  | .cor _ _ _ | .cxor _ _ _ | .cnot _ _ | .looph _ _ | .loophi _ _ | .lbrk | .vif _ | .velse | .vendif | .vloop | .vbrk _ _
  | .vcont _ _ | .endvl _ | .exit | .exitS _ | .yieldc _ _ _ | .split _ | .fuse _ _ _ | .lease _ | .leasem | .leaseq _ _
  | .gbar _ _ _ | .garrive _ _ _ _ | .gwait _ _ _ _ | .gqry _ _ _ | .vadd _ _ _ _ | .vsub _ _ _ _ | .vadds _ _ _ _
  | .vsubs _ _ _ _ | .vmul _ _ _ _ | .vmulh _ _ _ _ | .vmulhu _ _ _ _ | .vmad _ _ _ _ | .vand _ _ _ _ | .vor _ _ _ _
  | .vxor _ _ _ _ | .vandn _ _ _ _ | .vshl _ _ _ _ | .vshr _ _ _ _ | .vsra _ _ _ _ | .vrot _ _ _ _ | .vmin _ _ _ _
  | .vmax _ _ _ _ | .vminu _ _ _ _ | .vmaxu _ _ _ _ | .vaddus _ _ _ _ | .vsubus _ _ _ _ | .vabsd _ _ _ _ | .vavg _ _ _ _
  | .vceq _ _ _ _ | .vcne _ _ _ _ | .vclt _ _ _ _ | .vcle _ _ _ _ | .vcltu _ _ _ _ | .vcleu _ _ _ _ | .vctst _ _ _ _
  | .vaddh2 _ _ _ _ | .vaddb4 _ _ _ _ | .vmulh2 _ _ _ _ | .vdot4 _ _ _ _ | .vsel _ _ _ _ | .vclz _ _ _ | .vpopc _ _ _
  | .vbrev _ _ _ | .vaddi _ _ _ _ | .vshli _ _ _ _ | .vshri _ _ _ _ | .vsrai _ _ _ _ | .vmovi _ _ _ | .vmovhi _ _ _
  | .vcmpi _ _ _ _ _ | .fadd _ _ _ _ | .fsub _ _ _ _ | .fmul _ _ _ _ | .fmac _ _ _ _ | .fmin _ _ _ _ | .fmax _ _ _ _
  | .fminm _ _ _ _ | .fmaxm _ _ _ _ | .fceq _ _ _ _ | .fclt _ _ _ _ | .fcle _ _ _ _ | .fcun _ _ _ _ | .fdiv _ _ _ _
  | .fsqrt _ _ _ | .frsq _ _ _ | .frcp _ _ _ | .fexp2 _ _ _ | .flog2 _ _ _ | .fsinpi _ _ _ | .fcospi _ _ _ | .fma _ _ _ _ _
  | .fms _ _ _ _ _ | .fnma _ _ _ _ _ | .fnms _ _ _ _ _ | .hadd2 _ _ _ _ | .hmul2 _ _ _ _ | .hfmac2 _ _ _ _ | .hmax2 _ _ _ _
  | .badd2 _ _ _ _ | .bmul2 _ _ _ _ | .bfmac2 _ _ _ _ | .bmax2 _ _ _ _ | .cvt _ _ _ _ _ | .fclass _ _ _ | .frint _ _ _
  | .fscalb _ _ _ _ | .fgetexp _ _ _ | .pand _ _ _ | .por _ _ _ | .pxor _ _ _ | .pandn _ _ _ | .pnot _ _ | .pflag _ _
  | .flclr _ | .flrd _ | .mfacc _ _ _ _ _ | .mtacc _ _ _ _ | .mfaccz _ _ _ _ _ | .shfli _ _ _ _ | .shflu _ _ _ _
  | .shfld _ _ _ _ | .shflx _ _ _ _ | .vall _ _ _ _ | .vany _ _ _ _ | .vbal _ _ _ | .vcnt _ _ _ | .vred _ _ _ _ _
  | .vscani _ _ _ _ | .vscanx _ _ _ _ | .vbcast _ _ _ | .vextr _ _ _ | .vinsr _ _ _ | .vcprs _ _ _ | .vlane _ _ | .vtid _
  | .lds _ _ _ _ _ | .sts _ _ _ _ _ | .lda _ _ _ _ _ | .sta _ _ _ _ _ | .ldg _ _ _ _ _ | .stg _ _ _ _ _ | .atom _ _ _ _ _
  | .fence _ _ | .acq _ _ _ | .rel _ _ _ | .bind _ _ _ | .unbind _ | .cinv _ _ | .cwbWriteback _ _ | .satom _ _ _ _ _
  | .wait _ _ _ _ _ | .cpost _ | .waitge _ _ _ _ _ | .waitgec _ _ _ _ _ | .launch _ | .launchnb _ _ | .armcnt _ _ _
  | .disarm _ _ | .cntrd _ _ _ | .heat _ _ | .cool _ | .cwbWaybill _ _ | .cwbr _ _ | .cstra _ _ | .cstrb _ _ | .cinbox _
  | .cdone | .ctladv _ _ | .cwaitq _ _ | .mchb _ _ _ _ _ | .mche _ | .mzacc _ _ | .mcap _ | .mstat _ _ | .mma _ _ _ _ _ _ _
  | .rldW _ _ _ _ _ | .rldD _ _ _ _ _ | .rldQ _ _ _ _ _ | .rstW _ _ _ _ _ | .rstD _ _ _ _ _ | .rstQ _ _ _ _ _
  | .ratom _ _ _ _ _ | .rnotify _ _ _ _ | .rfence | .tready _ _ | .clqry _ _ _ | .topo _ _ | .himm _ | .hmod _ _ _
  | .hsched _ _ _ | .hnop _ | .hintKindNoop _ _ | .accessComplete | .atomicPerform | .writeArrival | .counterCarterMessage
  | .tlbInvalidationAck | .islandTaskPush | .pendingLaunchForward | .coachPlacement | .teamAdmission | .leaseWindowEnd
  | .teamForced | .teamWake | .fuseTimeout | .swapOut | .coachRestore | .quantumBoundary | .successorPush | .taskCompletion
  | .joinDecrement | .heatGrant | .waybillElementLand | .waybillComplete | .streamBlockPush | .chainDispatch | .kblockApply
  | .frameReceive | .frameRetry | .relayForward | .rotorSlot | .remoteReply | .remoteTimeout | .reportOnlyTimeout
  | .bellowsSend | .collectiveComplete | .hcpselWrite | .queueEnable | .queueDisable | .doorbell | .cmdNop | .cmdLaunch
  | .cmdWrite | .cmdCopy | .cmdMctset | .cmdKill | .launchDispatch | .ctxCreate | .ctxDestroy | .ctxSuspend | .ctxResume
  | .inval | .pfDone | .topoRead | .topoFence | .topoRemap | .hearthBudgetWrite | .fwmaskWrite | .corectxWrite | .keyZeroise
  | .fareqAssign | .fareqQuarantine | .scrubStart | .scrubUnit | .islandReset | .islandResetEnd | .discard | .hubWake
  | .registerWrite | .energyWindow | .correctedError | .uncorrectableError | .temperatureCrossing | .linkWindowEnd | .fwLoad
  | .fwVerifyComplete | .hubReset | .spdmRequest | .powerOn | .illegalInsn | .instructionFetchFault | .invalidCommand
  | .invalidMailboxRequest | .edgePortLinkUp | .powerLoss => false

/-- Every vector register that an instruction names lies in an allocation of n registers (R219 step 5). -/
def Instr.allocOk (i : Instr) (n : Nat) : Bool := i.vregs.all (fun r => decide (r < n))

end Sys2Proof
end

