-- ==== Sys2Proof/Machine/Bits.lean ====
section
/-!
DEFINITION. Bit-level helpers on words and numbers.
-/
namespace Sys2Proof.Machine

/-- Bits hi down to lo of a number. -/
def bitsOf (x hi lo : Nat) : Nat := x / 2 ^ lo % 2 ^ (hi + 1 - lo)

/-- Bit n of a number. -/
def bitOf (x n : Nat) : Bool := x / 2 ^ n % 2 = 1

/-- The number with its bits n and below read as two's complement of width n. -/
def sextNat (x n : Nat) : Int := if bitOf x (n - 1) then (x % 2 ^ n : Nat) - (2 ^ n : Nat) else ((x % 2 ^ n : Nat) : Int)

/-- The number of bits that are 1 among the low n. -/
def popFrom (x : Nat) : Nat → Nat
  | 0 => 0
  | n + 1 => (if bitOf x n then 1 else 0) + popFrom x n

/-- Zeros above the highest 1 bit among the low n bits. -/
def clzFrom (x : Nat) : Nat → Nat
  | 0 => 0
  | n + 1 => if bitOf x n then 0 else 1 + clzFrom x n

/-- The low n bits in reverse order. -/
def revFrom (x : Nat) : Nat → Nat
  | 0 => 0
  | n + 1 => 2 * revFrom x n + (if bitOf x n then 1 else 0)

/-- A mask with the bits of a list of positions set. -/
def maskOf : List Nat → Nat
  | [] => 0
  | n :: r => if bitOf (maskOf r) n then maskOf r else 2 ^ n + maskOf r

/-- The positions below n of the bits set in a mask, lowest first. -/
def onesOf (x n : Nat) : List Nat := (List.range n).filter (fun i => bitOf x i)

/-- A number's ceiling division. -/
def ceilDiv (a b : Nat) : Nat := (a + b - 1) / b

/-- Bool as a number. -/
def b2n (b : Bool) : Nat := if b then 1 else 0

/-- The smallest power of two that is at least n, for n up to 128. -/
def pow2Ceil (n : Nat) : Nat :=
  if n ≤ 1 then 1 else if n ≤ 2 then 2 else if n ≤ 4 then 4 else if n ≤ 8 then 8 else if n ≤ 16 then 16
  else if n ≤ 32 then 32 else if n ≤ 64 then 64 else 128

/-- Log base 2 of a team's width over 4: the WCODE of a width. -/
def widthCode (w : Nat) : Nat := if w ≤ 4 then 0 else if w ≤ 8 then 1 else if w ≤ 16 then 2 else if w ≤ 32 then 3 else 4

end Sys2Proof.Machine
end

