-- ==== Sys2Proof/Machine/Sparse.lean ====
section
/-!
DEFINITION. Sparse maps in one canonical form, and little-endian access to a memory (R5).

A map lists (key, value) pairs with keys strictly rising and no value 0; an unlisted key reads as 0 (log 3).
-/
namespace Sys2Proof.Machine

/-- The value at a key; 0 where the key is not listed. -/
def spGet {w : Nat} : Sparse w → Nat → BitVec w
  | [], _ => 0
  | (k, v) :: r, a => if k = a then v else spGet r a

/-- The map without a key. -/
def spErase {w : Nat} : Sparse w → Nat → Sparse w
  | [], _ => []
  | (k, v) :: r, a => if k = a then spErase r a else (k, v) :: spErase r a

/-- The map with a key set: a value of 0 removes the entry. -/
def spSet {w : Nat} : Sparse w → Nat → BitVec w → Sparse w
  | [], a, x => if x = 0 then [] else [(a, x)]
  | (k, v) :: r, a, x =>
    if k < a then (k, v) :: spSet r a x
    else if x = 0 then spErase ((k, v) :: r) a
    else (a, x) :: spErase ((k, v) :: r) a

/-- The canonical form above a bound: keys strictly rising from `lo`, and no value 0. -/
def spWfFrom {w : Nat} : Nat → Sparse w → Bool
  | _, [] => true
  | lo, (k, v) :: r => decide (lo ≤ k) && decide (v ≠ 0) && spWfFrom (k + 1) r

/-- The canonical form: keys strictly rising, and no value 0. -/
def spWf {w : Nat} (m : Sparse w) : Bool := spWfFrom 0 m

/-- The canonical form of a memory. -/
abbrev Memory.wf (m : Memory) : Bool := spWf m

/-- n bytes from an address upward. -/
def getBytes (m : Memory) (a : Nat) : Nat → List Byte
  | 0 => []
  | n + 1 => spGet m a :: getBytes m (a + 1) n

/-- The bytes of a list stored from an address upward. -/
def setBytes (m : Memory) (a : Nat) : List Byte → Memory
  | [] => m
  | b :: bs => setBytes (spSet m a b) (a + 1) bs

/-- The number that bytes hold, the first byte lowest (R5). -/
def leNat : List Byte → Nat
  | [] => 0
  | b :: bs => b.toNat + 256 * leNat bs

/-- The n low bytes of a number, the lowest first (R5). -/
def leBytes : Nat → Nat → List Byte
  | 0, _ => []
  | n + 1, x => BitVec.ofNat 8 x :: leBytes n (x / 256)

/-- Cells (address, byte) set one after another. -/
def setCells (m : Memory) : List (Nat × Byte) → Memory
  | [] => m
  | (a, b) :: r => setCells (spSet m a b) r

/-- The cells of a list of bytes stored from an address upward. -/
def cellsFrom (a : Nat) : List Byte → List (Nat × Byte)
  | [] => []
  | b :: bs => (a, b) :: cellsFrom (a + 1) bs

end Sys2Proof.Machine
end

