-- ==== Sys2Proof/Machine/Agents.lean ====
section
/-!
DEFINITION. The registers, lanes and program counter of the running agent, the other agents, and the model's agenda.
-/
namespace Sys2Proof.Machine

/-- The machine goes on in the given state. -/
def goOn (s : State) : Result := .next s

/-! ### Registers -/

/-- A scalar register; s0 reads zero (R209). -/
def Thread.rdS (t : Thread) (r : Nat) : Word64 := if r = 0 then 0 else spGet t.sc.s r

/-- A scalar register written; a write to s0 is discarded (R209). -/
def Thread.wrS (t : Thread) (r : Nat) (x : Word64) : Thread :=
  if r = 0 then t else { t with sc := { t.sc with s := spSet t.sc.s r x } }

/-- A condition register; c0 reads true (R209). -/
def Thread.rdC (t : Thread) (r : Nat) : Bool := r = 0 || t.sc.c.getLsbD r

/-- A condition register written; a write to c0 is discarded (R209). -/
def Thread.wrC (t : Thread) (r : Nat) (b : Bool) : Thread :=
  if r = 0 then t
  else { t with sc := { t.sc with c := if b then t.sc.c ||| (1#8 <<< r) else t.sc.c &&& ~~~(1#8 <<< r) } }

/-- Register r of lane l (R15, R209). -/
def Thread.rdV (t : Thread) (r l : Nat) : Word32 := spGet t.ln.v (r * 64 + l)

/-- Register r of lane l written. -/
def Thread.wrV (t : Thread) (r l : Nat) (x : Word32) : Thread :=
  { t with ln := { t.ln with v := spSet t.ln.v (r * 64 + l) x } }

/-- Predicate p of lane l; p0 reads true (R209). -/
def Thread.rdP (t : Thread) (p l : Nat) : Bool := p = 0 || (spGet t.ln.p l).getLsbD p

/-- Predicate p of lane l written; a write to p0 is discarded (R209). -/
def Thread.wrP (t : Thread) (p l : Nat) (b : Bool) : Thread :=
  if p = 0 then t
  else
    { t with
      ln := { t.ln with
        p := spSet t.ln.p l (if b then spGet t.ln.p l ||| (1#8 <<< p) else spGet t.ln.p l &&& ~~~(1#8 <<< p)) } }

/-- The depth counter of lane l (R39). -/
def Thread.rdDc (t : Thread) (l : Nat) : BitVec 8 := spGet t.ln.dc l

/-- The flag register of lane l (R138). -/
def Thread.rdFlags (t : Thread) (l : Nat) : BitVec 5 := spGet t.ln.flags l

/-- Flags of lane l accumulated (R138). -/
def Thread.orFlags (t : Thread) (l : Nat) (f : BitVec 5) : Thread :=
  { t with ln := { t.ln with flags := spSet t.ln.flags l (spGet t.ln.flags l ||| f) } }

/-! ### Lanes -/

/-- How many lanes there are: the current width, of at most 64 (R15). -/
def Thread.nlanes (t : Thread) : Nat := min t.id.width 64

/-- The lanes of the current width, by LID. -/
def Thread.lanes (t : Thread) : List Nat := List.range t.nlanes

/-- Lane l is active under a guard: its dc is 0 and the guard is true in it (R39). -/
def Thread.active (t : Thread) (pg l : Nat) : Bool :=
  decide (l < t.nlanes) && decide (t.rdDc l = 0) && t.rdP pg l

/-- The active lanes under a guard, lowest first. -/
def Thread.activeLanes (t : Thread) (pg : Nat) : List Nat := t.lanes.filter (fun l => t.active pg l)

/-- A value written to register r of each lane of a list, computed by lane. -/
def Thread.wrLanes (t : Thread) (r : Nat) (f : Nat → Word32) : List Nat → Thread
  | [] => t
  | l :: ls => (t.wrV r l (f l)).wrLanes r f ls

/-- A bit written to predicate p of each lane of a list. -/
def Thread.wrPreds (t : Thread) (p : Nat) (f : Nat → Bool) : List Nat → Thread
  | [] => t
  | l :: ls => (t.wrP p l (f l)).wrPreds p f ls

/-- Flags accumulated in each lane of a list. -/
def Thread.orFlagLanes (t : Thread) (f : Nat → BitVec 5) : List Nat → Thread
  | [] => t
  | l :: ls => (t.orFlags l (f l)).orFlagLanes f ls

/-- A depth counter computed for each lane of a list. -/
def Thread.wrDcs (t : Thread) (f : Nat → BitVec 8) : List Nat → Thread
  | [] => t
  | l :: ls => { t with ln := { t.ln with dc := spSet t.ln.dc l (f l) } }.wrDcs f ls

/-- The launch position of the lane at LID 0 plus l (R19). -/
def Thread.launchLane (t : Thread) (l : Nat) : Nat := t.id.launchPos + l

/-- TID of lane l (R19): team index × launch width + launch position. A fused team keeps the lower team's index, and its upper
lanes run on into the next teams' positions. -/
def Thread.tid (t : Thread) (l : Nat) : Nat := t.id.team * t.id.launchWidth + t.id.launchPos + l

/-- SUBT (R19): the launch position of the lane at LID 0 counts from the first lane of that lane's own launch team. -/
def Thread.subt (t : Thread) : Nat := if t.id.width ≤ t.id.launchWidth then t.id.launchPos % t.id.launchWidth / t.id.width else 0

/-- HID of lane l: the physical hitch (R19). -/
def Thread.hid (t : Thread) (l : Nat) : Nat := t.id.hitch + l / 4

/-- The mask of a list of lanes (R182). -/
def laneMask (ls : List Nat) : Word64 := BitVec.ofNat 64 (maskOf ls)

/-! ### Anvils in service -/

/-- MAXM ÷ 8 of a core's Anvil: that of an engine with faulty rows, else the full 32 (R159). -/
def State.maxM8 (s : State) (isl core : Nat) : Nat :=
  ((s.panel.engines.find? (fun e => e.1 = isl && e.2.1 = core)).map (fun e => e.2.2)).getD Config.maxM8

/-- A core is offered to contexts: its engine is not withdrawn for a maximum M below 128 (R159). -/
def coreOffered (s : State) (isl core : Nat) : Bool := decide (16 ≤ s.maxM8 isl core)

/-! ### Program counter and hardware loops -/

/-- The first word of a loop's body (R49). -/
def Loop.first (l : Loop) : Word64 := l.last - BitVec.ofNat 64 (4 * (l.len - 1))

/-- Whether an address lies in a loop's body. -/
def Loop.covers (l : Loop) (a : Word64) : Bool := decide (l.first.toNat ≤ a.toNat) && decide (a.toNat ≤ l.last.toNat)

/-- The end check of R232 and R50 after the instruction at pc: from the innermost loop outward, up to the first that branches back. -/
def loopEnd (pc : Word64) : List Loop → List Loop × Option Word64
  | [] => ([], none)
  | l :: r =>
    if l.last = pc then
      if l.count.toNat > 1 then ({ l with count := l.count - 1 } :: r, some l.first)
      else loopEnd pc r
    else
      let q := loopEnd pc r
      (l :: q.1, q.2)

/-- The loops that remain after a taken branch to a target: it ends each loop whose body does not hold the target, and every loop
nested inside such a loop (R50). -/
def loopsAfterBranch (target : Word64) : List Loop → List Loop
  | [] => []
  | l :: r =>
    if (l :: r).all (fun x => x.covers target) then l :: r else loopsAfterBranch target r

/-- The hints attached to the instruction are used up (R334). -/
def Thread.dropHints (t : Thread) : Thread := { t with sc := { t.sc with hints := Hints.none } }

/-- The program counter set, with nothing done to the loops (CALL, CALLR, RET, trap entry: R50). -/
def Thread.goto (t : Thread) (a : Word64) : Thread := { t with sc := { t.sc with pc := a } }

/-- A taken branch or jump that acts on the loops (R50). -/
def Thread.jump (t : Thread) (a : Word64) : Thread :=
  { t with sc := { t.sc with pc := a, loops := loopsAfterBranch a t.sc.loops } }

/-- The end of an instruction that falls through: the loops are examined, and the pc moves on (R232). -/
def Thread.fall (t : Thread) : Thread :=
  let q := loopEnd t.sc.pc t.sc.loops
  { t with sc := { t.sc with pc := q.2.getD (t.sc.pc + 4), loops := q.1 } }

/-! ### The running agent and the others -/

/-- The running agent changed. -/
def State.updCur (s : State) (f : Thread → Thread) : State := { s with cur := f s.cur }

/-- All agents, the running one first. -/
def State.threads (s : State) : List Thread := s.cur :: s.others

/-- The agent with a handle. -/
def State.thread? (s : State) (u : Nat) : Option Thread := s.threads.find? (fun t => t.id.uid = u)

/-- Every agent changed. -/
def State.mapT (s : State) (f : Thread → Thread) : State := { s with cur := f s.cur, others := s.others.map f }

/-- The agent with a handle changed. -/
def State.updT (s : State) (u : Nat) (f : Thread → Thread) : State := s.mapT (fun t => if t.id.uid = u then f t else t)

/-- A step that the panel owes (guide: a List the step reads). -/
def State.owe (s : State) (e : Event) : State := { s with due := s.due ++ [e] }

/-- A step that the panel owes, unless it is owed already. -/
def State.oweOnce (s : State) (e : Event) : State := if s.due.contains e then s else s.owe e

/-- A step that comes before any other instruction. -/
def State.first (s : State) (e : Event) : State := { s with agenda := .event e :: s.agenda }

/-- A handle or free-value number of the model's own, with the counter advanced. -/
def State.take (s : State) : Nat × State := (s.fresh, { s with fresh := s.fresh + 1 })

/-- The panel time in ticks of 10 ns: 16 cycles of the core clock (R6, R16). -/
def State.time (s : State) : Nat := s.cycle / 16

/-- An instruction counted in its team's window; the window ends with its 4,096th (R65). -/
def State.count (s : State) : State :=
  let n := s.cur.sch.winCount + 1
  let s' := s.updCur (fun t => { t with sch := { t.sch with winCount := n } })
  if 4096 ≤ n ∧ s.cur.id.kind = .team then s'.first (.leaseWindowEnd s.cur.id.uid) else s'

/-- The end of an instruction that falls through to the next word. -/
def State.retire (s : State) : State := (s.updCur (fun t => t.fall.dropHints)).count

/-- The end of an instruction that transfers control, acting on the loops (R50). -/
def State.retireJump (s : State) (a : Word64) : State := (s.updCur (fun t => (t.jump a).dropHints)).count

/-- The end of an instruction that transfers control and leaves the loops (R50). -/
def State.retireGoto (s : State) (a : Word64) : State := (s.updCur (fun t => (t.goto a).dropHints)).count

/-- A scalar register of the running agent. -/
def State.rdS (s : State) (r : BitVec 6) : Word64 := s.cur.rdS r.toNat

/-- The state with a scalar register of the running agent written. -/
def State.wrS (s : State) (r : BitVec 6) (x : Word64) : State := s.updCur (fun t => t.wrS r.toNat x)

/-- The island whose memory the agent reaches: the hub's firmware memory is held as a pseudo-island of its own (R380). -/
def hubIsl : Nat := 200

/-- The island number that the memory operations use for an agent. -/
def Thread.mIsl (t : Thread) : Nat := match t.id.kind with
  | .hub => hubIsl
  | .team => t.id.isl
  | .carter => t.id.isl

/-- The die of a core (R14). -/
def dieOf (core : Nat) : Nat := core / 64

/-- Whether the agent is a live team: neither ended nor swapped out for good. -/
def Thread.live (t : Thread) : Bool := t.id.kind = .team && t.sch.life ≠ .ended

end Sys2Proof.Machine
end

