-- ==== Sys2Proof/Machine/Phys.lean ====
section
/-!
DEFINITION. Physical memory as the L2 shows it, page tables, walks, and the TLBs (R87-R92, R407).
-/
namespace Sys2Proof.Machine

/-! ### Cause codes (R179) -/

def causeIllegal : BitVec 16 := 0x0001
def causePriv : BitVec 16 := 0x0002
def causeUnmapped : BitVec 16 := 0x0003
def causePerm : BitVec 16 := 0x0004
def causeMisalign : BitVec 16 := 0x0005
def causeData : BitVec 16 := 0x0006
def causeAbsent : BitVec 16 := 0x0007
def causeDepth : BitVec 16 := 0x0008
def causeLoopDepth : BitVec 16 := 0x0009
def causeSplit : BitVec 16 := 0x000A
def causeSuccessor : BitVec 16 := 0x000B
def causeChainState : BitVec 16 := 0x000C
def causeShape : BitVec 16 := 0x000D
def causeWaybill : BitVec 16 := 0x000E
def causeFp : BitVec 16 := 0x000F
def causeBrk : BitVec 16 := 0x0010
def causeTrap : BitVec 16 := 0x0011
def causeMismatch : BitVec 16 := 0x0020
def causeMcast : BitVec 16 := 0x0040
def causeTile : BitVec 16 := 0x0041
def causeTagBusy : BitVec 16 := 0x0042
def causeColl : BitVec 16 := 0x0043
def causeXlate : BitVec 16 := 0x0080
def causeDenied : BitVec 16 := 0x0081
def causeTimeout : BitVec 16 := 0x0082
def causeTopology : BitVec 16 := 0x0083
def causeJoin : BitVec 16 := 0x0084
def causeRegion : BitVec 16 := 0x0085
def causeDouble : BitVec 16 := 0x00C0
def causeRecord : BitVec 16 := 0x00C1

/-- The class of a cause of class 0 or an asynchronous, fatal or terminal one (R178, R179). -/
def causeClass (c : BitVec 16) : Nat :=
  if c.toNat < 0x20 then 0 else if c.toNat < 0x40 then 1 else if c.toNat < 0x80 then 2 else if c.toNat < 0xC0 then 3 else 4

/-! ### Bytes at the L2 -/

/-- The key of a byte of an island's memory. -/
def memKey (isl pa : Nat) : Nat := isl * 2 ^ 48 + pa

/-- The key of a frame's record: its number among the 2 MiB frames of its island (R407). -/
def frameOf (pa : Nat) : Nat := pa / 2 ^ 21

/-- The record of a frame; a frame without one is unowned, not quarantined, with its key in place (R407). -/
def State.frame (s : State) (isl idx : Nat) : FrameInfo :=
  (s.frameInfo.find? (fun f => f.isl = isl && f.idx = idx)).getD
    { isl := isl, idx := idx, owner := 0, q := false, lost := false }

/-- A frame's record written; one equal to the unowned record is not listed. -/
def State.setFrame (s : State) (f : FrameInfo) : State :=
  let r := s.frameInfo.filter (fun g => !(g.isl = f.isl && g.idx = f.idx))
  { s with
    frameInfo := if f.owner = 0 ∧ f.q = false ∧ f.lost = false then r else f :: r }

/-- A byte as the L2 holds it. A byte of a frame whose key is lost, not written since, is meaningless (R408; log 14). -/
def State.physGet (s : State) (isl pa : Nat) : Byte :=
  if isl = hubIsl then spGet s.hubMem pa
  else
    let b := spGet s.mem (memKey isl pa)
    if b = 0 ∧ s.frameInfo.any (fun f => f.isl = isl && f.idx = frameOf pa && f.lost) then Config.freeByte (memKey isl pa) else b

/-- Scope code .i (R214). -/
def scopeI : Nat := 2

/-- n bytes as the L2 holds them. -/
def State.physBytes (s : State) (isl pa : Nat) : Nat → List Byte
  | 0 => []
  | n + 1 => s.physGet isl pa :: s.physBytes isl (pa + 1) n

/-- The number in n bytes. -/
def State.physNat (s : State) (isl pa n : Nat) : Nat := leNat (s.physBytes isl pa n)

/-- Cells written at the L2, with no counting. -/
def State.physSet (s : State) (isl : Nat) (cs : List (Nat × Byte)) : State :=
  if isl = hubIsl then { s with hubMem := setCells s.hubMem cs }
  else { s with mem := setCells s.mem (cs.map (fun c => (memKey isl c.1, c.2))) }

/-- The key of a byte of a typed store (R77): spaces 1 SP, 2 AB, 3 WB, and 4 CB with 8 bytes a slot. -/
def storeKey (isl core space off : Nat) : Nat := ((isl * 256 + core) * 8 + space) * 2 ^ 24 + off

/-- A byte of a typed store, at a physical offset. -/
def State.storeGet (s : State) (isl core space off : Nat) : Byte := spGet s.stores (storeKey isl core space off)

/-- n bytes of a typed store. -/
def State.storeBytes (s : State) (isl core space off n : Nat) : List Byte := getBytes s.stores (storeKey isl core space off) n

/-- A CB slot: its 56-bit accumulator (R78). -/
def State.cbSlot (s : State) (isl core slot : Nat) : BitVec 56 :=
  BitVec.ofNat 56 (leNat (s.storeBytes isl core 4 (8 * slot) 8))

/-! ### Contexts -/

/-- A context on an island. -/
def State.ctx? (s : State) (isl ctx : Nat) : Option CtxIsl := s.ctxs.find? (fun c => c.isl = isl && c.ctx = ctx)

/-- The record of an island's registers; an island without one is at its reset values. -/
def State.island (s : State) (isl : Nat) : Island :=
  (s.islands.find? (fun i => i.isl = isl)).getD (Island.reset isl)

/-- An island's record written. -/
def State.setIsland (s : State) (i : Island) : State :=
  { s with islands := i :: s.islands.filter (fun j => j.isl ≠ i.isl) }

/-- An island's record changed. -/
def State.updIsland (s : State) (isl : Nat) (f : Island → Island) : State := s.setIsland (f (s.island isl))

/-! ### Energy (R402, R403) -/

/-- What an island has charged. -/
def State.meter (s : State) (isl : Nat) : Meter := (s.meters.find? (fun m => m.isl = isl)).getD (Meter.reset isl)

/-- What an island has charged, written. -/
def State.setMeter (s : State) (m : Meter) : State := { s with meters := m :: s.meters.filter (fun x => x.isl ≠ m.isl) }

/-- An amount in femtojoules added to a counter of pJ, with the fraction carried under a key (R402). -/
def addEnergy (frac cnt : Sparse 64) (k j fj : Nat) : Sparse 64 × Sparse 64 :=
  let f := (spGet frac k).toNat + fj
  (spSet frac k (BitVec.ofNat 64 (f % 1000)), spSet cnt j (spGet cnt j + BitVec.ofNat 64 (f / 1000)))

/-- Activity of a function, in femtojoules: one that passes its cap within a window is cut until the window ends (R402, R403). -/
def Meter.charge (m : Meter) (cap : Word64) (fn fj : Nat) : Meter :=
  let a := addEnergy m.fraction m.energy fn fn fj
  let w := spGet m.winEnergy fn + (spGet a.2 fn - spGet m.energy fn)
  { m with
    fraction := a.1, energy := a.2, winEnergy := spSet m.winEnergy fn w
    cut := if cap.toNat ≠ 0 ∧ cap.toNat * 1000000 < w.toNat ∧ !m.cut.contains fn then fn :: m.cut else m.cut }

/-- Activity of a context slot, in femtojoules (R402). -/
def Meter.chargeSlot (m : Meter) (slot fj : Nat) : Meter :=
  let b := addEnergy m.fraction m.ctxen (32 + slot) slot fj
  { m with fraction := b.1, ctxen := b.2 }

/-- Activity charged to a context and to its function; what belongs to no context is function 0's (R402). The hub is no island. -/
def charge (s : State) (isl ctx fj : Nat) : State :=
  if isl = hubIsl then s
  else
    let c := s.ctx? isl ctx
    let fn := (c.map (fun c => c.fn)).getD 0
    let m := (s.meter isl).charge (spGet (s.island isl).ecap fn) fn fj
    let m' := match c with
      | none => m
      | some x => m.chargeSlot x.slot fj
    s.setMeter { m' with moves := m'.moves + 1 }

/-- Bytes moved at the L2, with those that the transfer moves across UCIe and at the HBM, which the caches decide (R402; log 16). -/
def l2Used (s : State) (isl ctx n : Nat) : State :=
  let far := Config.farBytes isl (s.meter isl).moves
  charge s isl ctx (2000 * n + 2500 * far.1 + 14000 * far.2)

/-- Bytes moved at a core store (R402). -/
def storeUsed (s : State) (isl ctx n : Nat) : State := charge s isl ctx (400 * n)

/-- The bytes that an optical frame sends, charged at its source (R172, R402). -/
def sendUsed (s : State) (isl ctx : Nat) : State := charge s isl ctx (12000 * 512)

/-! ### The host's side of an event (R362, R378, R414, R421) -/

/-- The panel's firmware serves requests: the ROM loader does not wait in recovery (R415). -/
def inService (s : State) : Bool := !s.panel.recovery

/-- A function's registers. -/
def State.fnRegs (s : State) (fn : Nat) : FnRegs :=
  (s.fns.find? (fun x => x.fn = fn)).getD
    { fn := fn, hcpsel := 0, accepted := false, mbreq := 0, busy := false, done := false, evbase := 0, evcount := 0, mbvec := 0,
      msix := [], table := [], unmasked := 0, pending := 0 }

/-- A function's registers written. -/
def State.setFn (s : State) (x : FnRegs) : State := { s with fns := x :: s.fns.filter (fun y => y.fn ≠ x.fn) }

/-- Bytes written to host memory. -/
def hostPut (s : State) (a : Nat) (bs : List Byte) : State := { s with hostMem := setBytes s.hostMem a bs }

/-- An MSI-X message sent on a vector of a function; a masked vector is pending instead (R362, R378; PRESUMED, log 42). -/
def sendMsix (s : State) (fn vec : Nat) : State :=
  let r := s.fnRegs fn
  if r.unmasked.getLsbD vec then s.setFn { r with msix := r.msix ++ [vec] } else s.setFn { r with pending := r.pending ||| (1 <<< vec) }

/-- An event of 64 bytes written to a function's ring of 64 slots (R414, R421). -/
def postEvent (s : State) (fn code visl ctx : Nat) (ws : List Word64) : State :=
  let r := s.fnRegs fn
  let d0 : Nat := code + visl * 2 ^ 8 + ctx * 2 ^ 16
  let body := leBytes 8 d0 ++ ws.flatMap (fun w => leBytes 8 w.toNat)
  let s1 := hostPut s (r.evbase.toNat + 64 * (r.evcount.toNat % 64)) ((body ++ List.replicate 64 0).take 64)
  sendMsix (s1.setFn { s1.fnRegs fn with evcount := r.evcount + 1 }) fn r.mbvec.toNat

/-! ### Page tables -/

/-- A line is in the bad-line table, or lies in a quarantined frame (R413). -/
def lineBad (s : State) (isl line : Nat) : Bool :=
  isl ≠ hubIsl && ((s.island isl).blt.any (fun b => b.2 = line) || (s.frame isl (frameOf (line * 128))).q)

/-- An uncorrectable line enters the table of its die, UECNT rises and UE_LINE is posted; where the table is full its frame goes into quarantine (R413,
R418, R420, R421). -/
def badLine (s : State) (isl line : Nat) : State :=
  let i := s.island isl
  let die := Config.sliceHash line % 8
  if i.blt.any (fun b => b.2 = line) then s
  else if (i.blt.filter (fun b => b.1 = die)).length < 64 then
    let s1 := s.setIsland { i with blt := i.blt ++ [(die, line)], uecnt := i.uecnt + 1 }
    if inService s1 then postEvent s1 0 0x82 isl 0 [BitVec.ofNat 64 die, BitVec.ofNat 64 (128 * line)] else s1
  else s.setFrame { s.frame isl (frameOf (128 * line)) with q := true }

/-- How an address is used. -/
inductive Acc where
  | fetch
  | read
  | write
  deriving DecidableEq, Repr

/-- The outcome of a walk. -/
inductive WalkOut where
  | leaf (pbase size vbase entry : Nat) (pte : Nat)
  | absent
  | notPresent
  | malformed
  | bad
  deriving DecidableEq, Repr

/-- Bytes that a leaf of a level maps (R87). -/
def pageSize (level : Nat) : Nat := 2 ^ (12 + 9 * level)

/-- The physical address in an entry (R88). -/
def ptePa (p : Nat) : Nat := bitsOf p 47 12 * 4096

/-- A valid entry is malformed at a level (R89). -/
def pteBad (p level : Nat) : Bool :=
  decide (bitsOf p 58 48 ≠ 0) || decide (bitsOf p 10 9 ≥ 2) || (bitOf p 1 && decide (level ≥ 3)) || (!bitOf p 1 && decide (level = 0))
  || (!bitOf p 1 && decide (bitsOf p 11 2 ≠ 0)) || (bitOf p 1 && bitOf p 6 && decide (level = 1))
  || (bitOf p 1 && decide (ptePa p % pageSize level ≠ 0))
  || decide (ptePa p + (if bitOf p 1 then pageSize level else 4096) > Config.islandBytes)

/-- The fields of an entry that a contiguous page shares: all but SW, PA, D and A (R90). -/
def pteShared (p : Nat) : Nat := bitsOf p 58 48 * 4096 + p % 4096 - bitsOf p 8 7 * 128

/-- The entries of an aligned contiguous set form one page: PA in steps from an aligned base, and other fields equal (R90). -/
def contigOk (ps : List Nat) (step : Nat) : Bool :=
  decide (ptePa (ps.headD 0) % (step * ps.length) = 0)
  && (List.range ps.length).all (fun k =>
    decide (ptePa (ps.getD k 0) = ptePa (ps.headD 0) + k * step) && decide (pteShared (ps.getD k 0) = pteShared (ps.headD 0)))

/-- A leaf entry with C set: its set makes one page, or any one of its entries translates (R90; `ch` is the free choice). -/
def walkContig (s : State) (isl level table idx va ch : Nat) : WalkOut :=
  let n := if level = 0 then 16 else 4
  let i0 := idx / n * n
  let ps := (List.range n).map (fun k => s.physNat isl (table + 8 * (i0 + k)) 8)
  let step := pageSize level
  if contigOk ps step then
    .leaf (ptePa (ps.headD 0)) (n * step) (va / (n * step) * (n * step)) (table + 8 * idx) (ps.getD (idx - i0) 0)
  else
    let k := ch % n
    let p := ps.getD k 0
    if !bitOf p 0 then (if bitOf p 11 then .notPresent else .absent)
    else if pteBad p level || !bitOf p 1 then .malformed
    else .leaf (ptePa p) step (va / step * step) (table + 8 * (i0 + k)) p

/-- The walk from a table at a level down (R87-R90). An entry on a line known to be bad is not read (R413). -/
def walk (s : State) (isl va ch : Nat) : Nat → Nat → WalkOut
  | 0, table =>
    let idx := va / 2 ^ 12 % 512
    let p := s.physNat isl (table + 8 * idx) 8
    if lineBad s isl ((table + 8 * idx) / 128) then .bad
    else if !bitOf p 0 then (if bitOf p 11 then .notPresent else .absent)
    else if pteBad p 0 then .malformed
    else if bitOf p 6 then walkContig s isl 0 table idx va ch
    else .leaf (ptePa p) (pageSize 0) (va / pageSize 0 * pageSize 0) (table + 8 * idx) p
  | n + 1, table =>
    let idx := if n = 4 then va / 2 ^ 57 % 128 else va / pageSize (n + 1) % 512
    let p := s.physNat isl (table + 8 * idx) 8
    if lineBad s isl ((table + 8 * idx) / 128) then .bad
    else if !bitOf p 0 then (if bitOf p 11 then .notPresent else .absent)
    else if pteBad p (n + 1) then .malformed
    else if !bitOf p 1 then walk s isl va ch n (ptePa p)
    else if bitOf p 6 then walkContig s isl (n + 1) table idx va ch
    else .leaf (ptePa p) (pageSize (n + 1)) (va / pageSize (n + 1) * pageSize (n + 1)) (table + 8 * idx) p

/-- Whether a context other than 0 may reach every frame of a range (R407). -/
def reachOk (s : State) (isl ctx : Nat) (prot : Bool) (pbase size : Nat) : Bool :=
  let lo := frameOf pbase
  let hi := frameOf (pbase + size - 1)
  (s.frameInfo.all (fun f =>
    !(f.isl = isl && decide (lo ≤ f.idx) && decide (f.idx ≤ hi)) || (!f.q && (decide (f.owner = 0) || decide (f.owner = ctx)))))
  && (!prot || (List.range (hi + 1 - lo)).all (fun k => decide ((s.frame isl (lo + k)).owner = ctx)))

/-- The entries that a walk reads, down to a leaf or to the entry at which it fails (R87, R402). -/
def walkReads (s : State) (isl va : Nat) : Nat → Nat → Nat
  | 0, _ => 1
  | n + 1, table =>
    let e := table + 8 * (if n = 4 then va / 2 ^ 57 % 128 else va / pageSize (n + 1) % 512)
    let p := s.physNat isl e 8
    if lineBad s isl (e / 128) || !bitOf p 0 || pteBad p (n + 1) || bitOf p 1 then 1 else 1 + walkReads s isl va n (ptePa p)

/-- The bytes that a walk of a context's tables for an address reads at the L2, 8 for each entry, charged (R402). -/
def walkUsed (s : State) (isl ctx va : Nat) : State :=
  match s.ctx? isl ctx with
  | none => s
  | some c => l2Used s isl ctx (8 * walkReads s isl va 5 c.root)

/-- A walk of a context's tables for an address, with the check of R407: an unreachable frame makes the page absent. -/
def walkCtx (s : State) (c : CtxIsl) (va : Nat) : WalkOut :=
  match walk s c.isl va (Config.freeChoice s.fresh) 5 c.root with
  | .leaf pb sz vb e p => if reachOk s c.isl c.ctx c.prot pb sz then .leaf pb sz vb e p else .absent
  | .absent => .absent
  | .notPresent => .notPresent
  | .malformed => .malformed
  | .bad => .bad

/-- The address of the control block of every island (R399). -/
def ctrlBase : Nat := 0xFF0000000000

/-- The bytes of a control block. -/
def ctrlSize : Nat := 65536

/-- Where an address of a context lies, with nothing changed by looking: for context 0 the address itself (R383), else by a walk. -/
def peek (s : State) (isl ctx va : Nat) : Option Nat :=
  if isl = hubIsl then some va
  else if ctx = 0 then (if va < Config.islandBytes then some va else none)
  else match s.ctx? isl ctx with
    | none => none
    | some c => match walkCtx s c va with
      | .leaf pb _ vb _ _ => some (pb + (va - vb))
      | .absent => none
      | .notPresent => none
      | .malformed => none
      | .bad => none

/-- The walker's setting of A, and of D on a write (R91): the entry's 8 bytes at the L2 where a bit changes (R402; log 16). -/
def setAD (s : State) (isl ctx entry : Nat) (wr : Bool) : State :=
  let a := s.physGet isl entry
  let d := s.physGet isl (entry + 1)
  let s1 := if a.getLsbD 7 && (!wr || d.getLsbD 0) then s else l2Used s isl ctx 8
  s1.physSet isl [(entry, a ||| 0x80), (entry + 1, if wr then d ||| 1 else d)]

/-- The leaf that an access of the island's own units uses: with its entry and its W bit, or none (R87, R89). -/
def leafOf (s : State) (isl ctx va : Nat) : Option (Nat × Bool) :=
  if isl = hubIsl || ctx = 0 then none
  else match s.ctx? isl ctx with
    | none => none
    | some c => match walkCtx s c va with
      | .leaf _ _ _ e p => some (e, bitOf p 2)
      | .absent => none
      | .notPresent => none
      | .malformed => none
      | .bad => none

/-- The walk of an access that a unit of the island makes at an address of a context, where `peek` finds its place: A and D set (R91). -/
def markAD (s : State) (isl ctx va : Nat) (wr : Bool) : State :=
  match leafOf s isl ctx va with
  | none => walkUsed s isl ctx va
  | some l => setAD (walkUsed s isl ctx va) isl ctx l.1 wr

/-- Whether a unit's write at an address of a context is allowed by the leaf (R89). -/
def leafWrites (s : State) (isl ctx va : Nat) : Bool := ((leafOf s isl ctx va).map (fun l => l.2)).getD true

/-! ### TLBs -/

/-- The outcome of a translation. -/
inductive Xl where
  | ok (pa mt : Nat)
  | fault (cause : BitVec 16)
  | notPresent
  deriving DecidableEq, Repr

/-- An entry of a TLB that maps an address of a context (R92). -/
def tlbFind (s : State) (isl unit ctx va : Nat) : Option TlbEntry :=
  s.tlb.find? (fun e => e.isl = isl && e.unit = unit && e.ctx = ctx && decide (e.vbase ≤ va) && decide (va < e.vbase + e.size))

/-- A list without its k-th element that meets a test. -/
def dropNth {α : Type} (p : α → Bool) : Nat → List α → List α
  | _, [] => []
  | k, x :: r => if p x then (match k with | 0 => r | k' + 1 => x :: dropNth p k' r) else x :: dropNth p k r

/-- An entry put into its TLB; a full TLB first drops an entry of the hardware's choice (R92; log 7). R92 gives no size for the ingress MMU: it
has the 8,192 entries of a die's TLB here (DESIGN CHOICE, log 7). -/
def tlbPut (s : State) (e : TlbEntry) : State :=
  let same := fun (x : TlbEntry) => x.isl = e.isl && x.unit = e.unit
  let n := (s.tlb.filter same).length
  let cap := if e.unit < 128 then 64 else 8192
  if n < cap then { s with tlb := e :: s.tlb }
  else { s with tlb := e :: dropNth same (Config.freeChoice s.fresh % n) s.tlb, fresh := s.fresh + 1 }

/-- A found entry used by an access: the permissions, and D set by the first write (R89, R91). -/
def tlbUse (s : State) (e : TlbEntry) (acc : Acc) (va : Nat) : State × Xl :=
  if acc = .write ∧ !e.w then (s, .fault causePerm)
  else if acc = .fetch ∧ !e.x then (s, .fault causePerm)
  else
    let out := Xl.ok (e.pbase + (va - e.vbase)) e.mt
    if acc = .write ∧ !e.d then
      let s' := { s with tlb := s.tlb.map (fun (x : TlbEntry) =>
        if x.isl = e.isl ∧ x.unit = e.unit ∧ x.ctx = e.ctx ∧ x.vbase = e.vbase ∧ x.entryKey = e.entryKey then { x with d := true } else x) }
      let b := s'.physGet e.isl (e.entryKey + 1)
      ((l2Used s' e.isl e.ctx 8).physSet e.isl [(e.entryKey + 1, b ||| 1)], out)
    else (s, out)

/-- Translation of an address through a core's TLB (`unit` below 128), a die's (128, 129) or the ingress MMU's (130), with the walk on
a miss (R87-R92). Context 0 and the hub cores map every address to itself (R380, R383). -/
def translate (s : State) (isl unit ctx : Nat) (va : Nat) (acc : Acc) : State × Xl :=
  if isl = hubIsl then (s, .ok va 0)
  else if ctx = 0 then
    (if va < Config.islandBytes then (s, if acc = .fetch then .fault causePerm else .ok va 0) else (s, .fault causeUnmapped))
  else match tlbFind s isl unit ctx va with
    | some e => tlbUse s e acc va
    | none =>
      let die := if unit < 128 then 128 + dieOf unit else unit
      match (if unit < 128 then tlbFind s isl die ctx va else none) with
      | some e => tlbUse (tlbPut s { e with unit := unit }) { e with unit := unit } acc va
      | none =>
        match s.ctx? isl ctx with
        | none => (s, .fault causeUnmapped)
        | some c =>
          let s0 := walkUsed s isl ctx va
          match walkCtx s c va with
          | .absent => (s0, .fault causeUnmapped)
          | .malformed => (s0, .fault causeUnmapped)
          | .bad => (s0, .fault causeData)
          | .notPresent => (s0, .notPresent)
          | .leaf pb sz vb e p =>
            if acc = .write ∧ !bitOf p 2 then (s0, .fault causePerm)
            else if acc = .fetch ∧ !bitOf p 3 then (s0, .fault causePerm)
            else
              let s1 := setAD s0 isl ctx e (acc = .write)
              let ent : TlbEntry :=
                { isl := isl, unit := unit, ctx := ctx, vbase := vb, size := sz, pbase := pb, entryKey := e, w := bitOf p 2,
                  x := bitOf p 3, re := bitOf p 4, pin := bitOf p 5, mt := bitsOf p 10 9, d := bitOf p 8 || acc = .write }
              let s2 := tlbPut s1 ent
              (if unit < 128 then tlbPut s2 { ent with unit := die } else s2, .ok (pb + (va - vb)) (bitsOf p 10 9))

end Sys2Proof.Machine
end

