-- ==== Sys2Proof/Machine/Arrive.lean ====
section
/-!
DEFINITION. What a write that completes at the L2 or at a store controller brings about: arrival counters and their firing
(R125-R130), watched words (R291, R372), ready words (R174), group barriers (R267), yard readiness (R154) and heat requests (R401).
-/
namespace Sys2Proof.Machine

/-! ### Heat -/

/-- A request joins a Hearth's queue (R401); the Hearth then looks at its queue. -/
def heatRequest (s : State) (isl : Nat) (r : HeatReq) : State :=
  (s.updIsland isl (fun i => { i with reqs := i.reqs ++ [r] })).oweOnce (.heatGrant isl)

/-- Units return to a Hearth (R401). -/
def heatReturn (s : State) (isl units : Nat) : State :=
  if units = 0 then s else (s.updIsland isl (fun i => { i with held := i.held - units })).oweOnce (.heatGrant isl)

/-- A request leaves a Hearth's queue without a grant. -/
def heatCancel (s : State) (isl kind who : Nat) : State :=
  s.updIsland isl (fun i => { i with reqs := i.reqs.filter (fun r => !(r.kind = kind && r.who = who)) })

/-! ### Wakes -/

/-- The unsigned comparison of a wait: at least, or at most (R290). -/
def waitHolds (atMost : Bool) (x v : Word64) : Bool := if atMost then decide (x.toNat ≤ v.toNat) else decide (v.toNat ≤ x.toNat)

/-- A phase has passed when (P − p) mod 2^32 lies between 1 and 2^31 − 1 (R268). -/
def phasePassed (p q : BitVec 32) : Bool := decide ((p - q).toNat ≠ 0) && decide ((p - q).toNat < 2 ^ 31)

/-- The wait of each of a list of agents has held, and each is owed a wake (R73). -/
def oweWakes (s : State) (us : List Nat) : State :=
  if us = [] then s
  else us.foldl (fun s u => s.oweOnce (.teamWake u))
    (s.mapT (fun t => if us.contains t.id.uid then { t with sch := { t.sch with woken := true } } else t))

/-- What the woken agents of a list acquire before they continue: bytes at .i, after those of an earlier wake that has not come about; `sync` says that the wake is an
acquire at whatever scope (R108). -/
def wakeWith (s : State) (us : List Nat) (f : Thread → List (Nat × Nat)) (sync : Bool) : State :=
  s.mapT (fun t => if us.contains t.id.uid
    then { t with sch := { t.sch with wakeRegs := (f t ++ t.sch.wakeRegs).eraseDups, wakeSync := t.sch.wakeSync || sync } } else t)

/-- The handles of the agents that meet a test. -/
def State.uidsOf (s : State) (p : Thread → Bool) : List Nat := (s.threads.filter p).map (fun t => t.id.uid)

/-- The parked agents whose watched word or timeline holds now, for a write of some cells of an island (R291). -/
def watchers (s : State) (isl : Nat) (cs : List (Nat × Byte)) : List Nat :=
  s.uidsOf (fun t =>
    let hit := fun (key : Nat) (v : Word64) (m : Bool) =>
      cs.any (fun c => decide (key ≤ memKey isl c.1) && decide (memKey isl c.1 < key + 8))
        && waitHolds m (BitVec.ofNat 64 (s.physNat isl (key - memKey isl 0) 8)) v
    t.id.isl = isl && match t.sch.park with
      | .word _ key v m _ _ => hit key v m
      | .timeline _ key v m _ _ => hit key v m
      | .none => false
      | .counter _ _ _ _ => false
      | .launch => false
      | .fuse _ _ _ _ => false
      | .group _ _ _ _ => false
      | .arrive _ _ => false
      | .yard => false
      | .page _ => false)

/-- The wait-for conditions of launches that a write of some cells makes hold; a condition that holds stays held (R372). -/
def holdWaits (s : State) (isl : Nat) (cs : List (Nat × Byte)) : State :=
  let upd := fun (l : Launch) =>
    if l.st ≠ 0 then l
    else
      { l with
        waits := l.waits.map (fun (w : WaitSlot) =>
          if w.held || w.isl ≠ isl then w
          else match peek s isl l.ctx w.va.toNat with
            | none => w
            | some pa =>
              if cs.any (fun c => decide (pa ≤ c.1) && decide (c.1 < pa + 8))
                && !lineBad s isl (pa / 128) && waitHolds false (BitVec.ofNat 64 (s.physNat isl pa 8)) w.val then { w with held := true } else w) }
  let ls := s.launches.map upd
  let ready := (ls.filter (fun l => l.st = 0 && !l.waits.isEmpty && l.waits.all (fun w => w.held))).map (fun l => l.uid)
  ready.foldl (fun s u => s.oweOnce (.launchDispatch u)) { s with launches := ls }

/-! ### Group barriers -/

/-- A group-table entry on an island (R30). -/
def State.group? (s : State) (isl ctx e : Nat) : Option Group :=
  s.groups.find? (fun g => g.isl = isl && g.ctx = ctx && g.entry = e)

/-- A group-table entry written. -/
def State.setGroup (s : State) (g : Group) : State :=
  { s with groups := s.groups.map (fun h => if h.isl = g.isl ∧ h.ctx = g.ctx ∧ h.entry = g.entry then g else h) }

/-- The member teams of an entry on its island, each once: (handle of the task, team index); a record not yet pushed has no handle, given as 0. -/
def groupMembers (s : State) (g : Group) : List (Nat × Nat) :=
  (g.members.flatMap (fun m =>
    let u := ((s.tasks.find? (fun k => k.launch = g.launch && k.recIdx = some m.1)).map (fun k => k.uid)).getD 0
    (List.range m.2.2).map (fun j => (u, m.2.1 + j)))).eraseDups

/-- A member team has exited: every team of its task has, or it is among the exited teams (R32). -/
def memberExited (s : State) (m : Nat × Nat) : Bool :=
  s.tasks.any (fun k => k.uid = m.1 && (k.released || k.exited.contains m.2))

/-- The live agents that cover a member team: its subteams, or the fused team that holds it (R32, R271). -/
def memberTeams (s : State) (m : Nat × Nat) : List Thread :=
  s.threads.filter (fun t => t.live && t.id.task = m.1 && t.id.covers.contains m.2)

/-- A member team has arrived: every live agent that covers it has (R32, R271). -/
def memberArrived (s : State) (g : Group) (m : Nat × Nat) : Bool :=
  g.settled.contains m || (!(memberTeams s m).isEmpty && (memberTeams s m).all (fun t => g.arrived.contains t.id.uid))

/-- Phase P of a barrier is complete (R267). -/
def phaseDone (s : State) (g : Group) : Bool :=
  (groupMembers s g).all (fun m => memberExited s m || memberArrived s g m) && decide (g.ext ≤ g.extCount)

/-- The agents that wait on an entry's barrier and may go on at its phase. -/
def groupWaiters (s : State) (g : Group) : List Nat :=
  s.uidsOf (fun t => t.id.isl = g.isl && t.id.ctx = g.ctx && match t.sch.park with
    | .group e p _ _ => e = g.entry && phasePassed g.phase p
    | .arrive e p => e = g.entry && phasePassed g.phase p
    | .none => false
    | .word _ _ _ _ _ _ => false
    | .timeline _ _ _ _ _ _ => false
    | .counter _ _ _ _ => false
    | .launch => false
    | .fuse _ _ _ _ => false
    | .yard => false
    | .page _ => false)

/-- A member that leaves a barrier acquires: counters arrive at it (R108, R267). -/
def Group.syncs (g : Group) : Bool := g.regs ≠ [] || decide (0 < g.ext)

/-- A barrier looked at after an arrival: a complete phase advances P, clears the arrived bits, takes E from X and wakes (R267). Each member that
leaves acquires the bytes of the counters that have arrived (R108). -/
def groupLook (s : State) (g : Group) : State :=
  if phaseDone s g then
    let g' := { g with phase := g.phase + 1, arrived := [], settled := [], extCount := g.extCount - g.ext }
    let s' := s.setGroup g'
    oweWakes (if g.syncs then wakeWith s' (groupWaiters s' g') (fun _ => g.regs) true else s') (groupWaiters s' g')
  else s

/-- An agent arrives in the current phase (R268). -/
def groupArrive (s : State) (g : Group) (uid : Nat) : State :=
  let g' := { g with arrived := uid :: g.arrived }
  groupLook (s.setGroup g') g'

/-- An external arrival, or none where the island holds the entry for no live launch (R130, R267); `regs` are the bytes that the members acquire at
.i (R108). -/
def groupExternal (s : State) (isl ctx e : Nat) (regs : List (Nat × Nat)) : State :=
  match s.group? isl ctx e with
  | none => s
  | some g =>
    let g' := { g with extCount := g.extCount + 1, regs := (regs ++ g.regs).eraseDups }
    groupLook (s.setGroup g') g'

/-- Every barrier of a launch on an island looked at, after an exit or a change of width (R271). -/
def groupRecheck (s : State) (isl launch : Nat) : State :=
  (s.groups.filter (fun g => g.isl = isl && g.launch = launch)).foldl (fun s g => groupLook s g) s

/-! ### The yard -/

/-- The counter of a core (0 to 127) or of the island (128) with an index. -/
def State.counter? (s : State) (isl core idx : Nat) : Option Counter :=
  s.counters.find? (fun c => c.isl = isl && c.core = core && c.idx = idx)

/-- A counter written. -/
def State.setCounter (s : State) (c : Counter) : State :=
  { s with counters := c :: s.counters.filter (fun d => !(d.isl = c.isl && d.core = c.core && d.idx = c.idx)) }

/-- Every counter that a dependency mask names has its fired bit set (R154). -/
def maskFired (s : State) (isl core : Nat) (mask : BitVec 32) : Bool :=
  (List.range 32).all (fun i => !mask.getLsbD i || ((s.counter? isl core i).map (fun c => c.fired)).getD false)

/-- A yard entry becomes ready and requests heat (R70, R154, R401). -/
def chainReady (s : State) (c : Chain) : State :=
  let y := s.yard.map (fun (d : Chain) => if d.uid = c.uid then { d with st := .wantsHeat } else d)
  heatRequest { s with yard := y } c.isl
    { kind := 0, who := c.uid, units := 1, prio := c.prio }

/-- The yard of a core looked at: each waiting entry whose counters have fired becomes ready, earliest MCHE first. -/
def yardLook (s : State) (isl core : Nat) : State :=
  (s.yard.filter (fun c => c.isl = isl && c.core = core && c.st = .waiting && maskFired s isl core c.mask)).foldl chainReady s

/-! ### Arrival counters -/

/-- The agents parked on a counter (R291). -/
def counterWaiters (s : State) (c : Counter) : List Nat :=
  s.uidsOf (fun t => t.id.isl = c.isl && match t.sch.park with
    | .counter glob i _ _ => i = c.idx && glob = decide (c.core = 128) && (glob || t.id.core = c.core)
    | .none => false
    | .word _ _ _ _ _ _ => false
    | .timeline _ _ _ _ _ _ => false
    | .launch => false
    | .fuse _ _ _ _ => false
    | .group _ _ _ _ => false
    | .arrive _ _ => false
    | .yard => false
    | .page _ => false)

/-- The counter word that names a counter (R294). -/
def counterWord (c : Counter) : Nat := c.idx + (if c.core = 128 then 2 ^ 15 else 0)

/-- The bytes that an acquire of a firing counter at .i drops: those that it counts in global memory (R103, R108). -/
def counterRegs (c : Counter) : List (Nat × Nat) := if c.scope = scopeI ∧ c.store = 0 then c.regs else []

/-- What an agent that a firing counter wakes acquires at .i: by the acquire of its wait, or by WAKE (R108, R291). -/
def firedRegs (c : Counter) (t : Thread) : List (Nat × Nat) :=
  match t.sch.park with
  | .counter _ _ acq sc => if c.store = 0 ∧ ((acq ∧ sc = scopeI) ∨ (c.action = 5 ∧ c.scope = scopeI)) then c.regs else []
  | .none => []
  | .word _ _ _ _ _ _ => []
  | .timeline _ _ _ _ _ _ => []
  | .launch => []
  | .fuse _ _ _ _ => []
  | .group _ _ _ _ => []
  | .arrive _ _ => []
  | .yard => []
  | .page _ => []

/-- The action of a firing counter (R130). The write of SETW, the push of TASK and the message of CARTER are owed steps. A SETW whose ARG does
not translate, or whose page lacks W, writes nothing (DESIGN CHOICE, log 40). -/
def counterAct (s : State) (c : Counter) : State :=
  if c.action = 1 then
    match peek s c.isl c.ctx c.arg.toNat with
    | none => s
    | some pa =>
      if leafWrites s c.isl c.ctx c.arg.toNat then s.owe (.writeArrival 0 c.isl 128 pa (leBytes 8 c.val.toNat) c.ctx c.arg.toNat) else s
  else if c.action = 2 then groupExternal s c.isl c.ctx (c.arg.toNat % 256) (counterRegs c)
  else if c.action = 3 then
    let (u, s') := s.take
    let p : Push :=
      { uid := u, isl := c.isl, ctx := c.ctx, addr := c.arg, source := 2, sub := c.core * 4096 + c.idx, launch := c.launch, recIdx := none,
        team := none, paused := false }
    ({ s' with pushes := s'.pushes ++ [p] }).owe (.islandTaskPush u)
  else if c.action = 4 then
    let core := c.arg.toNat % 128
    let m : Msg :=
      { words := [c.val, 0, 0, 0, 0, 0, 0, 0], tag := BitVec.ofNat 64 (1 + counterWord c * 2 ^ 32), poster := 0, op := 0,
        coach := 0, launch := 0, task := 0, prio := 3, scope := c.scope, regs := if c.store = 0 then c.regs else [] }
    let w : WaitMsg := { isl := c.isl, core := core, msg := m }
    ({ s with waitMsgs := s.waitMsgs ++ [w] }).owe (.counterCarterMessage c.isl core)
  else s

/-- A counter fires: its fired bit is set, it is disarmed and keeps counting, and its action comes about (R128). -/
def counterFire (s : State) (c : Counter) : State :=
  let s1 := s.setCounter { c with fired := true, armed := false, counting := true }
  let s2 := counterAct s1 c
  let s3 := oweWakes (wakeWith s2 (counterWaiters s2 c) (firedRegs c) (c.action = 5)) (counterWaiters s2 c)
  if c.core < 128 then yardLook s3 c.isl c.core else s3

/-- How many of a write's bytes lie in a counter's region. -/
def bytesIn (regs : List (Nat × Nat)) (as : List Nat) : Nat :=
  (as.filter (fun a => regs.any (fun r => decide (r.1 ≤ a) && decide (a < r.1 + r.2)))).length

/-- The greatest value of the 56-bit count fields (R128). -/
def count56 : Nat := 2 ^ 56 - 1

/-- One write counted at one counter (R127, R128). -/
def countOne (s : State) (c : Counter) (n : Nat) : State :=
  if n = 0 then s
  else if c.armed then
    let c' := { c with count := c.count + n }
    if c.total ≤ c'.count then counterFire s c' else s.setCounter c'
  else if c.counting then s.setCounter { c with overrun := min count56 (c.overrun + n) }
  else s

/-- A write counted at each counter of a store's core or of the island (R127). `space` is the store, 0 for global memory. -/
def countWrite (s : State) (isl core space : Nat) (as : List Nat) : State :=
  (s.counters.filter (fun c => c.isl = isl && c.core = core && c.store = space)).foldl
    (fun s c => match s.counter? c.isl c.core c.idx with
      | none => s
      | some c' => countOne s c' (bytesIn c'.regs as)) s

/-! ### Ready words -/

/-- The offset of the ready words in a tile-table region (R173). -/
def readyOff : Nat := 131072

/-- The tile-table entry whose ready word holds a physical address: (context, entry). -/
def readyEntry (s : State) (isl pa : Nat) : Option (Nat × Nat) :=
  (s.ctxs.filter (fun c => c.isl = isl)).findSome? (fun c =>
    (List.range 8).findSome? (fun k =>
      match peek s isl c.ctx (c.ttbase.toNat + readyOff + 4096 * k) with
      | none => none
      | some p => if p ≤ pa ∧ pa < p + 4096 then some (c.ctx, (4096 * k + (pa - p)) / 8) else none))

/-- The live firing of an entry. -/
def State.firing? (s : State) (isl ctx e : Nat) : Option Firing :=
  s.firings.find? (fun f => f.isl = isl && f.ctx = ctx && f.entry = e)

/-- A firing that the Bellows has not yet checked (R174). -/
def newFiring (u isl ctx e : Nat) : Firing :=
  { uid := u, isl := isl, ctx := ctx, entry := e, die := 0, tlx := 0, opn := 0, pk := false, keyBits := 0, tag := 0, oper := 0,
    size := 0, src := 0, dst := 0, root := 0, peers := [], st := 0, sent := false }

/-- An idle entry whose ready word holds a non-zero value fires; the Bellows acts in a step of its own (R174). -/
def readyFire (s : State) (isl pa : Nat) : State :=
  match readyEntry s isl pa with
  | none => s
  | some (ctx, e) =>
    if s.physNat isl pa 8 = 0 then s
    else match s.firing? isl ctx e with
      | some _ => s
      | none =>
        let (u, s') := s.take
        ({ s' with firings := s'.firings ++ [newFiring u isl ctx e] }).owe (.bellowsSend isl ctx e)

/-- A write seen by the ready words among its words (R174). -/
def readyWrite (s : State) (isl : Nat) (cs : List (Nat × Byte)) : State :=
  ((cs.map (fun c => c.1 / 8 * 8)).eraseDups).foldl (fun s a => readyFire s isl a) s

/-! ### Writes -/

/-- A write that covers a listed line removes its entry (R413). -/
def clearBad (s : State) (isl : Nat) (cs : List (Nat × Byte)) : State :=
  if cs.length < 128 then s
  else s.updIsland isl (fun i =>
    { i with blt := i.blt.filter (fun b =>
        !((List.range 128).all (fun k => cs.any (fun c => c.1 = b.2 * 128 + k)))) })

/-- A write that completes at the memory-side die, other than the Bellows's own (R127). -/
def l2Base (s : State) (isl : Nat) (cs : List (Nat × Byte)) : State :=
  let s1 := clearBad (s.physSet isl cs) isl cs
  let s2 := countWrite s1 isl 128 0 (cs.map Prod.fst)
  let s3 := oweWakes s2 (watchers s2 isl cs)
  holdWaits s3 isl cs

/-- A write at the L2: the bytes are stored, counted and watched, and a ready word may fire its entry. The hub's firmware memory has
no counter and no watch. -/
def l2Put (s : State) (isl : Nat) (cs : List (Nat × Byte)) : State :=
  if cs = [] then s
  else if isl = hubIsl then s.physSet isl cs
  else readyWrite (l2Base s isl cs) isl cs

/-- A write of a typed store, at physical offsets (CB: bytes): stored whole, its marks cleared, and counted (R79, R127, R420). -/
def storePut (s : State) (isl core space : Nat) (cs : List (Nat × Byte)) : State :=
  if cs = [] then s
  else
    let s1 := { s with stores := setCells s.stores (cs.map (fun (c : Nat × Byte) => (storeKey isl core space c.1, c.2))) }
    let ks := cs.map (fun c => storeKey isl core space c.1)
    let s2 := if (s1.island isl).marks.any (fun k => ks.contains k)
      then s1.updIsland isl (fun i => { i with marks := i.marks.filter (fun k => !ks.contains k) }) else s1
    countWrite s2 isl core space (cs.map Prod.fst)

/-- A timeline's record (R107). -/
def State.timeline (s : State) (isl ctx unit num : Nat) : Timeline :=
  (s.timelines.find? (fun t => t.isl = isl && t.ctx = ctx && t.unit = unit && t.num = num)).getD
    { isl := isl, ctx := ctx, unit := unit, num := num, given := 0, raised := 0, dests := [] }

/-- A timeline's record written. -/
def State.setTimeline (s : State) (t : Timeline) : State :=
  { s with timelines :=
      t :: s.timelines.filter (fun u => !(u.isl = t.isl && u.ctx = t.ctx && u.unit = t.unit && u.num = t.num)) }

/-- The offset of a timeline's word in the context's timeline region (R123). -/
def timelineOff (unit num : Nat) : Nat :=
  if unit < 128 then 64 * unit + 8 * num else 8192 + 32 * (unit - 128) + 8 * (num - 8)

/-- The address of a timeline's word in its context's region. -/
def timelineVa (s : State) (isl ctx unit num : Nat) : Nat := ((s.ctx? isl ctx).map (fun c => c.tlbase.toNat)).getD 0 + timelineOff unit num

/-- Where a timeline's word lies. -/
def timelinePa (s : State) (isl ctx unit num : Nat) : Option Nat :=
  match s.ctx? isl ctx with
  | none => none
  | some c => peek s isl ctx (c.tlbase.toNat + timelineOff unit num)

/-- The unit of a timeline number as an agent names it (R123). -/
def timelineUnit (t : Thread) (n : Nat) : Nat := if n < 8 then t.id.core else 128 + dieOf t.id.core

/-- The value in a timeline's word. -/
def wordAt (s : State) (key : Nat) : Word64 := BitVec.ofNat 64 (s.physNat (key / 2 ^ 48) (key % 2 ^ 48) 8)

/-- The largest n such that operations 1 to n have completed, given those still open (R107). -/
def raisedTo (given : Nat) (opens : List Nat) : Nat := opens.foldl (fun n o => min n (o - 1)) given

end Sys2Proof.Machine
end

