-- ==== Sys2Proof/Machine/Cache.lean ====
section
/-!
DEFINITION. The L1 of a core: fills, replacements, write-back and drop (R66, R81, R98), the acquires and releases that act on it (R102-R104), and what
the agents have read ahead (R425).
-/
namespace Sys2Proof.Machine

/-- Byte i of a line. -/
def lineByte (d : BitVec 1024) (i : Nat) : Byte := d.extractLsb' (8 * i) 8

/-- A line with byte i set. -/
def lineSet (d : BitVec 1024) (i : Nat) (b : Byte) : BitVec 1024 :=
  (d &&& ~~~(0xFF#1024 <<< (8 * i))) ||| (b.zeroExtend 1024 <<< (8 * i))

/-- A 128-bit mask with bit i set to b. -/
def maskSet (m : BitVec 128) (i : Nat) (b : Bool) : BitVec 128 :=
  if b then m ||| (1#128 <<< i) else m &&& ~~~(1#128 <<< i)

/-- The copy of a line in a core's L1. -/
def l1Find (s : State) (isl core line : Nat) : Option L1Line :=
  s.l1.find? (fun l => l.isl = isl && l.core = core && l.line = line)

/-- A line of the L1 written in place. -/
def l1Put (s : State) (l : L1Line) : State :=
  { s with l1 := s.l1.map (fun m => if m.isl = l.isl ∧ m.core = l.core ∧ m.line = l.line then l else m) }

/-- The dirty bytes of a line, as cells at physical addresses. -/
def dirtyCells (l : L1Line) : List (Nat × Byte) :=
  ((List.range 128).filter (fun i => l.dirty.getLsbD i)).map (fun i => (l.line * 128 + i, lineByte l.data i))

/-- A line written back: only its dirty bytes are written, and it becomes clean (R81). Where one of them is known to be bad, the line can no longer
be read at the L2 (R413, R420; DESIGN CHOICE, log 40). -/
def l1WriteBack (s : State) (l : L1Line) : State :=
  if l.dirty = 0 then s
  else
    let s0 := l2Used (l1Put s { l with dirty := 0 }) l.isl l.ctx (dirtyCells l).length
    let s1 := l2Put s0 l.isl (dirtyCells l)
    if l.dirty &&& l.marked = 0 then s1 else badLine s1 l.isl l.line

/-- The lines that meet a test written back (a release: R103, R104). -/
def wbLines (s : State) (p : L1Line → Bool) : State := (s.l1.filter p).foldl l1WriteBack s

/-- The lines that meet a test written back and dropped (an acquire: R103, R104). -/
def dropLines (s : State) (p : L1Line → Bool) : State :=
  let s' := wbLines s p
  { s' with l1 := s'.l1.filter (fun l => !p l) }

/-- A line that an atomic or a word-form wait addresses: written back and dropped by the issuing core (R82, R291). -/
def dropLine (s : State) (isl core line : Nat) : State :=
  dropLines s (fun l => l.isl = isl && l.core = core && l.line = line)

/-- A touch of a line counted for the running team: the lines of its window, and a miss with its lost locality (R65, R66). Several tags of the same
line and team count one event, and all of them go (DESIGN CHOICE, log 40). -/
def touch (s : State) (isl core line : Nat) (miss : Bool) : State :=
  let lost := miss && s.victims.any (fun v => v.isl = isl && v.core = core && v.line = line && v.team = s.cur.id.uid)
  let s1 := s.updCur (fun t =>
    { t with sch := { t.sch with
        winLines := if t.sch.winLines.contains line then t.sch.winLines else line :: t.sch.winLines
        winMisses := t.sch.winMisses + b2n miss
        winLost := t.sch.winLost + b2n lost } })
  if lost then
    { s1 with victims := s1.victims.filter (fun v =>
        !(v.isl = isl && v.core = core && v.line = line && v.team = s.cur.id.uid)) }
  else s1

/-- A victim tag recorded; the array of 1,024 replaces its oldest (R66). -/
def addVictim (s : State) (v : Victim) : State :=
  let same := fun (x : Victim) => x.isl = v.isl && x.core = v.core
  let vs := if (s.victims.filter same).length < 1024 then s.victims else dropNth same 0 s.victims
  { s with victims := vs ++ [v] }

/-- The set of a line: one of the 256 sets of 8 ways that make 256 KiB (R15, R81; log 7). -/
def l1SetOf (line : Nat) : Nat := Config.l1Set line % 256

/-- A line displaced by a replacement (R66). -/
def displace (s : State) (v : L1Line) : State :=
  let s1 := l1WriteBack s v
  let s2 := { s1 with l1 := s1.l1.filter (fun l => !(l.isl = v.isl && l.core = v.core && l.line = v.line)) }
  addVictim s2 { isl := v.isl, core := v.core, line := v.line, team := v.team }

/-! ### Cache policies (R81, R336): the CACHE code, and 4 more on a page of type stream -/

/-- The policy of a page's type alone. -/
def typePolicy (stream : Bool) : Nat := 4 * b2n stream

/-- A fill has only the 32 KiB that no lease covers. -/
def polStreams (p : Nat) : Bool := decide (4 ≤ p) || decide (p = 1)

/-- A miss does not allocate. -/
def polSkips (p : Nat) : Bool := p % 4 = 2

/-- The line becomes the first choice for eviction in its set. -/
def polLast (p : Nat) : Bool := p % 4 = 3

/-- The line of a full set that a fill displaces: one of the last-use policy, else one of the hardware's choice (R66, R81, R336; log 7). -/
def victimOf (f : Nat) (set : List L1Line) : Option L1Line :=
  match set.find? (fun l => l.last) with
  | some l => some l
  | none => set[f % set.length]?

/-- Room made in the 8-way set of a line: a full set first displaces one of its lines (R66, R81). A streaming fill has one way of each set, the 32 KiB
that no lease covers: it displaces the streamed line that the set holds. -/
def makeRoom (s : State) (isl core line pol : Nat) : State :=
  let mine := s.l1.filter (fun l => l.isl = isl && l.core = core)
  match (if polStreams pol then mine.find? (fun l => l.stream && l1SetOf l.line = l1SetOf line) else none) with
  | some v => displace s v
  | none =>
    if mine.length < 8 then s
    else
      let set := mine.filter (fun l => l1SetOf l.line = l1SetOf line)
      if set.length < 8 then s
      else
        match victimOf (Config.freeChoice s.fresh) set with
        | none => s
        | some v => displace { s with fresh := s.fresh + 1 } v

/-- A line brought into the L1 if it is not there, for a team or, as 0, an engine (R81). A line that fails is held with its bytes marked
(R413, R420). -/
def l1Fill (s : State) (isl core ctx line vline team pol : Nat) : State × L1Line :=
  match l1Find s isl core line with
  | some l =>
    let l' := { l with
      vas := if l.vas.contains vline then l.vas else vline :: l.vas, team := if team = 0 then l.team else team, last := l.last || polLast pol }
    (l1Put s l', l')
  | none =>
    let s1 := l2Used (makeRoom s isl core line pol) isl ctx 128
    let l : L1Line :=
      { isl := isl, core := core, line := line, ctx := ctx, vas := [vline],
        data := BitVec.ofNat 1024 (s1.physNat isl (line * 128) 128), dirty := 0,
        marked := if lineBad s1 isl line then BitVec.allOnes 128 else 0, team := team, stream := polStreams pol, last := polLast pol }
    ({ s1 with l1 := l :: s1.l1 }, l)

/-- n bytes of a line read through a core's L1 for a team; a miss that does not allocate reads them at the L2 (R81, R336). -/
def lineRead (s : State) (isl core ctx va pa n team pol : Nat) : State × List Byte :=
  if polSkips pol && (l1Find s isl core (pa / 128)).isNone then (l2Used s isl ctx n, s.physBytes isl pa n)
  else
    let q := l1Fill s isl core ctx (pa / 128) (va / 128) team pol
    (q.1, (List.range n).map (fun i => lineByte q.2.data (pa % 128 + i)))

/-! ### What agents have read ahead (R98, R425; log 6) -/

/-- What the running agent has read ahead of an element at a place of a space, else its bytes. -/
def earlyPart (s : State) (isl core space a : Nat) (bs : List Byte) : List Byte :=
  ((s.ord.ahead.find? (fun e => e.agent = s.cur.id.uid && e.isl = isl && e.core = core && e.space = space && e.at_ = a
    && e.bytes.length = bs.length)).map (fun e => e.bytes)).getD bs

/-- The bytes that a load of the running agent gives: of a 16-byte element each half (R79). -/
def earlyOr (s : State) (isl core space a : Nat) (bs : List Byte) : List Byte :=
  if s.ord.ahead = [] then bs
  else if bs.length = 16 then earlyPart s isl core space a (bs.take 8) ++ earlyPart s isl core space (a + 8) (bs.drop 8)
  else earlyPart s isl core space a bs

/-- What has been read ahead and meets a test is forgotten. -/
def State.forget (s : State) (p : Early → Bool) : State := { s with ord := { s.ord with ahead := s.ord.ahead.filter (fun e => !p e) } }

/-- The running agent has accessed n bytes at a place: it reads nothing older there afterwards (R98, R276). -/
def ownUse (s : State) (isl core space a n : Nat) : State :=
  s.forget (fun e => e.agent = s.cur.id.uid && e.isl = isl && e.core = core && e.space = space && decide (e.at_ < a + n)
    && decide (a < e.at_ + e.bytes.length))

/-- A release, an acquire, or another point that orders the accesses of a core's agents: nothing read ahead there is used after it (R103). -/
def dropAhead (s : State) (isl core : Nat) : State := s.forget (fun e => e.isl = isl && e.core = core)

/-- A touch of the line of an address by the running agent (R65, R66). -/
def touchAt (s : State) (isl core pa : Nat) : State := touch s isl core (pa / 128) (l1Find s isl core (pa / 128)).isNone

/-- n bytes of code read through the L1, within one line. -/
def codeRead (s : State) (isl core ctx va pa n pol : Nat) : State × List Byte :=
  lineRead (touchAt s isl core pa) isl core ctx va pa n s.cur.id.uid pol

/-- n bytes of global memory read through the L1 for the running agent, within one line. -/
def gRead (s : State) (isl core ctx va pa n pol : Nat) : State × List Byte :=
  let q := codeRead s isl core ctx va pa n pol
  (ownUse q.1 isl core 0 pa n, earlyOr s isl core 0 pa q.2)

/-- A line with bytes stored into it: they become dirty and lose their marks (R81, R420). -/
def lineStore (l : L1Line) (off : Nat) : List Byte → L1Line
  | [] => l
  | b :: bs =>
    lineStore { l with data := lineSet l.data off b, dirty := maskSet l.dirty off true, marked := maskSet l.marked off false }
      (off + 1) bs

/-- Bytes of a line written through a core's L1 for a team; a miss that does not allocate writes them at the L2 (R81, R336). -/
def lineWrite (s : State) (isl core ctx va pa : Nat) (bs : List Byte) (team pol : Nat) : State :=
  if polSkips pol && (l1Find s isl core (pa / 128)).isNone then l2Put (l2Used s isl ctx bs.length) isl (cellsFrom pa bs)
  else
    let q := l1Fill s isl core ctx (pa / 128) (va / 128) team pol
    l1Put q.1 (lineStore q.2 (pa % 128) bs)

/-- Bytes of global memory written through the L1 for the running agent, within one line (R81). -/
def gWrite (s : State) (isl core ctx va pa : Nat) (bs : List Byte) (pol : Nat) : State :=
  ownUse (lineWrite (touchAt s isl core pa) isl core ctx va pa bs s.cur.id.uid pol) isl core 0 pa bs.length

/-- A read of n bytes through a core's L1 would meet a marked byte, or on a miss a line known to be bad (R179, R413, R420). -/
def gBad (s : State) (isl core pa n : Nat) : Bool :=
  match l1Find s isl core (pa / 128) with
  | some l => (List.range n).any (fun i => l.marked.getLsbD (pa % 128 + i))
  | none => lineBad s isl (pa / 128)

/-- A read at the atomic unit, for which the core first writes its copy of the line back, would meet a line known to be bad (R82, R413, R420). -/
def unitBad (s : State) (isl core pa : Nat) : Bool :=
  lineBad s isl (pa / 128) || ((l1Find s isl core (pa / 128)).map (fun l => decide (l.dirty &&& l.marked ≠ 0))).getD false

/-! ### Accesses that are performed late (R275, R425; log 6) -/

/-- The bytes of an element of a load that is performed late, read when it completes. -/
def lateRead (s : State) (a : LateAcc) (e : Nat × Nat × Nat × Nat × List Byte) : State × List Byte :=
  if a.space = 0 then lineRead s a.isl a.core a.ctx e.2.1 e.2.2.1 e.2.2.2.2.length a.agent e.2.2.2.1
  else (storeUsed s a.isl a.ctx e.2.2.2.2.length, s.storeBytes a.isl a.core a.space e.2.2.1 e.2.2.2.2.length)

/-- An element of a store that is performed late, written when it completes. -/
def lateWrite (a : LateAcc) (s : State) (e : Nat × Nat × Nat × Nat × List Byte) : State :=
  if a.space = 0 then lineWrite s a.isl a.core a.ctx e.2.1 e.2.2.1 e.2.2.2.2 a.agent e.2.2.2.1
  else storePut (storeUsed s a.isl a.ctx e.2.2.2.2.length) a.isl a.core a.space (cellsFrom e.2.2.1 e.2.2.2.2)

/-- A late access is under way no more; a store is performed. -/
def landLate (s : State) (a : LateAcc) : State :=
  let s1 := { s with ord := { s.ord with late := s.ord.late.filter (fun b => b.op ≠ a.op) } }
  if a.load then s1 else a.elems.foldl (lateWrite a) s1

/-- The stores of agents that end land before their end (R181, R186). -/
def landOf (s : State) (us : List Nat) : State := (s.ord.late.filter (fun a => us.contains a.agent)).foldl landLate s

/-! ### Releases and acquires -/

/-- A line lies in one of some virtual regions: one of the virtual lines through which its context has reached it does (DESIGN CHOICE, log 40). -/
def inRegions (rs : List (Nat × Nat)) (l : L1Line) : Bool :=
  l.vas.any (fun v => rs.any (fun r => decide (r.1 < (v + 1) * 128) && decide (v * 128 < r.1 + r.2)))

/-- A line holds some of the bytes of physical regions. -/
def holdsPhys (rs : List (Nat × Nat)) (l : L1Line) : Bool :=
  rs.any (fun r => decide (r.1 < (l.line + 1) * 128) && decide (l.line * 128 < r.1 + r.2))

/-- A line of a core and a context. -/
def ownLine (isl core ctx : Nat) (l : L1Line) : Bool := l.isl = isl && l.core = core && l.ctx = ctx

/-- The regions bound to a sync object (R99). -/
def boundRegions (s : State) (isl ctx obj : Nat) : List (Nat × Nat) :=
  (s.bindings.filter (fun b => b.isl = isl && b.ctx = ctx && b.obj = obj)).map (fun b => (b.base, b.len))

/-- A word whose counted tasks' completions an acquire of it follows (R24, R292). -/
def wordJoined (s : State) (isl ctx obj : Nat) : Bool :=
  !s.ord.joined.isEmpty && ((peek s isl ctx obj).map (fun pa => s.ord.joined.contains (isl, ctx, pa))).getD false

/-- The regions that an acquire of an object covers: those bound to it, and of a join word every location, since the acquire sees every write of every
task counted (R103, R292). -/
def acqRegions (s : State) (isl ctx obj : Nat) : List (Nat × Nat) :=
  if wordJoined s isl ctx obj then [(0, 2 ^ 64)] else boundRegions s isl ctx obj

/-- A core of a context has released at .i. -/
def noteReleased (s : State) (isl core ctx : Nat) : State :=
  if s.ord.released.contains (isl, ctx, core) then s else { s with ord := { s.ord with released := (isl, ctx, core) :: s.ord.released } }

/-- A core of a context has acquired at .i. -/
def noteAcquired (s : State) (isl core ctx : Nat) : State :=
  if s.ord.acquired.contains (isl, ctx, core) then s else { s with ord := { s.ord with acquired := (isl, ctx, core) :: s.ord.acquired } }

/-- The lines that a release by a core writes back: its own of the context and, where it has acquired, those of the cores that have released, whose writes may
happen before the release (R102, R103; DEDUCED, log 40). -/
def releaseLine (s : State) (isl core ctx : Nat) (l : L1Line) : Bool :=
  ownLine isl core ctx l
    || (l.isl = isl && l.ctx = ctx && s.ord.acquired.contains (isl, ctx, core) && s.ord.released.contains (isl, ctx, l.core))

/-- The L1 action of a release at .i that covers the lines that meet a test. -/
def releaseWith (s : State) (isl core ctx scope : Nat) (p : L1Line → Bool) : State :=
  let s1 := dropAhead s isl core
  if scope = scopeI then noteReleased (wbLines s1 (fun l => releaseLine s1 isl core ctx l && p l)) isl core ctx else s1

/-- The L1 action of an acquire at .i that covers the lines that meet a test. -/
def acquireWith (s : State) (isl core ctx scope : Nat) (p : L1Line → Bool) : State :=
  let s1 := dropAhead s isl core
  if scope = scopeI then noteAcquired (dropLines s1 (fun l => ownLine isl core ctx l && p l)) isl core ctx else s1

/-- A release of an object (R102, R103). -/
def releaseObj (s : State) (isl core ctx obj scope : Nat) : State :=
  releaseWith s isl core ctx scope (inRegions (boundRegions s isl ctx obj))

/-- An acquire whose region is a set of virtual ranges (R103). -/
def acquireRegs (s : State) (isl core ctx scope : Nat) (rs : List (Nat × Nat)) : State := acquireWith s isl core ctx scope (inRegions rs)

/-- An acquire of an object (R103). -/
def acquireObj (s : State) (isl core ctx obj scope : Nat) : State := acquireRegs s isl core ctx scope (acqRegions s isl ctx obj)

/-- An acquire whose region is a set of physical bytes (R103, R107, R108). -/
def acquirePhys (s : State) (isl core ctx scope : Nat) (rs : List (Nat × Nat)) : State := acquireWith s isl core ctx scope (holdsPhys rs)

/-- The release half of a FENCE (R104). -/
def releaseAll (s : State) (isl core ctx scope : Nat) : State := releaseWith s isl core ctx scope (fun _ => true)

/-- The acquire half of a FENCE (R104). -/
def acquireAll (s : State) (isl core ctx scope : Nat) : State := acquireWith s isl core ctx scope (fun _ => true)

/-- Every core of an island writes back a context's dirty lines (R24). -/
def releaseIsland (s : State) (isl ctx : Nat) : State := wbLines s (fun l => l.isl = isl && l.ctx = ctx)

/-- A running agent's place: the island, core and context under which its accesses go. -/
def Thread.place (t : Thread) : Nat × Nat × Nat := (t.mIsl, t.id.core, t.id.ctx)

end Sys2Proof.Machine
end

