-- ==== Sys2Proof/Machine/Waybill.lean ====
section
/-!
DEFINITION. Waybills as read: their fields, element sizes, and the checks of R116-R121, R315 and R428 on the fields alone.
-/
namespace Sys2Proof.Machine

/-- The fields of a waybill. -/
structure WbForm where
  vmaj : Nat
  kind : Nat
  srcsp : Nat
  dstsp : Nat
  conv : Nat
  ord : Nat
  sat : Nat
  redop : Nat
  scl : Nat
  src : Nat
  dst : Nat
  n0 : Nat
  n1 : Nat
  n2 : Nat
  ss1 : Nat
  ss2 : Nat
  ds1 : Nat
  ds2 : Nat
  risl : Nat
  rpan : Nat
  mct : Nat
  tlx : Nat
  tlinc : Nat
  sk : Nat
  smn : Nat
  sfmt : Nat
  reserved : Bool
  deriving DecidableEq, Repr

/-- The number in a list of 64-bit words, the first lowest. -/
def wordsNat : List Word64 → Nat
  | [] => 0
  | w :: r => w.toNat + 2 ^ 64 * wordsNat r

/-- A waybill's words read. -/
def parseWb (raw : List Word64) : WbForm :=
  let n := wordsNat raw
  let g := fun hi lo => bitsOf n hi lo
  { vmaj := g 7 0, kind := g 23 16, srcsp := g 31 24, dstsp := g 39 32, conv := g 47 40, ord := g 48 48, sat := g 49 49, redop := g 52 50,
    scl := g 53 53, src := g 127 64, dst := g 191 128, n0 := g 223 192, n1 := g 239 224, n2 := g 255 240, ss1 := g 287 256,
    ss2 := g 319 288, ds1 := g 351 320, ds2 := g 383 352, risl := g 391 384, rpan := g 399 392, mct := g 407 400, tlx := g 415 408,
    tlinc := g 431 416, sk := g 479 448, smn := g 495 480, sfmt := g 503 496
    reserved := g 63 54 ≠ 0 || g 447 432 ≠ 0 || g 511 504 ≠ 0 }

/-- A stream waybill. -/
def WbForm.isStream (f : WbForm) : Bool := f.kind = 1 || f.kind = 2

/-- Bytes of a stream element, in half bytes (R121). -/
def streamHalves (sfmt : Nat) : Nat := if sfmt = 1 then 1 else if sfmt ≤ 4 then 2 else if sfmt ≤ 6 then 4 else 8

/-- The source and destination element sizes in bytes, where the fields CONV and REDOP are valid (R118, R315). The elements of a reduction
are those of its type, but from a CB source those of its code. -/
def WbForm.sizes (f : WbForm) : Option (Nat × Nat) :=
  if f.srcsp ≠ 4 ∧ (f.redop = 1 ∨ f.redop = 2) then some (4, 4)
  else if f.srcsp ≠ 4 ∧ f.redop = 3 then some (2, 2)
  else if f.srcsp = 4 then (if f.conv ≤ 12 then some (8, if 6 ≤ f.conv ∧ f.conv ≤ 9 then 2 else 4) else none)
  else if f.conv = 0 then some (1, 1)
  else if f.conv = 1 ∨ f.conv = 2 then some (4, 2)
  else if f.conv = 3 ∨ f.conv = 4 then some (4, 1)
  else if f.conv = 5 ∨ f.conv = 6 then some (2, 4)
  else none

/-- The spaces that a kind allows (R117). -/
def WbForm.spacesOk (f : WbForm) : Bool :=
  if f.kind = 0 then decide (f.srcsp ≤ 6) && decide (f.dstsp ≤ 6) && f.dstsp ≠ 4 && !(decide (5 ≤ f.srcsp) && decide (5 ≤ f.dstsp))
  else if f.kind = 1 then decide (f.srcsp ≤ 2) && f.dstsp = 7
  else if f.kind = 2 then (f.srcsp = 0 || f.srcsp = 1 || f.srcsp = 3) && f.dstsp = 7
  else if f.kind = 3 then f.srcsp = 0 && decide (f.dstsp ≤ 3)
  else f.srcsp = 0 && decide (1 ≤ f.dstsp) && decide (f.dstsp ≤ 3)

/-- The fields that a kind gives no use are zero (R428). -/
def WbForm.zerosOk (f : WbForm) : Bool :=
  let remote := f.risl = 0 && f.rpan = 0 && f.ord = 0
  let stream := f.sfmt = 0 && f.smn = 0 && f.sk = 0 && f.scl = 0
  if f.kind = 0 then stream && f.mct = 0 && (remote || f.srcsp = 5 || f.dstsp = 5) && (f.sat = 0 || (f.conv ≠ 0 && f.srcsp ≠ 4))
  else if f.kind = 1 then
    f.dst = 0 && f.ds1 = 0 && f.ds2 = 0 && f.ss2 = 0 && f.conv = 0 && f.sat = 0 && f.scl = 0 && f.mct = 0 && remote
  else if f.kind = 2 then
    f.ds1 = 0 && f.ds2 = 0 && f.ss2 = 0 && f.conv = 0 && f.sat = 0 && f.mct = 0 && remote && (f.scl = 1 || f.dst = 0)
  else if f.kind = 3 then f.ss1 = 0 && f.ss2 = 0 && stream && f.sat = 0 && f.redop = 0 && f.mct = 0 && remote
  else stream && f.conv = 0 && f.sat = 0 && f.redop = 0 && remote

/-- The larger of the source and destination byte counts (R119, R120). The scales of a B stream count among its source bytes (DESIGN CHOICE,
log 40). -/
def WbForm.bytes (f : WbForm) : Nat :=
  if f.isStream then f.smn * f.sk * streamHalves f.sfmt / 2 + (if f.scl = 1 then 4 * f.smn * (f.sk / 32) else 0)
  else match f.sizes with
    | none => 0
    | some z => f.n0 * f.n1 * f.n2 * (if f.kind = 3 then z.2 else max z.1 z.2)

/-- SRC and DST are aligned to their element sizes (R119). -/
def WbForm.alignOk (f : WbForm) : Bool :=
  if f.isStream then f.src % max 1 (streamHalves f.sfmt / 2) = 0 && (f.scl = 0 || f.dst % 4 = 0)
  else match f.sizes with
    | none => false
    | some z => (f.kind = 3 || f.srcsp = 4 || f.src % z.1 = 0) && f.dst % z.2 = 0

/-- The other checks of R117 and R119 on the fields alone. -/
def WbForm.fieldsOk (f : WbForm) : Bool :=
  !f.reserved && f.vmaj = 1 && decide (f.kind ≤ 4) && decide (f.tlx ≤ 3) && decide (f.tlinc ≤ 1) && decide (f.redop ≤ 3)
  && decide (1 ≤ f.n0) && decide (f.n0 ≤ 2 ^ 24) && f.n1 ≠ 0 && f.n2 ≠ 0 && f.spacesOk && f.zerosOk
  && (f.redop = 0 || (f.kind = 0 && (f.dstsp = 0 || f.dstsp = 5) && f.conv = 0))
  && (f.kind ≠ 3 || f.conv = 0) && (f.kind ≠ 4 || decide (f.mct ≤ 63))
  && (!f.isStream || (decide (f.sfmt ≤ 7) && f.n2 = 1 && f.n1 = f.smn && f.n0 = f.sk && f.smn % 8 = 0 && decide (8 ≤ f.smn)
    && decide (f.smn ≤ 256) && f.sk % 32 = 0 && decide (32 ≤ f.sk) && decide (f.sk ≤ 65536) && f.redop = 0))
  && (f.isStream || f.sizes.isSome) && f.alignOk && decide (f.bytes ≤ 2 ^ 24)

/-- The waybill names a typed store as an end (R119). -/
def WbForm.typed (f : WbForm) : Bool :=
  f.kind ≠ 4 && ((decide (1 ≤ f.srcsp) && decide (f.srcsp ≤ 4)) || (decide (1 ≤ f.dstsp) && decide (f.dstsp ≤ 3)))

/-- The waybill has a remote end. -/
def WbForm.remote (f : WbForm) : Bool := f.srcsp = 5 || f.dstsp = 5

end Sys2Proof.Machine
end

