-- ==== Sys2Proof/Machine/Ending.lean ====
section
/-!
DEFINITION. Host memory, completion records and events (R378, R414, R421), the end of a launch (R186, R375, R342), the end of a context
(R188), and the fault ring (R184, R387).
-/
namespace Sys2Proof.Machine

/-! ### The host side -/

/-- A host command queue. -/
def State.queue? (s : State) (fn q : Nat) : Option HostQueue := s.queues.find? (fun x => x.fn = fn && x.q = q)

/-- A queue with the fields of a control word (R365). -/
def HostQueue.configured (x : HostQueue) (val : Word64) : HostQueue :=
  let n := val.toNat
  { x with log2n := bitsOf n 4 0, prio := bitsOf n 34 33, vec := bitsOf n 39 35, ctx := bitsOf n 63 48 }

/-- A queue as its block shows it: with the control word that was last written, also where a command in hand keeps the fields it was taken
under (R365). -/
def HostQueue.shown (x : HostQueue) : HostQueue :=
  match x.ctl with
  | none => x
  | some v => x.configured v

/-- A queue whose EN has been cleared stops once no command of it is in hand: HEAD and QERR return to 0 (R365). -/
def HostQueue.settled (x : HostQueue) : HostQueue :=
  if x.stopping ∧ x.hold.isNone ∧ !x.inHand then
    { x.shown with en := false, head := 0, tail := 0, qerr := 0, stopping := false, ctl := none }
  else x

/-- A launch holds its queue no more (R368). -/
def HostQueue.letGo (u : Nat) (x : HostQueue) : HostQueue := if x.hold = some u then { x with hold := none }.settled else x

/-- A host command queue written. -/
def State.setQueue (s : State) (x : HostQueue) : State :=
  { s with queues := x :: s.queues.filter (fun y => !(y.fn = x.fn && y.q = x.q)) }

/-- The host answers an access to some bytes of a ring without an error. -/
def hostOk (s : State) (a n : Nat) : Bool := s.panel.hostBad.all (fun r => r.2 = 0 || decide (a + n ≤ r.1) || decide (r.1 + r.2 ≤ a))

/-- A completion record for the command in a slot; `slot` counts the commands of the queue since it was enabled (R366, R378). A host error at the ring
stops the queue (R365). -/
def completeCmd (s : State) (fn q slot : Nat) (tag : BitVec 32) (irq : Bool) (status : Nat) (value : Word64) : State :=
  match s.queue? fn q with
  | none => s
  | some x =>
    let n := 2 ^ x.log2n
    let phase := b2n ((slot / n) % 2 = 0)
    let lo := tag.toNat + status * 2 ^ 32 + phase * 2 ^ 48
    let a := x.cbase.toNat + 16 * (slot % n)
    if hostOk s a 16 then
      let s1 := hostPut s a (leBytes 8 lo ++ leBytes 8 value.toNat)
      if irq then sendMsix s1 fn x.vec else s1
    else s.setQueue { x with qerr := 2 }

/-! ### The end of a launch -/

/-- A launch by its handle. -/
def State.launch? (s : State) (u : Nat) : Option Launch := s.launches.find? (fun l => l.uid = u)

/-- A launch written. -/
def State.setLaunch (s : State) (l : Launch) : State :=
  { s with launches := s.launches.map (fun m => if m.uid = l.uid then l else m) }

/-- An ended launch is reported once every remote operation that its teams issued has been performed (R342, R375): its completion
record is written, and its group and multicast entries are released. -/
def settleLaunch (s : State) (u : Nat) : State :=
  match s.launch? u with
  | none => s
  | some l =>
    if l.st ≠ 2 ∨ s.frames.any (fun f => f.launch = u && f.phase = 0) then s
    else
      let s1 := completeCmd s l.fn l.queue l.slot l.tag l.irq l.status l.value
      let own := fun (m : Mcast) => m.launch = u || (m.ctx = l.ctx && l.mcts.any (fun n => n.1 = m.isl && n.2.1 = m.entry))
      let mc := s1.mcasts.map (fun (m : Mcast) => if own m then { m with valid := false, launch := 0 } else m)
      State.oweOnce { s1 with
        launches := s1.launches.filter (fun m => m.uid ≠ u)
        groups := s1.groups.filter (fun g => g.launch ≠ u)
        mcasts := mc
        tasks := s1.tasks.filter (fun k => k.launch ≠ u)
        queues := s1.queues.map (HostQueue.letGo u) } (.cmdNop l.fn l.queue)

/-- A yard entry discarded: its heat or its request goes back, and the streams it has taken are discarded (R186). -/
def dropChain (s : State) (c : Chain) : State :=
  let s1 := match c.st with
    | .hasHeat => heatReturn s c.isl 1
    | .running => heatReturn s c.isl 1
    | .wantsHeat => heatCancel s c.isl 0 c.uid
    | .open_ => s
    | .waiting => s
  let last := s1.yard.all (fun d => d.uid = c.uid || d.lead ≠ c.lead)
  let own := fun (x : Stream) => x.chain = some c.uid || (last && x.chain = some c.lead)
  let wbs := (s1.streams.filter own).map (fun x => x.wb)
  let s2 := { s1 with
    streams := s1.streams.filter (fun x => !own x)
    yard := s1.yard.filter (fun d => d.uid ≠ c.uid) }
  (wbs.foldl (fun s w => s.oweOnce (.waybillComplete w)) s2).oweOnce (.chainDispatch c.isl c.core)

/-- The streams that a launch has started and that no chain has taken leave their FIFOs, and their waybills count complete (R186). -/
def dropUntaken (s : State) (u : Nat) : State :=
  let free := fun (w : Waybill) => w.launch = u && (parseWb w.raw).isStream && !s.streams.any (fun x => x.wb = w.uid && x.chain.isSome)
  let ws := (s.waybills.filter free).map (fun w => w.uid)
  let done := fun (w : Waybill) => if ws.contains w.uid then { w with fault := none, paused := false, pushedTo := 2 ^ 32 } else w
  ws.foldl (fun s w => s.oweOnce (.waybillComplete w))
    { s with waybills := s.waybills.map done, streams := s.streams.filter (fun x => !ws.contains x.wb) }

/-- The explicit heat of an agent, and its request, given back (R298). -/
def dropHeat (s : State) (t : Thread) : State :=
  heatCancel (heatReturn s t.id.isl t.an.heat) t.id.isl 3 t.id.uid

/-- A coach has a handle, or keeps the stores of the one that had it (R28, R339). -/
def Coach.answers (c : Coach) (u : Nat) : Bool := u = c.uid || c.former.contains u

/-- A waybill reads or writes the typed stores of a coach: it was posted for it, or for one whose stores it keeps (R28, R339). -/
def Coach.isFor (c : Coach) (w : Waybill) : Bool := (w.coach.map c.answers).getD false

/-- A copy or fill waybill in flight that moves bytes of a typed store. -/
def Waybill.inStores (w : Waybill) : Bool := (parseWb w.raw).typed && !(parseWb w.raw).isStream && w.pushedTo ≠ 2 ^ 32

/-- A multicast in flight has a coach among its targets (R85). -/
def Waybill.feeds (w : Waybill) (c : Coach) : Bool :=
  w.pushedTo ≠ 2 ^ 32 && (w.targets.getD []).any (fun t => (t.2.map c.answers).getD false)

/-- A team of a coach lives. -/
def coachLives (s : State) (c : Coach) : Bool := s.threads.any (fun t => t.live && t.id.coach = c.uid)

/-- A coach that has no team any more frees its room, once the copies and fills in flight that move its bytes have completed: they complete
after its teams have ended too (R115, R186), and no other coach sees them (R78). Those of a coach that is swapped out have no bytes to move, and
count complete (DESIGN CHOICE, log 34). -/
def freeCoach (s : State) (c : Coach) : State :=
  if !c.swapped && s.waybills.any (fun w => (c.isFor w && w.inStores) || w.feeds c) then s
  else
    let out := fun (w : Waybill) => c.isFor w && w.inStores
    let s1 := ((s.waybills.filter out).map (fun w => w.uid)).foldl (fun s u => s.oweOnce (.waybillComplete u)) { s with
      coaches := s.coaches.filter (fun x => x.uid ≠ c.uid)
      waybills := s.waybills.map (fun w => if out w then { w with fault := none, paused := false, pushedTo := 2 ^ 32 } else w) }
    s1.oweOnce (.coachPlacement c.isl)

/-- An agent that has stopped for good. -/
def Thread.end_ (t : Thread) : Thread :=
  { t with
    sch := { t.sch with life := .ended, park := .none }
    tr := { t.tr with handler := false, report := false }
    an := { t.an with heat := 0, heatWait := none, chain := none } }

/-- The cores of some agents look at their inactive teams again: places in the active set have become free (R64). -/
def admitOn (s : State) (ts : List Thread) : State :=
  (ts.map (fun t => (t.id.isl, t.id.core))).eraseDups.foldl (fun s p => s.oweOnce (.teamAdmission p.1 p.2)) s

/-- An agent comes before another in a list put in order of age: the older handle first. -/
def insertOld (t : Thread) : List Thread → List Thread
  | [] => [t]
  | u :: r => if t.id.uid ≤ u.id.uid then t :: u :: r else u :: insertOld t r

/-- The teams of a core parked at a LAUNCH, the oldest first (R34). -/
def launchWaiters (s : State) (isl core : Nat) : List Nat :=
  ((s.threads.filter (fun t => t.id.isl = isl && t.id.core = core && t.sch.park = .launch)).foldr insertOld []).map (fun t => t.id.uid)

/-- The pending-launch queues of some cores have lost entries: what is left is forwarded, and the teams that wait for room are woken (R33, R34). -/
def launchRoom (s : State) (ps : List (Nat × Nat)) : State :=
  ps.eraseDups.foldl (fun s p =>
    let s1 := oweWakes s (launchWaiters s p.1 p.2)
    if s1.launchQ.any (fun e => e.isl = p.1 && e.core = p.2) then s1.oweOnce (.pendingLaunchForward p.1 p.2) else s1) s

/-- The teams that meet a test stop at an instruction boundary: what they have issued is performed, and their yard entries and heat go (R186). -/
def stopTeams (s : State) (p : Thread → Bool) : State :=
  let gone := s.threads.filter (fun t => t.live && p t)
  let us := gone.map (fun t => t.id.uid)
  let s1 := gone.foldl dropHeat (landOf s us)
  let s2 := (s1.yard.filter (fun c => us.contains c.team)).foldl dropChain s1
  let s3 := s2.mapT (fun t => if us.contains t.id.uid then t.end_ else t)
  admitOn { s3 with others := s3.others.filter (fun t => !(us.contains t.id.uid)) } gone

/-- The step that offers a push to its island (R33, R57). -/
def Push.event (p : Push) : Event :=
  if p.source = 1 then .pendingLaunchForward p.isl p.sub else if p.source = 3 then .successorPush p.uid else .islandTaskPush p.uid

/-- The pushes that wait and meet a test are offered again. -/
def owePushes (s : State) (f : Push → Bool) : State :=
  (s.pushes.filter (fun p => f p && !p.paused)).foldl (fun s p => s.oweOnce p.event) s

/-- A launch ends on every island as TKILL ends it (R186): its teams stop, its yard entries and its inbox messages go, and nothing of it
starts any more. `status` and `value` are those of its completion record. A handle without a launch ends its teams alone. -/
def endLaunch (s : State) (u status : Nat) (value : Word64) : State :=
  let s1 := dropUntaken (stopTeams s (fun t => t.id.launch = u)) u
  let mine := fun (c : Coach) => s1.tasks.any (fun k => k.uid = c.task && k.launch = u)
  let s2 := { s1 with
    carters := s1.carters.map (fun (c : CarterSt) => { c with inbox := c.inbox.filter (fun m => !(m.launch = u && m.poster ≠ 0)) })
    launchQ := s1.launchQ.filter (fun e => e.team.launch ≠ u)
    pushes := s1.pushes.filter (fun p => p.launch ≠ u || p.source = 2)
    images := s1.images.filter (fun i => !(i.kind = 1 && s1.coaches.any (fun c => c.uid = i.coach && mine c)))
    tasks := s1.tasks.filter (fun k => k.launch ≠ u) }
  let yards := ((s1.images.filter (fun i => i.chains ≠ [] && s1.coaches.any (fun c => c.uid = i.coach && mine c))).map (fun i => (i.isl, i.core))).eraseDups
  let s3 := yards.foldl (fun s p => s.oweOnce (.chainDispatch p.1 p.2)) ((s1.coaches.filter mine).foldl freeCoach s2)
  let freed := (s1.launchQ.filter (fun e => e.team.launch = u)).map (fun e => (e.isl, e.core))
  let s4 := (s2.carters.map (fun c => (c.isl, c.core))).foldl
    (fun s p => if s.waitMsgs.any (fun w => w.isl = p.1 && w.core = p.2) then s.oweOnce (.counterCarterMessage p.1 p.2) else s)
      (launchRoom (owePushes s3 (fun _ => true)) freed)
  match s4.launch? u with
  | none => s4
  | some l => if l.st = 2 then s4 else settleLaunch (s4.setLaunch { l with st := 2, status := status, value := value }) u

/-- STATUS FAILED, and its VALUE: the ending cause and the island (R378). -/
def failedValue (cause : BitVec 16) (isl : Nat) : Word64 := BitVec.ofNat 64 (cause.toNat + isl % 256 * 2 ^ 16)

/-- TKILL's end of a launch, for a cause met on an island (R186, R378). -/
def killLaunch (s : State) (u : Nat) (cause : BitVec 16) (isl : Nat) : State := endLaunch s u 5 (failedValue cause isl)

/-- The live launches of a context. -/
def ctxLaunches (s : State) (ctx : Nat) : List Nat :=
  ((s.launches.filter (fun l => l.ctx = ctx && l.st ≠ 2)).map (fun l => l.uid)
    ++ (s.threads.filter (fun t => t.live && t.id.ctx = ctx)).map (fun t => t.id.launch)).eraseDups

/-- The bytes of a waybill that have landed: those acknowledged, and those performed at the target whose acknowledgement is under way (R171). -/
def landedBytes (s : State) (w : Waybill) : Nat :=
  w.bytes + ((s.frames.filter (fun g => g.wb = some w.uid && g.phase = 1 && g.kind ≠ 0)).map (fun g => g.size * g.parts.length)).sum

/-- The frames of a waybill that leaves keep the count of its bytes that have landed (R171). -/
def leaveFrames (s : State) (w : Waybill) : State :=
  { s with frames := s.frames.map (fun (g : Frame) => if g.wb = some w.uid then { g with landed := landedBytes s w } else g) }

/-- The engines of a context stop: Carters, waybills, streams, firings, pushes and images go (R188, R388). -/
def stopEngines (s : State) (on : Nat → Bool) (ctx : Nat) : State :=
  let mine := fun (isl c : Nat) => on isl && c = ctx
  let wbHeat := (s.waybills.filter (fun w => mine w.isl w.ctx && w.heatHeld)).map (fun w => w.isl)
  let fiHeat := (s.firings.filter (fun f => mine f.isl f.ctx && f.st ≥ 2)).map (fun f => f.isl)
  let wbAsk := (s.waybills.filter (fun w => mine w.isl w.ctx && w.needHeat && !w.heatHeld)).map (fun w => (w.isl, 1, w.uid))
  let fiAsk := (s.firings.filter (fun f => mine f.isl f.ctx && f.st = 1)).map (fun f => (f.isl, 2, f.uid))
  let gone := s.threads.filter (fun t => t.id.kind = .carter && mine t.id.isl t.id.ctx)
  let s0 := gone.foldl dropHeat s
  let s1 := (wbHeat ++ fiHeat).foldl (fun s i => heatReturn s i 1) s0
  let s2 := (wbAsk ++ fiAsk).foldl (fun s a => heatCancel s a.1 a.2.1 a.2.2) s1
  let ws := (s2.waybills.filter (fun w => mine w.isl w.ctx)).map (fun w => w.uid)
  let stop := fun (t : Thread) =>
    if t.id.kind = .carter ∧ mine t.id.isl t.id.ctx then
      { t with sch := { t.sch with life := .idle, park := .none }, an := { t.an with heat := 0, heatWait := none } } else t
  let s3 := (s2.waybills.filter (fun w => mine w.isl w.ctx)).foldl leaveFrames (s2.mapT stop)
  { s3 with
    waybills := s3.waybills.filter (fun w => !mine w.isl w.ctx)
    streams := s3.streams.filter (fun x => !ws.contains x.wb)
    firings := s3.firings.filter (fun f => !mine f.isl f.ctx)
    pushes := s3.pushes.filter (fun p => !mine p.isl p.ctx)
    tasks := s3.tasks.filter (fun k => !mine k.isl k.ctx)
    coaches := s3.coaches.filter (fun c => !mine c.isl c.ctx)
    images := s3.images.filter (fun i => !mine i.isl i.ctx)
    launchQ := s3.launchQ.filter (fun e => !mine e.isl e.ctx)
    waitMsgs := s3.waitMsgs.filter (fun w => !(gone.any (fun t => t.id.isl = w.isl && t.id.core = w.core)))
    carters := s3.carters.filter (fun c => !(gone.any (fun t => t.id.isl = c.isl && t.id.core = c.core))) }

/-- A context ends after a fatal error: its launches complete FAILED and its engines stop. The driver's CTX_DESTROY frees what is left of
it (R188, R395). -/
def endContext (s : State) (ctx : Nat) (cause : BitVec 16) (isl : Nat) : State :=
  let s1 := (ctxLaunches s ctx).foldl (fun s u => killLaunch s u cause isl) s
  let s2 := stopEngines s1 (fun _ => true) ctx
  { s2 with ctxs := s2.ctxs.map (fun (c : CtxIsl) => if c.ctx = ctx then { c with dead := true } else c) }

/-! ### The fault ring -/

/-- The fields of a fault record (R184), without FLAGS bit LOST, which the ring gives. `time` is the panel time of a fault that was detected
before its record is written. -/
structure FaultRec where
  cause : BitVec 16
  cls : Nat
  flags : Nat
  isl : Nat
  core : Nat
  slot : Nat
  wcode : Nat
  ctx : Nat
  taskId : BitVec 32
  team : Nat
  flane : Nat
  subt : Nat
  lanes : Word64
  xpc : Word64
  xaddr : Word64
  insn : Word32
  atype : Nat
  space : Nat
  risl : Nat
  time : Option Nat := none
  deriving DecidableEq, Repr

/-- The dword at offset 0x00 of a record. -/
def FaultRec.word0 (r : FaultRec) (lost : Bool) : Nat :=
  r.cause.toNat + r.cls * 2 ^ 16 + (r.flags + (if lost then 64 else 0)) * 2 ^ 24 + r.isl * 2 ^ 32 + r.core * 2 ^ 40 + r.slot * 2 ^ 48
    + r.wcode * 2 ^ 56

/-- The dword at offset 0x10 of a record. -/
def FaultRec.word2 (r : FaultRec) : Nat := r.team + r.flane * 2 ^ 32 + r.subt * 2 ^ 40

/-- The dwords of a record. -/
def FaultRec.words (r : FaultRec) (lost : Bool) (time : Nat) : List Nat :=
  [r.word0 lost, r.ctx + r.taskId.toNat * 2 ^ 32, r.word2, r.lanes.toNat, r.xpc.toNat, r.xaddr.toNat,
   r.insn.toNat + r.atype * 2 ^ 32 + r.space * 2 ^ 40 + r.risl * 2 ^ 48, time]

/-- FATAL reported to PF 0's event ring (R421). -/
def postFatal (s : State) (r : FaultRec) (lost : Bool) : State :=
  postEvent s 0 0x87 r.isl r.ctx [BitVec.ofNat 64 (r.word0 lost), r.xpc, r.xaddr, BitVec.ofNat 64 s.time, BitVec.ofNat 64 r.word2]

/-- A context region stops translating: the context ends (R188, R385). -/
def regionLost (s : State) (isl ctx : Nat) : State :=
  let r : FaultRec :=
    { cause := causeRegion, cls := 3, flags := 0, isl := isl, core := 0xFF, slot := 0, wcode := 0, ctx := ctx, taskId := 0, team := 0,
      flane := 0, subt := 0, lanes := 0, xpc := 0, xaddr := 0, insn := 0, atype := 0xFF, space := 0xFF, risl := 0 }
  endContext (postFatal s r false) ctx causeRegion isl

/-- A timeline raised to n: the engine writes its own number into the timeline's word (R107, R123). -/
def timelineRaise (s : State) (t : Timeline) (n : Nat) : State :=
  let s' := s.setTimeline { t with raised := n }
  match timelinePa s' t.isl t.ctx t.unit t.num with
  | none => regionLost s' t.isl t.ctx
  | some pa => l2Put (l2Used (markAD s' t.isl t.ctx (timelineVa s' t.isl t.ctx t.unit t.num) true) t.isl t.ctx 8) t.isl (cellsFrom pa (leBytes 8 n))

/-- A context's fault ring on an island takes a record: it translates, and the line of WCOUNT is not known to be bad (R385, R413; log 40). -/
def ringOk (s : State) (isl ctx : Nat) : Bool :=
  match s.ctx? isl ctx with
  | none => true
  | some c => match peek s isl ctx c.frbase.toNat with
    | none => false
    | some h => !lineBad s isl (h / 128) && (peek s isl ctx (c.frbase.toNat + 64 + 64 * (s.physNat isl h 8 % 2 ^ c.frlog2))).isSome

/-- A record written to the next slot of a context's ring on an island, then WCOUNT raised (R184, R387). It gives the record's address and
whether LOST is set. A ring that stops translating ends the context with REGION_LOST (R385), and so does one whose WCOUNT cannot be read (DESIGN CHOICE,
log 40). -/
def writeFault (s : State) (isl ctx : Nat) (r : FaultRec) : State × Word64 × Bool :=
  match s.ctx? isl ctx with
  | none => (s, 0, false)
  | some c =>
    match peek s isl ctx c.frbase.toNat with
    | none => (regionLost s isl ctx, 0, false)
    | some h =>
      if lineBad s isl (h / 128) then (regionLost s isl ctx, 0, false) else
      let n := s.physNat isl h 8
      let va := c.frbase.toNat + 64 + 64 * (n % 2 ^ c.frlog2)
      match peek s isl ctx va with
      | none => (regionLost s isl ctx, 0, false)
      | some pa =>
        let lost := decide (2 ^ c.frlog2 ≤ n)
        let s0 := l2Used (markAD (markAD s isl ctx c.frbase.toNat true) isl ctx va true) isl ctx 72
        let s1 := l2Put s0 isl (cellsFrom pa ((r.words lost (r.time.getD s.time)).flatMap (leBytes 8)))
        (l2Put s1 isl (cellsFrom h (leBytes 8 (n + 1))), BitVec.ofNat 64 va, lost)

end Sys2Proof.Machine
end

