-- ==== Sys2Proof/Machine/Ops.lean ====
section
/-!
DEFINITION. Taking an exception and returning from one (R178-R191, R380), fatal errors (R188), and the checks that every memory access
shares (R180).
-/
namespace Sys2Proof.Machine

/-! ### Causes and their accesses -/

/-- A cause as an instruction meets it (R180, R182, R184): its code, XADDR, the lane mask, the access's type, space and island word, and the
panel time at which it was detected where that is not now. -/
structure Fx where
  cause : BitVec 16
  xaddr : Word64
  lanes : Word64
  atype : Nat
  space : Nat
  risl : Nat
  time : Option Nat := none
  deriving DecidableEq, Repr

/-- A cause of the instruction as a whole, with no access. -/
def plainFx (c : BitVec 16) : Fx := { cause := c, xaddr := 0, lanes := 0, atype := 0xFF, space := 0xFF, risl := 0 }

/-- A cause with the address that XADDR holds and no lane. -/
def addrFx (c : BitVec 16) (a : Word64) (atype space : Nat) : Fx :=
  { cause := c, xaddr := a, lanes := 0, atype := atype, space := space, risl := 0 }

/-- The lowest lane of a mask. -/
def lowLane (m : Word64) : Nat := ((List.range 64).find? (fun i => m.getLsbD i)).getD 0

/-- Record flags (R184). -/
def flDef : Nat := 1
def flRom : Nat := 2
def flFar : Nat := 4
def flCar : Nat := 8
def flBel : Nat := 16
def flNoh : Nat := 32
def flDlost : Nat := 128

/-- The record of a fault of an agent, its team fields being the agent's own (R184). -/
def recOf (t : Thread) (x : Fx) (cls flags : Nat) (xpc : Word64) (insn : Word32) : FaultRec :=
  { cause := x.cause, cls := cls, flags := flags, isl := t.id.isl, core := t.id.core, slot := t.id.slot,
    wcode := widthCode t.id.width, ctx := t.id.ctx, taskId := t.id.taskId, team := t.id.team, flane := lowLane x.lanes,
    subt := t.subt, lanes := x.lanes, xpc := xpc, xaddr := x.xaddr, insn := insn, atype := x.atype, space := x.space,
    risl := x.risl, time := x.time }

/-- What an agent's Carter holds (R114, R126). -/
def State.carter (s : State) (isl core : Nat) : CarterSt :=
  (s.carters.find? (fun c => c.isl = isl && c.core = core)).getD
    { isl := isl, core := core, inbox := [], pending := [], last := none, lastTeam := none, faultWb := none, named := none,
      heldFaults := [] }

/-- What a Carter holds, written. -/
def State.setCarter (s : State) (c : CarterSt) : State :=
  { s with carters := c :: s.carters.filter (fun d => !(d.isl = c.isl && d.core = c.core)) }

/-- The team that a Carter's record names: the poster of the message last taken, where that came from a team (R189, R190). -/
def namedTeam (s : State) (isl core : Nat) : Option Msg :=
  match (s.carter isl core).last with
  | none => none
  | some m => if m.poster = 0 then none else some m

/-- The record of a Carter's fault: its team fields come from the message last taken (R189). -/
def carterRec (s : State) (t : Thread) (x : Fx) (cls flags : Nat) (xpc : Word64) (insn : Word32) : FaultRec :=
  let base : FaultRec := { recOf t x cls flags xpc insn with slot := 0, wcode := 0, taskId := 0, team := 0, subt := 0 }
  match namedTeam s t.id.isl t.id.core with
  | none => base
  | some m =>
    let r := { base with slot := bitsOf m.tag.toNat 15 8, team := bitsOf m.tag.toNat 31 16 }
    match s.thread? m.poster with
    | none => r
    | some p => { r with wcode := widthCode p.id.width, taskId := p.id.taskId, subt := p.subt }

/-! ### Entering the handler -/

/-- Every depth counter 0. -/
def Thread.clearDc (t : Thread) : Thread := { t with ln := { t.ln with dc := [] } }

/-- The handler entered at an address (R182): the depth counters, PC slots and attached hints are saved, the trap registers set. An
interrupted EXIT.S reads its record again (R235, R236). -/
def Thread.enter (t : Thread) (r : FaultRec) (w0 : Word64) (xinsn : Word64) (xrec tba : Word64) (resume : Option Word64) : Thread :=
  { t with
    tr := { t.tr with
      xpc := r.xpc, xcause := w0, xaddr := r.xaddr, xlanes := r.lanes, xinsn := xinsn, xrec := xrec, handler := true
      cause := r.cause, savedDc := t.ln.dc, savedPc := t.sc.pc, savedPc1 := t.sc.pc1, resume := resume, xpcWritten := false
      savedHints := t.sc.hints, savedSl := t.sl }
    ln := { t.ln with dc := [] }
    sc := { t.sc with pc := tba, pc1 := none, hints := Hints.none }
    sch := { t.sch with exitRec := none }
    sl := Slots.none }

/-- The context's handler address for an agent (R182, R189). -/
def handlerOf (s : State) (t : Thread) : Word64 :=
  match s.ctx? t.id.isl t.id.ctx with
  | none => 0
  | some c => match t.id.kind with
    | .team => c.tba
    | .carter => c.ctba
    | .hub => 0

/-- DOUBLE_FAULT of a team (R187, R188): one record, then its launch ends as TKILL ends it; in report-only mode the context ends. -/
def doubleFault (s : State) (x : Fx) : State :=
  let t := s.cur
  let insn : Word32 := BitVec.ofNat 32 (x.cause.toNat + t.tr.cause.toNat * 2 ^ 16)
  let fl := if t.tr.report then flRom else 0
  let s1 := (writeFault s t.id.isl t.id.ctx (recOf t { x with cause := causeDouble } 4 fl t.sc.pc insn)).1
  if t.tr.report then endContext s1 t.id.ctx t.tr.cause t.id.isl else killLaunch s1 t.id.launch causeDouble t.id.isl

/-- A trap of the running team: class and flags, XPC and XINSN as given; `resume` is the address of the instruction that takes a deferred
trap (R181-R187). Where the record has no ring any more, the context has ended (R385). -/
def teamTrap (s : State) (x : Fx) (cls flags : Nat) (xpc : Word64) (insn : Word32) (resume : Option Word64) : State :=
  let t := s.cur
  if t.tr.handler then doubleFault s x
  else
    let tba := handlerOf s t
    if tba = 0 then
      killLaunch (writeFault s t.id.isl t.id.ctx (recOf t x cls (flags + flNoh) xpc insn)).1 t.id.launch x.cause t.id.isl
    else
      let r := recOf t x cls flags xpc insn
      let w := writeFault s t.id.isl t.id.ctx r
      if !ringOk s t.id.isl t.id.ctx then w.1
      else w.1.updCur (fun t => t.enter r (BitVec.ofNat 64 (r.word0 w.2.2)) (insn.zeroExtend 64) w.2.1 tba resume)

/-- A hub core stops at the faulting instruction and records the trap in its control words (R380, R381). -/
def hubTrap (s : State) (x : Fx) : State :=
  let h := s.cur.id.core
  let set := fun (c : HubCtl) =>
    if c.hub = h then { c with cause := x.cause, fault := true, xpc := s.cur.sc.pc, xaddr := x.xaddr } else c
  { s with
    cur := { s.cur with sch := { s.cur.sch with life := .trapStopped } }
    panel := { s.panel with hubs := s.panel.hubs.map set } }

/-- A waybill by its handle. -/
def State.waybill? (s : State) (u : Nat) : Option Waybill := s.waybills.find? (fun w => w.uid = u)

/-- A waybill written. -/
def State.setWaybill (s : State) (w : Waybill) : State :=
  { s with waybills := s.waybills.map (fun v => if v.uid = w.uid then w else v) }

/-- The running chains that take a stream: its own for an A stream, those of the column for a B stream (R158). -/
def streamUsers (s : State) (x : Stream) : List Chain :=
  s.yard.filter (fun c => c.st = .running && x.chain = some (if x.isA then c.uid else c.lead))

/-- How many k-blocks, from block 0 on, a chain has applied to every slot: after some steps, if none of them had more blocks at hand than
there were steps (R148, R160). -/
def Chain.done (c : Chain) : Nat :=
  ((List.range (c.applied.length + 1)).filter (fun t => (c.applied.take t).all (fun p => decide (p ≤ t)))).foldl max 0

/-- Each chain that takes a stream may apply a block. -/
def oweApply (s : State) (x : Stream) (b : Nat) : State :=
  (streamUsers s x).foldl (fun s c => s.oweOnce (.kblockApply c.isl c.core b)) s

/-- A waybill abandoned: it moves nothing more and counts complete (R189). Its stream delivers no further block, and a chain that waits for
the next one looks at it (R420). -/
def abandonWaybill (s : State) (u : Nat) : State :=
  match s.waybill? u with
  | none => s
  | some w =>
    let mark := fun (x : Stream) => if x.wb = u then { x with blocks := x.blocks ++
      [{ num := x.next, elems := [], scales := [], bad := some (if w.fault = some causeData then causeData else causeMismatch) }] }
      else x
    let s1 := { s with
      waybills := s.waybills.map (fun (v : Waybill) => if v.uid = u then { v with fault := none, paused := false, pushedTo := 2 ^ 32 } else v)
      streams := s.streams.map mark }
    ((s.streams.filter (fun x => x.wb = u)).foldl (fun s x => oweApply s x x.next) s1).owe (.waybillComplete u)

/-- The launch that a Carter's record names ends (R189, R190). -/
def killNamed (s : State) (isl core : Nat) (cause : BitVec 16) : State :=
  match namedTeam s isl core with
  | none => s
  | some m => killLaunch s m.launch cause isl

/-- The Carter restarts at its entry with every scalar register zero; its pending entries return to the head of the inbox in the order
in which they were taken, but for those of an ended launch (R190, R352). -/
def carterRestart (s : State) (t : Thread) (ended : Option Nat) : State :=
  let c := s.carter t.id.isl t.id.core
  let back := c.pending.filter (fun m => m.poster = 0 || ended ≠ some m.launch)
  let s1 := s.setCarter { c with pending := [], inbox := back ++ c.inbox }
  let entry := match s.ctx? t.id.isl t.id.ctx with
    | none => 0
    | some x => x.centry
  s1.updT t.id.uid (fun u =>
    { u with sc := Scalar.zero entry, tr := { u.tr with handler := false, cause := 0, savedHints := Hints.none } })

/-- An interrupted Carter waits for nothing any more: the instruction that waited runs again, or is passed over (R189, R190, R288). -/
def Thread.unwait (t : Thread) : Thread :=
  { t with sch := { t.sch with life := .active, park := .none }, an := { t.an with heatWait := none } }

/-- A request for heat that an interrupted Carter waits for is withdrawn, and a grant not yet taken goes back (R189, R298). -/
def dropHeatWait (s : State) (t : Thread) : State :=
  match t.an.heatWait with
  | none => s
  | some (_, 0) => heatCancel s t.id.isl 3 t.id.uid
  | some (n, _ + 1) => heatReturn (s.updT t.id.uid (fun u => { u with an := { u.an with heat := u.an.heat - n } })) t.id.isl n

/-- A fault of a Carter that is not in its handler: it enters it, or takes the path of no handler (R189, R190). `wb` is the waybill of an
asynchronous fault, whose XPC and word name its CWB; the running instruction is not affected by it, and TRET and TSKIP resume there (log 34). Where
the record has no ring any more, the context has ended (R385). -/
def carterEnter (s : State) (t : Thread) (x : Fx) (wb : Option Waybill) : State :=
  let xpc := (wb.map (fun w => w.xpc)).getD t.sc.pc
  let word := (wb.map (fun w => w.insn)).getD t.sc.insn
  let insn := if wb.isSome ∧ x.atype = 7 then BitVec.ofNat 32 ((wb.map (fun w => w.bytes)).getD 0) else word
  let cls := causeClass x.cause + (if wb.isSome ∧ causeClass x.cause = 0 then 2 else 0)
  let isl := t.id.isl
  if !ringOk s isl t.id.ctx then (writeFault s isl t.id.ctx (carterRec s t x cls flCar xpc insn)).1
  else if handlerOf s t = 0 then
    let s1 := (writeFault s isl t.id.ctx (carterRec s t x cls (flCar + flNoh) xpc insn)).1
    let s2 := match wb with
      | none => s1
      | some w => abandonWaybill s1 w.uid
    (killNamed (dropHeatWait s2 t) isl t.id.core x.cause).updT t.id.uid (fun u => (u.goto (xpc + 4)).dropHints.unwait)
  else
    let r := carterRec s t x cls flCar xpc insn
    let w := writeFault s isl t.id.ctx r
    let s1 := (dropHeatWait w.1 t).updT t.id.uid (fun u => (u.enter r (BitVec.ofNat 64 (r.word0 w.2.2)) (word.zeroExtend 64) w.2.1 (handlerOf s t)
      (if wb.isSome then some t.sc.pc else none)).unwait)
    s1.setCarter { s1.carter isl t.id.core with faultWb := wb.map (fun w => w.uid), named := namedTeam s isl t.id.core }

/-- The Carter of a core and a context. -/
def carterThread (s : State) (isl core ctx : Nat) : Option Thread :=
  s.threads.find? (fun t => t.id.kind = .carter && t.id.isl = isl && t.id.core = core && t.id.ctx = ctx)

/-- The access of a waybill's fault. -/
def wbFx (w : Waybill) : Fx :=
  let f := parseWb w.raw
  { cause := w.fault.getD 0, xaddr := w.faultAddr, lanes := 0, atype := 7, space := w.faultSpace,
    risl := if f.remote then f.risl + 256 * f.rpan else 0, time := some w.faultTime }

/-- A waybill's fault taken by its Carter, which enters its handler (R189). -/
def takeWbFault (s : State) (u : Nat) : State :=
  match s.waybill? u with
  | none => s
  | some w =>
    if w.fault.isNone then s
    else match carterThread s w.isl w.core w.ctx with
      | none => abandonWaybill s u
      | some t => carterEnter s t (wbFx w) (some w)

/-- The held faults of waybills of a launch that has ended are discarded with the waybills (R190). -/
def dropHeld (s : State) (isl core : Nat) (launch : Option Nat) : State :=
  let c := s.carter isl core
  let gone := c.heldFaults.filter (fun u => ((s.waybill? u).map (fun (w : Waybill) => decide (launch = some w.launch))).getD false)
  gone.foldl abandonWaybill (s.setCarter { c with heldFaults := c.heldFaults.filter (fun u => !gone.contains u) })

/-- Held faults are taken one after another, once the handler has ended; those of waybills that have gone or faulted no more are passed
over (R190). -/
def takeHeld (s : State) (isl core : Nat) : State :=
  let c := s.carter isl core
  match c.heldFaults.filter (fun u => ((s.waybill? u).map (fun w => w.fault.isSome)).getD false) with
  | [] => s.setCarter { c with heldFaults := [] }
  | u :: r => takeWbFault (s.setCarter { c with heldFaults := r }) u

/-- A trap of an instruction of the Carter: in its handler a double fault, after which it restarts and the faults that were held are taken; else
it enters its handler (R189, R190). The waybill whose fault the handler was about is abandoned (DESIGN CHOICE, log 34). -/
def carterTrap (s : State) (t : Thread) (x : Fx) : State :=
  let isl := t.id.isl
  if t.tr.handler then
    let named := (namedTeam s isl t.id.core).map (fun m => m.launch)
    let both : Word32 := BitVec.ofNat 32 (x.cause.toNat + t.tr.cause.toNat * 2 ^ 16)
    let s1 := (writeFault s isl t.id.ctx (carterRec s t { x with cause := causeDouble } 4 flCar t.sc.pc both)).1
    let s2 := killNamed s1 isl t.id.core causeDouble
    let s3 := match (s2.carter isl t.id.core).faultWb with
      | none => s2
      | some u => abandonWaybill (s2.setCarter { s2.carter isl t.id.core with faultWb := none }) u
    takeHeld (dropHeld (carterRestart s3 t named) isl t.id.core named) isl t.id.core
  else carterEnter s t x none

/-- A precise trap of the running agent: the one way into a handler (R181-R183, R189, R190, R380). -/
def takeTrap (s : State) (x : Fx) : State :=
  match s.cur.id.kind with
  | .hub => hubTrap s x
  | .team => teamTrap s x (causeClass x.cause) 0 s.cur.sc.pc s.cur.sc.insn none
  | .carter => carterTrap s s.cur x

/-- A precise trap with no access. -/
def trapPlain (s : State) (c : BitVec 16) : State := takeTrap s (plainFx c)

/-- A deferred cause taken at a qualifying instruction (R153, R182): XPC and XINSN are the MCHB's. -/
def takeDeferred (s : State) (d : Deferred) : State :=
  let fl := flDef + (if s.cur.an.lost ≠ 0 then flDlost else 0)
  let s1 := s.updCur (fun t => { t with an := { t.an with deferred := t.an.deferred.filter (fun e => e ≠ d), lost := 0 } })
  teamTrap s1 { plainFx d.cause with xaddr := d.xaddr, time := some d.time } 1 fl d.xpc d.insn (some s.cur.sc.pc)

/-- The pending deferred cause whose chain's MCHE came first (R153). -/
def firstDeferred (t : Thread) : Option Deferred :=
  t.an.deferred.foldl (fun o d => match o with
    | none => some d
    | some e => if d.num < e.num then some d else some e) none

/-! ### Leaving the handler -/

/-- The front end goes on past the instruction of the else-arm that trapped: it is passed, as one that the second stream has issued (R48, R185). -/
def Slots.skipped (x : Slots) : Slots :=
  { x with two := x.two.map (fun m => if m.inElse then { m with seen := m.seen + 1, done := m.done + 1 } else m) }

/-- Handler mode left (R185): the saved depth counters, the second PC slot and the streams return (R48), and the agent resumes at an address; the attached
hints are applied again where they are kept (R334). -/
def Thread.leave (t : Thread) (a : Word64) (hints : Bool) : Thread :=
  { t with
    tr := { t.tr with handler := false, cause := 0, savedDc := [], savedPc1 := none, resume := none, xpcWritten := false
                      savedHints := Hints.none, savedSl := Slots.none }
    sl := t.tr.savedSl
    ln := { t.ln with dc := t.tr.savedDc }
    sc := { t.sc with pc := a, pc1 := t.tr.savedPc1, hints := if hints then t.tr.savedHints else Hints.none } }

/-- Where TRET or TSKIP resumes (R185): the instruction that took a deferred trap, unless the handler has written XPC; else XPC, or the
word after it. -/
def Thread.resumeAt (t : Thread) (skip : Bool) : Word64 :=
  match t.tr.resume with
  | some a => if t.tr.xpcWritten then (if skip then t.tr.xpc + 4 else t.tr.xpc) else a
  | none => if skip then t.tr.xpc + 4 else t.tr.xpc

/-- The attached hints are applied again (R334): not by TSKIP, unless it resumes an interrupted instruction of the Carter, and not after a
write to XPC. -/
def Thread.keepsHints (t : Thread) (skip : Bool) : Bool :=
  (!skip || (t.id.kind = .carter && t.tr.resume.isSome)) && !t.tr.xpcWritten

/-! ### Fatal errors -/

/-- The teams of a context stop at an instruction boundary, but for one and for a handler in report-only mode, and its Carters with them (R188; that the
Carters stop is a DESIGN CHOICE, log 34). -/
def haltCtx (s : State) (ctx : Nat) (but : Nat) : State :=
  let stops := fun (t : Thread) => t.id.ctx = ctx && t.id.kind ≠ .hub && t.id.uid ≠ but && t.sch.life ≠ .ended && !t.tr.report
  admitOn (s.mapT (fun t => if stops t then { t with sch := { t.sch with life := .halted } } else t)) (s.threads.filter stops)

/-- A fatal context error (R171, R188): logged on the given islands and to the panel command processor; every team of the context stops; a
team it names runs its handler in report-only mode, else the context ends. `far` are the islands whose record has FAR set. A further error of
a team that runs its handler so is logged, and the handler goes on (log 34). -/
def fatalError (s : State) (r : FaultRec) (far : List Nat) (who : Option Nat) : State :=
  let named : Option Thread := match who with
    | none => none
    | some u => (s.thread? u).filter (fun (t : Thread) => t.live && t.id.ctx = r.ctx)
  let tba : Word64 := (named.map (handlerOf s)).getD 0
  let fl := if named.isSome then (if tba = 0 then flRom + flNoh else flRom) else 0
  let r1 := { r with flags := r.flags + fl }
  let s1 := far.foldl (fun s i => (writeFault s i r.ctx { r with flags := r.flags + flFar, isl := i }).1) s
  let w := writeFault s1 r.isl r.ctx r1
  let s2 := postFatal w.1 r1 w.2.2
  match named with
  | none => endContext s2 r.ctx r.cause r.isl
  | some t =>
    if !ringOk s1 r.isl r.ctx || !(far.all (fun i => ringOk s i r.ctx)) then s2
    else if tba = 0 then endContext s2 r.ctx r.cause r.isl
    else if t.tr.report then s2
    else
      let s2 := { s2 with ctxs := s2.ctxs.map (fun (c : CtxIsl) =>
        if c.ctx = r.ctx ∧ c.isl = t.id.isl then { c with report := (t.id.uid, s2.cycle, r.cause) :: c.report } else c) }
      let s3 := haltCtx s2 r.ctx t.id.uid
      let s4 := s3.updT t.id.uid (fun u =>
        let e := u.enter r1 (BitVec.ofNat 64 (r1.word0 w.2.2)) (r.insn.zeroExtend 64) w.2.1 tba none
        { e with
          tr := { e.tr with report := true, reportSince := s3.cycle }
          sch := { e.sch with life := .active, park := .none } })
      s4

/-! ### Parking -/

/-- The running agent parks, with the given continuation (R73). A Carter stalls in place instead (R288). -/
def park (s : State) (p : Park) (cont : Word64) : State :=
  s.updCur (fun t =>
    { t with
      sc := { t.sc with pc := cont }
      sch := { t.sch with life := .parked, park := p, woken := false, parkedAt := s.cycle } })

/-- The PAGE_FAULT event of a local page fault (R397). -/
def postPageFault (s : State) (isl ctx : Nat) (va : Word64) (atype : Nat) : State :=
  match s.ctx? isl ctx with
  | none => s
  | some c => postEvent s c.fn 0x80 isl ctx [va, BitVec.ofNat 64 atype]

/-- A local page fault of the running agent: it parks at the instruction, no lane of which takes effect (R94). -/
def parkPage (s : State) (va : Word64) (atype : Nat) : State :=
  (park (postPageFault s s.cur.id.isl s.cur.id.ctx va atype) (.page va) s.cur.sc.pc).oweOnce (.teamAdmission s.cur.id.isl s.cur.id.core)

/-! ### Access checks -/

/-- What one lane, or the one access of a scalar member, meets. -/
inductive Probe where
  | ok (pa mt : Nat)
  | bad (cause : BitVec 16) (va : Word64)
  | page (va : Word64)
  deriving DecidableEq, Repr

/-- An access of a hub core touches the control words of the hub cores (R381): HUBCTL, HUBXPC and HUBXADDR. -/
def hubCtlHit (t : Thread) (a n : Nat) : Bool :=
  t.id.kind = .hub && decide (a < 0xFFFFF060) && decide (0xFFFFF000 < a + n)

/-- One global access probed: the control words of the hub cores, alignment, the bounds of the address space, translation, and bad lines (R89, R180, R226,
R274, R381). A store whose walk meets a line known to be bad finds no page, since no store takes DATA_ERROR (R274; DESIGN CHOICE, log 40). -/
def probeGlobal (s : State) (a : Int) (n : Nat) (acc : Acc) : State × Probe :=
  let t := s.cur
  let va := BitVec.ofInt 64 a
  if 0 ≤ a ∧ hubCtlHit t a.toNat n then (s, .bad causeUnmapped va)
  else if a % n ≠ 0 then (s, .bad causeMisalign va)
  else if a < 0 ∨ a + n > 2 ^ 64 then (s, .bad causeUnmapped va)
  else match translate s t.mIsl t.id.core t.id.ctx va.toNat acc with
    | (s1, .fault c) => (s1, .bad (if acc = .write ∧ c = causeData then causeUnmapped else c) va)
    | (s1, .notPresent) => (s1, .page va)
    | (s1, .ok pa mt) =>
      if acc = .read ∧ gBad s1 t.mIsl t.id.core pa n then (s1, .bad causeData va) else (s1, .ok pa mt)

/-- The order of the per-lane causes (R180). -/
def causeRank (c : BitVec 16) : Nat :=
  if c = causeAbsent then 0 else if c = causeMisalign then 1 else if c = causeUnmapped then 2 else if c = causePerm then 3 else 4

/-- The cause that an instruction takes from its lanes, with its address and mask, or the page fault it parks on (R180). -/
def pickCause (ps : List (Nat × Probe)) : Option (BitVec 16 × Word64 × Word64) :=
  let best := ps.foldl (fun o p => match p.2 with
    | .bad c _ => (match o with
      | none => some c
      | some d => if causeRank c < causeRank d then some c else some d)
    | .ok _ _ => o
    | .page _ => o) (none : Option (BitVec 16))
  match best with
  | none => none
  | some c =>
    let hit := ps.filter (fun p => match p.2 with
      | .bad d _ => d = c
      | .ok _ _ => false
      | .page _ => false)
    let a := match hit.head? with
      | some (_, .bad _ v) => v
      | some (_, .ok _ _) => 0
      | some (_, .page _) => 0
      | none => 0
    some (c, a, laneMask (hit.map (fun p => p.1)))

/-- The first lane that meets a page fault. -/
def pickPage (ps : List (Nat × Probe)) : Option Word64 :=
  ps.findSome? (fun p => match p.2 with
    | .page v => some v
    | .ok _ _ => none
    | .bad _ _ => none)

/-- The physical address of a probe that passed. -/
def Probe.pa : Probe → Nat
  | .ok pa _ => pa
  | .bad _ _ => 0
  | .page _ => 0

/-- The memory type of a probe that passed: 1 stream (R88). -/
def Probe.stream : Probe → Bool
  | .ok _ mt => decide (mt = 1)
  | .bad _ _ => false
  | .page _ => false

/-- Lanes probed one after another. -/
def probeLanes (f : State → Nat → State × Probe) (s : State) : List Nat → State × List (Nat × Probe)
  | [] => (s, [])
  | l :: ls =>
    let q := f s l
    let r := probeLanes f q.1 ls
    (r.1, (l, q.2) :: r.2)

/-- The outcome of an instruction's probes: a trap, a park on a page, or the effect (R180, R181). -/
def afterProbes (s : State) (ps : List (Nat × Probe)) (atype space : Nat) (eff : State → State) : State :=
  match pickCause ps with
  | some (c, a, m) => takeTrap s { cause := c, xaddr := a, lanes := m, atype := atype, space := space, risl := 0 }
  | none => match pickPage ps with
    | some v => parkPage s v atype
    | none => eff s

/-- One access of a scalar member probed, with its trap, its page fault, or its effect at the physical address. -/
def scalarAccess (s : State) (a : Int) (n : Nat) (acc : Acc) (atype : Nat) (eff : State → Nat → Bool → State) : State :=
  let q := probeGlobal s a n acc
  match q.2 with
  | .bad c v => takeTrap q.1 (addrFx c v atype 0)
  | .page v => parkPage q.1 v atype
  | .ok pa mt => eff q.1 pa (decide (mt = 1))

/-- A word read at its atomic unit probed: a line that is bad there traps as one that is bad in the L1 does (R82, R413, R420). -/
def probeUnit (s : State) (a : Int) (n : Nat) : State × Probe :=
  let q := probeGlobal s a n .read
  match q.2 with
  | .ok pa mt => if unitBad q.1 q.1.cur.mIsl q.1.cur.id.core pa then (q.1, .bad causeData (BitVec.ofInt 64 a)) else (q.1, .ok pa mt)
  | .bad c v => (q.1, .bad c v)
  | .page v => (q.1, .page v)

/-- A scalar member's read of a word at its atomic unit, with its trap, its page fault, or its effect at the physical address. -/
def unitAccess (s : State) (a : Int) (n : Nat) (eff : State → Nat → State) : State :=
  let q := probeUnit s a n
  match q.2 with
  | .bad c v => takeTrap q.1 (addrFx c v 1 0)
  | .page v => parkPage q.1 v 1
  | .ok pa _ => eff q.1 pa

/-! ### Counts -/

/-- The count of a class. -/
def Flow.count (f : Flow) : Cls → Nat
  | .ld => f.ld
  | .st => f.st
  | .cp => f.cp
  | .tl => f.tl
  | .rm => f.rm

/-- A count of the running agent changed by a function. -/
def Flow.bump (f : Flow) (c : Cls) (g : Nat → Nat) : Flow :=
  match c with
  | .ld => { f with ld := g f.ld }
  | .st => { f with st := g f.st }
  | .cp => { f with cp := g f.cp }
  | .tl => { f with tl := g f.tl }
  | .rm => { f with rm := g f.rm }

/-- An operation begun: its class's count rises by 1 (R275). `left` parts remain. -/
def Flow.begin_ (f : Flow) (id : Nat) (c : Cls) (left : Nat) : Flow :=
  { f.bump c (· + 1) with ops := f.ops ++ [{ id := id, cls := c, left := left }] }

/-- One part of an operation done: when none remains, its class's count falls by 1 and what it held back is free again; `vs` and `ss` name the
vector and scalar registers it was to write. -/
def Flow.part (f : Flow) (id : Nat) (vs ss : List Nat) : Flow :=
  match f.ops.find? (fun o => o.id = id) with
  | none => f
  | some o =>
    if o.left ≤ 1 then
      { f.bump o.cls (· - 1) with
        ops := f.ops.filter (fun p => p.id ≠ id), fenced := f.fenced.filter (fun x => x ≠ id)
        pendV := f.pendV.filter (fun r => !vs.contains r), pendS := f.pendS.filter (fun r => !ss.contains r) }
    else { f with ops := f.ops.map (fun p => if p.id = id then { p with left := p.left - 1 } else p) }

/-- An agent counts an operation. -/
def Thread.holds (t : Thread) (id : Nat) : Bool := t.fl.ops.any (fun o => o.id = id)

/-- What reaches the scalar side reaches it at every entry of the vector queue, which comes later in program order (R36). -/
def Slots.bring (f : Scalar → Scalar) (x : Slots) : Slots :=
  { x with first := x.first.map (fun e => { e with sc := f e.sc }), second := x.second.map (fun e => { e with sc := f e.sc }) }

/-- One part of an operation done in every agent that counts it, with what it brings them: after SPLIT each copy of the counts falls (R53). -/
def opDeliver (s : State) (id : Nat) (vs ss : List Nat) (f : Thread → Thread) : State :=
  s.mapT (fun t => if t.holds id then let u := f t; { u with fl := u.fl.part id vs ss, sl := u.sl.bring (fun c => (f { t with sc := c }).sc) } else t)

/-- One part of an operation done. -/
def opPart (s : State) (id : Nat) : State := opDeliver s id [] [] (fun t => t)

/-- A word written to a register of a physical lane, where the agent has that lane. -/
def Thread.wrPhys (t : Thread) (r lane : Nat) (x : Word32) : Thread :=
  if 4 * t.id.hitch ≤ lane ∧ lane < 4 * t.id.hitch + t.id.width then t.wrV r (lane - 4 * t.id.hitch) x else t

/-- An operation begun by the running agent. -/
def beginOp (s : State) (c : Cls) (left : Nat) : State × Nat :=
  let (u, s1) := s.take
  (s1.updCur (fun t => { t with fl := t.fl.begin_ u c left }), u)

/-- A local load or store begun; it completes in a step of its own (R275, ACCESS_COMPLETE). -/
def beginAccess (s : State) (c : Cls) : State :=
  let q := beginOp s c 1
  q.1.owe (.accessComplete q.2)

/-- The loads and stores of the present step are performed when they complete. In two-slot mode each is performed when it issues, so that what follows
the ENDIF comes after both arms (R48; log 6). -/
def State.goesLate (s : State) : Bool := s.ord.lag && s.cur.sl.two.isNone && s.cur.id.kind ≠ .hub

/-- A local load or store begun that is performed when it completes; its lines are touched now, and its destination registers wait for it (R65, R71, R275,
R425). -/
def beginLate (s : State) (a : LateAcc) (vs ss : List Nat) : State :=
  let q := beginOp s (if a.load then .ld else .st) 1
  let s1 := a.elems.foldl (fun s e =>
    ownUse (if a.space = 0 then touchAt s a.isl a.core e.2.2.1 else s) a.isl a.core a.space e.2.2.1 e.2.2.2.2.length) q.1
  (State.updCur { s1 with ord := { s1.ord with late := s1.ord.late ++ [{ a with op := q.2 }] } } (fun t =>
    { t with fl := { t.fl with pendV := vs ++ t.fl.pendV, pendS := ss ++ t.fl.pendS } })).owe (.accessComplete q.2)

/-- Every earlier access of the running agent has completed at its L1 or store controller (R103): its loads, stores and atomics. -/
def Thread.accessesDone (t : Thread) : Bool := t.fl.ld = 0 && t.fl.st = 0

/-- An atomic of the running agent that is still under way, or an access of it that is performed late, addresses one of some lines: a later access of the
agent there waits, so that its accesses to one byte take effect in program order (R276). -/
def atomAhead (s : State) (isl : Nat) (lines : List Nat) : Bool :=
  s.atoms.any (fun a => s.cur.holds a.op && a.isl = isl && lines.contains (a.key % 2 ^ 48 / 128))
    || s.ord.late.any (fun a => s.cur.holds a.op && a.space = 0 && a.isl = isl && a.elems.any (fun e => lines.contains (e.2.2.1 / 128)))

/-- An access of the running agent to a typed store that is performed late touches one of some elements of n bytes (R276). -/
def storeAhead (s : State) (space n : Nat) (ps : List Nat) : Bool :=
  s.ord.late.any (fun a => s.cur.holds a.op && a.space = space && a.elems.any (fun e =>
    ps.any (fun p => decide (p < e.2.2.1 + e.2.2.2.2.length) && decide (e.2.2.1 < p + n))))

/-! ### Stalls -/

/-- An agent that executes instructions. -/
def Thread.runnable (t : Thread) : Bool := t.sch.life = .active

/-- The first other agent that executes instructions. -/
def nextAgent (s : State) : Option Nat := (s.others.find? (fun t => t.runnable)).map (fun t => t.id.uid)

/-- Cycles of a millisecond (R6, R16). -/
def msCycles : Nat := 1600000

/-- Cycles of a window of 1,000 rotor cycles, 17.5 ms, in which the firmware measures each plane (R422). -/
def windowCycles : Nat := 28000000

/-- Cycles of one scrub unit: 25 ticks (R410). -/
def unitCycles : Nat := 400

/-- Cycles of an island reset: 50 µs (R412). -/
def resetCycles : Nat := 80000

/-- The live teams of a coach. -/
def coachTeams (s : State) (c : Coach) : List Thread := s.threads.filter (fun t => t.live && t.id.coach = c.uid)

/-- The period of a parked FUSE has passed (R54). -/
def Thread.fuseOver (now : Nat) (t : Thread) : Bool :=
  t.sch.life = .parked && match t.sch.park with
    | .fuse _ _ left since => decide (left < now - since)
    | .none => false
    | .word _ _ _ _ _ _ => false
    | .timeline _ _ _ _ _ _ => false
    | .counter _ _ _ _ => false
    | .launch => false
    | .group _ _ _ _ => false
    | .arrive _ _ => false
    | .yard => false
    | .page _ => false

/-- Every live team of a coach has been parked, the latest of them for 200 µs (R74). -/
def longParked (s : State) (c : Coach) : Bool :=
  !(coachTeams s c).isEmpty
    && (coachTeams s c).all (fun t => t.sch.life = .parked && !t.fuseOver s.cycle && decide (t.sch.parkedAt + 320000 ≤ s.cycle))

/-- An operation has not been performed 1 ms after its issue, or a saved team still awaits its reply then (R171, R192, R390). -/
def frameLate (s : State) (f : Frame) : Bool :=
  decide (f.sentAt + msCycles ≤ s.cycle)
    && (f.phase = 0 || (f.phase = 1 && f.wb.isNone && s.threads.any (fun t => t.sch.life = .swapped && t.holds f.op)))

/-- The steps whose time has come, which are owed once the clock stands at a cycle (R54, R68, R74, R75, R171, R188, R403, R410, R412, R422).
The margin that the firmware measures at the end of a link's window is a free value (log 4). -/
def timedSteps (s : State) (before : Nat) : List Event :=
  (s.islands.filter (fun i => i.scrubRun && !i.resetting && decide (i.scrubAt + unitCycles * (i.scrubDone + 1) ≤ s.cycle))).map
      (fun i => .scrubUnit i.isl)
    ++ (s.islands.filter (fun i => i.resetting && decide (i.resetAt + resetCycles ≤ s.cycle))).map (fun i => .islandResetEnd i.isl)
    ++ (if before / msCycles = s.cycle / msCycles then [] else s.meters.map (fun m => .energyWindow m.isl))
    ++ (if before / windowCycles = s.cycle / windowCycles then []
        else (List.range Config.nisl).flatMap (fun i => (List.range 8).map (fun p =>
          .linkWindowEnd i p (BitVec.ofNat 8 (Config.freeChoice (s.fresh + 8 * i + p))))))
    ++ (s.ctxs.flatMap (fun c => if c.dead then [] else c.report)).filterMap (fun r =>
        if r.2.1 + msCycles ≤ s.cycle then some (.reportOnlyTimeout r.1) else none)
    ++ (s.frames.filter (frameLate s)).map (fun f => .remoteTimeout f.uid)
    ++ (s.threads.filter (Thread.fuseOver s.cycle)).map (fun t => .fuseTimeout t.id.uid)
    ++ (s.threads.filter (fun t => t.id.kind = .team && t.sch.life = .inactive && decide (t.sch.inactiveAt + 16 * msCycles ≤ s.cycle))).map
        (fun t => .teamForced t.id.uid)
    ++ (if before / (2 * msCycles) = s.cycle / (2 * msCycles) then []
        else ((s.coaches.map (fun c => (c.isl, c.core))).eraseDups).map (fun p => .quantumBoundary p.1 p.2))
    ++ (s.coaches.filter (fun c => !c.swapped && longParked s c)).map (fun c => .swapOut c.uid)

/-- Time passes, in cycles, and each step whose time has come is owed. -/
def passTime (s : State) (n : Nat) : State :=
  let s' := { s with cycle := s.cycle + n }
  (timedSteps s' s.cycle).foldl State.oweOnce s'

/-- A step that must wait tries again later: a cycle passes. -/
def waitStep (s : State) (e : Event) : State := passTime (s.oweOnce e) 1

/-- The running agent gives way to another, which it follows among the others. -/
def giveWay (s : State) (u : Nat) : State :=
  match s.others.find? (fun t => t.id.uid = u) with
  | none => s
  | some t => { s with cur := t, others := s.others.filter (fun x => x.id.uid ≠ u) ++ [s.cur] }

/-- An instruction that must wait at issue: nothing of it happens, and its pc stands. An owed step comes next, or another agent, or a cycle
passes. -/
def stall (s : State) : State :=
  if s.due = [] then
    match nextAgent s with
    | some u => giveWay s u
    | none => passTime s 1
  else { s with agenda := .due 0 :: s.agenda }

end Sys2Proof.Machine
end

