-- ==== Sys2Proof/Machine/Flags.lean ====
section
/-!
DEFINITION. The floating-point formats, exact values, rounding and the flags it raises (R134-R138), and the FP trap of the float members
(R240).
-/
namespace Sys2Proof.Machine

/-! ### Flags -/

/-- Bits of the flag register (R138). -/
def fNX : BitVec 5 := 1
def fUF : BitVec 5 := 2
def fOF : BitVec 5 := 4
def fDZ : BitVec 5 := 8
def fNV : BitVec 5 := 16

/-! ### Formats -/

/-- A floating-point format (R134, R144): exponent bits, fraction bits, bias, and whether it has infinities. -/
structure Fmt where
  eb : Nat
  f : Nat
  bias : Nat
  infs : Bool
  deriving DecidableEq, Repr

def fp32 : Fmt := { eb := 8, f := 23, bias := 127, infs := true }
def fp16 : Fmt := { eb := 5, f := 10, bias := 15, infs := true }
def bf16 : Fmt := { eb := 8, f := 7, bias := 127, infs := true }
def e4m3 : Fmt := { eb := 4, f := 3, bias := 7, infs := false }
def e5m2 : Fmt := { eb := 5, f := 2, bias := 15, infs := true }
def e11m44 : Fmt := { eb := 11, f := 44, bias := 1023, infs := true }

/-- The largest exponent field. -/
def Fmt.emax (k : Fmt) : Nat := 2 ^ k.eb - 1

/-- The sign bit as a number. -/
def Fmt.signBit (k : Fmt) (neg : Bool) : Nat := if neg then 2 ^ (k.eb + k.f) else 0

/-- The infinity of a sign. -/
def Fmt.inf (k : Fmt) (neg : Bool) : Nat := k.signBit neg + k.emax * 2 ^ k.f

/-- The canonical NaN (R134, R144): quiet, or 0x7F in E4M3. -/
def Fmt.nan (k : Fmt) : Nat := if k.infs then k.emax * 2 ^ k.f + 2 ^ (k.f - 1) else 2 ^ (k.eb + k.f) - 1

/-- The largest finite magnitude, as bits (R134). -/
def Fmt.maxBits (k : Fmt) : Nat := if k.infs then k.emax * 2 ^ k.f - 1 else 2 ^ (k.eb + k.f) - 2

/-- What a bit pattern stands for: a finite value is (−1)^neg · m · 2^e. -/
inductive Fp where
  | nan
  | inf (neg : Bool)
  | fin (neg : Bool) (m : Nat) (e : Int)
  deriving DecidableEq, Repr

/-- The value of a pattern (R135). -/
def Fmt.decode (k : Fmt) (x : Nat) : Fp :=
  let neg := bitOf x (k.eb + k.f)
  let ef := x / 2 ^ k.f % 2 ^ k.eb
  let m := x % 2 ^ k.f
  if k.infs ∧ ef = k.emax then (if m = 0 then .inf neg else .nan)
  else if !k.infs ∧ ef = k.emax ∧ m = 2 ^ k.f - 1 then .nan
  else if ef = 0 then .fin neg m (1 - (k.bias : Int) - k.f)
  else .fin neg (2 ^ k.f + m) ((ef : Int) - k.bias - k.f)

/-! ### Rounding -/

/-- Rounding modes (R137). -/
def rne : BitVec 2 := 0
def rtz : BitVec 2 := 1
def rup : BitVec 2 := 2
def rdn : BitVec 2 := 3

/-- Whether a magnitude cut to n whole units goes up by one, given what was cut: the remainder against one half, and more below it (R137). -/
def goesUp (md : BitVec 2) (neg : Bool) (n rem half : Nat) (sticky : Bool) : Bool :=
  let inexact := decide (rem ≠ 0) || sticky
  if md = rne then decide (half < rem) || (decide (rem = half) && decide (0 < rem) && (sticky || decide (n % 2 = 1)))
  else if md = rtz then false
  else if md = rup then !neg && inexact
  else neg && inexact

/-- The magnitude m · 2^e, with more below it where `sticky`, rounded to a whole number of units 2^q: the units, and whether inexact. -/
def unitsAt (md : BitVec 2) (neg : Bool) (m : Nat) (e q : Int) (sticky : Bool) : Nat × Bool :=
  if q ≤ e then (m * 2 ^ (e - q).toNat, sticky)
  else
    let k := (q - e).toNat
    let n := m / 2 ^ k
    let rem := m % 2 ^ k
    (n + b2n (goesUp md neg n rem (2 ^ (k - 1)) sticky), decide (rem ≠ 0) || sticky)

/-- What an overflow delivers (R137). -/
def overflowTo (k : Fmt) (md : BitVec 2) (sat neg : Bool) : Nat :=
  let toInf := md = rne || (md = rup && !neg) || (md = rdn && neg)
  if sat || !toInf then k.signBit neg + k.maxBits else if k.infs then k.inf neg else k.nan

/-- The value ± m · 2^e, with more below it where `sticky`, rounded into a format, with the flags it raises (R137, R138). -/
def roundTo (k : Fmt) (md : BitVec 2) (sat neg : Bool) (m : Nat) (e : Int) (sticky : Bool) : Nat × BitVec 5 :=
  if m = 0 then (k.signBit neg, 0)
  else
    let emin : Int := 1 - (k.bias : Int)
    let top : Int := e + (Nat.log2 m : Nat)
    let q := max (top - k.f) (emin - k.f)
    let u := unitsAt md neg m e q sticky
    let bits := (q - (emin - k.f)).toNat * 2 ^ k.f + u.1
    if k.maxBits < bits then (overflowTo k md sat neg, fOF ||| fNX)
    else
      let tiny := decide (top < emin) && decide ((unitsAt md neg m e (top - k.f) sticky).1 < 2 ^ (k.f + (emin - top).toNat))
      (k.signBit neg + bits, if u.2 then (if tiny then fUF ||| fNX else fNX) else 0)

/-- The sign of an exact zero sum (R137, R240). -/
def zeroSign (md : BitVec 2) (n1 n2 : Bool) (bothZero : Bool) : Bool := if bothZero ∧ n1 = n2 then n1 else decide (md = rdn)

/-- A finite value as a whole number of units 2^q, for q not above its exponent. -/
def finUnits (neg : Bool) (m : Nat) (e q : Int) : Int := (if neg then -1 else 1) * ((m * 2 ^ (e - q).toNat : Nat) : Int)

/-- The sum of two exact values: the value, and NV for ∞ − ∞ (R136, R240). -/
def fpAdd (md : BitVec 2) (x y : Fp) : Fp × BitVec 5 :=
  match x, y with
  | .nan, _ => (.nan, 0)
  | .inf _, .nan => (.nan, 0)
  | .fin _ _ _, .nan => (.nan, 0)
  | .inf a, .inf b => if a = b then (.inf a, 0) else (.nan, fNV)
  | .inf a, .fin _ _ _ => (.inf a, 0)
  | .fin _ _ _, .inf b => (.inf b, 0)
  | .fin n1 m1 e1, .fin n2 m2 e2 =>
    let q := min e1 e2
    let v := finUnits n1 m1 e1 q + finUnits n2 m2 e2 q
    if v = 0 then (.fin (zeroSign md n1 n2 (m1 = 0 && m2 = 0)) 0 q, 0) else (.fin (v < 0) v.natAbs q, 0)

/-- The sign of an exact zero sum outside the members of R240 (R137): +0, and −0 under RDN, also where both addends are zeros of one sign. -/
def Fp.zeroSum (md : BitVec 2) : Fp → Fp
  | .nan => .nan
  | .inf a => .inf a
  | .fin a m e => if m = 0 then .fin (md = rdn) 0 e else .fin a m e

/-- The sum of two exact values with the sign of zero of R137 alone: of the atomics, the Anvil, the Bellows and the Carter, which R240 does not
name. -/
def fpSum (md : BitVec 2) (x y : Fp) : Fp × BitVec 5 := ((fpAdd md x y).1.zeroSum md, (fpAdd md x y).2)

/-- The product of two exact values: the value, and NV for 0 × ∞. -/
def fpMul (x y : Fp) : Fp × BitVec 5 :=
  match x, y with
  | .nan, _ => (.nan, 0)
  | .inf _, .nan => (.nan, 0)
  | .fin _ _ _, .nan => (.nan, 0)
  | .inf a, .inf b => (.inf (a ^^ b), 0)
  | .inf a, .fin b m _ => if m = 0 then (.nan, fNV) else (.inf (a ^^ b), 0)
  | .fin a m _, .inf b => if m = 0 then (.nan, fNV) else (.inf (a ^^ b), 0)
  | .fin a m e, .fin b n g => (.fin (a ^^ b) (m * n) (e + g), 0)

/-- The negated value. -/
def Fp.neg : Fp → Fp
  | .nan => .nan
  | .inf a => .inf (!a)
  | .fin a m e => .fin (!a) m e

/-- Whether a value is a NaN. -/
def Fp.isNan : Fp → Bool
  | .nan => true
  | .inf _ => false
  | .fin _ _ _ => false

/-- a × b + c, exactly; a NaN operand gives a NaN and no flag (R240, R246, R251). -/
def fpFma (md : BitVec 2) (a b c : Fp) : Fp × BitVec 5 :=
  if a.isNan || b.isNan || c.isNan then (.nan, 0)
  else
    let p := fpMul a b
    if p.1.isNan then (.nan, p.2) else fpAdd md p.1 c

/-- An exact value delivered in a format. -/
def deliver (k : Fmt) (md : BitVec 2) (x : Fp × BitVec 5) : Nat × BitVec 5 :=
  match x.1 with
  | .nan => (k.nan, x.2)
  | .inf a => (k.inf a, x.2)
  | .fin a m e =>
    let r := roundTo k md false a m e false
    (r.1, x.2 ||| r.2)

/-! ### Float members -/

/-- The current rounding mode: an HMOD mode directly before, else RMODE (R206, R336). -/
def Thread.mode (t : Thread) : BitVec 2 :=
  match t.sc.hints.hmod with
  | none => t.sc.rmode
  | some h => if h.toNat % 8 ≥ 4 then BitVec.ofNat 2 h.toNat else t.sc.rmode

/-- The flags that trap: FPTE, which acts as zero in handler mode (R138, R182). -/
def Thread.trapFlags (t : Thread) : BitVec 5 := if t.tr.handler then 0 else t.sc.fpte

/-- The active lanes that would raise an enabled flag. -/
def fpTrapLanes (t : Thread) (ls : List Nat) (fl : Nat → BitVec 5) : List Nat := ls.filter (fun l => fl l &&& t.trapFlags ≠ 0)

/-- The FP trap, or the effect (R240). -/
def fpGuard (ls : List Nat) (fl : Nat → BitVec 5) (s k : State) : State :=
  let bad := fpTrapLanes s.cur ls fl
  if bad = [] then k else takeTrap s { plainFx causeFp with lanes := laneMask bad }

/-- A float member that writes vd and the flags of each active lane (R239, R240). -/
def floatOp (d p : Nat) (f : Thread → Nat → Word32 × BitVec 5) (s : State) : State :=
  let t := s.cur
  let ls := t.activeLanes p
  fpGuard ls (fun l => (f t l).2) s
    ((s.updCur (fun t => (t.wrLanes d (fun l => (f t l).1) ls).orFlagLanes (fun l => (f t l).2) ls)).retire)

/-- A float member that writes predicate pd and the flags of each active lane (R248). -/
def floatPred (d p : Nat) (f : Thread → Nat → Bool × BitVec 5) (s : State) : State :=
  let t := s.cur
  let ls := t.activeLanes p
  fpGuard ls (fun l => (f t l).2) s
    ((s.updCur (fun t => (t.wrPreds d (fun l => (f t l).1) ls).orFlagLanes (fun l => (f t l).2) ls)).retire)

end Sys2Proof.Machine
end

