-- ==== Sys2Proof/Machine/Float.lean ====
section
/-!
DEFINITION. The vector float members and conversions (majors 0x20 to 0x29; R239, R240, R246-R255, R140-R142). Each result is the exact
value rounded once; a function with irrational values is computed to several hundred bits, with what lies below them as one sticky bit.
-/
namespace Sys2Proof.Machine

/-! ### Arithmetic (R246, R251, R252) -/

/-- FADD, FSUB, FMUL and their like in a format. -/
def fAdd (k : Fmt) (md : BitVec 2) (a b : Nat) : Nat × BitVec 5 := deliver k md (fpAdd md (k.decode a) (k.decode b))
/-- The rounded sum with the sign of zero of R137 alone. -/
def fSum (k : Fmt) (md : BitVec 2) (a b : Nat) : Nat × BitVec 5 := deliver k md (fpSum md (k.decode a) (k.decode b))
def fSub (k : Fmt) (md : BitVec 2) (a b : Nat) : Nat × BitVec 5 := deliver k md (fpAdd md (k.decode a) (k.decode b).neg)
def fMul (k : Fmt) (md : BitVec 2) (a b : Nat) : Nat × BitVec 5 := deliver k md (fpMul (k.decode a) (k.decode b))
/-- ± a × b ± c with one rounding. -/
def fFma (k : Fmt) (md : BitVec 2) (negP negC : Bool) (a b c : Nat) : Nat × BitVec 5 :=
  let x := k.decode a
  let z := k.decode c
  deliver k md (fpFma md (if negP then x.neg else x) (k.decode b) (if negC then z.neg else z))

/-- A result of a lane. -/
def word32 (x : Nat × BitVec 5) : Word32 × BitVec 5 := (BitVec.ofNat 32 x.1, x.2)

/-- A float member of two FP32 sources. -/
def fBin (f : BitVec 2 → Nat → Nat → Nat × BitVec 5) (d a b : BitVec 7) (p : BitVec 3) (s : State) : State :=
  floatOp d.toNat p.toNat (fun t l => word32 (f t.mode (t.rdV a.toNat l).toNat (t.rdV b.toNat l).toNat)) s

/-- A float member of one FP32 source. -/
def fUn (f : BitVec 2 → Nat → Nat × BitVec 5) (d a : BitVec 7) (p : BitVec 3) (s : State) : State :=
  floatOp d.toNat p.toNat (fun t l => word32 (f t.mode (t.rdV a.toNat l).toNat)) s

/-- A fused member of three sources. -/
def fTri (negP negC : Bool) (d a b c p : Nat) (s : State) : State :=
  floatOp d p (fun t l => word32 (fFma fp32 t.mode negP negC (t.rdV a l).toNat (t.rdV b l).toNat (t.rdV c l).toNat)) s

/-- Both halves of a lane in a 16-bit format, with the OR of their flags (R252). -/
def fHalves (f : Nat → Nat → Nat → Nat × BitVec 5) (d a b : Word32) : Word32 × BitVec 5 :=
  let lo := f (d.toNat % 65536) (a.toNat % 65536) (b.toNat % 65536)
  let hi := f (d.toNat / 65536) (a.toNat / 65536) (b.toNat / 65536)
  (BitVec.ofNat 32 (lo.1 + 65536 * hi.1), lo.2 ||| hi.2)

/-- A packed float member. -/
def fPacked (f : BitVec 2 → Nat → Nat → Nat → Nat × BitVec 5) (d a b : BitVec 7) (p : BitVec 3) (s : State) : State :=
  floatOp d.toNat p.toNat
    (fun t l => fHalves (fun x y z => f t.mode x y z) (t.rdV d.toNat l) (t.rdV a.toNat l) (t.rdV b.toNat l)) s

def execFadd (d a b : BitVec 7) (p : BitVec 3) (s : State) : Result := goOn (fBin (fAdd fp32) d a b p s)
def execFsub (d a b : BitVec 7) (p : BitVec 3) (s : State) : Result := goOn (fBin (fSub fp32) d a b p s)
def execFmul (d a b : BitVec 7) (p : BitVec 3) (s : State) : Result := goOn (fBin (fMul fp32) d a b p s)
def execFmac (d a b : BitVec 7) (p : BitVec 3) (s : State) : Result :=
  goOn (fTri false false d.toNat a.toNat b.toNat d.toNat p.toNat s)
def execFma (d a b c : BitVec 5) (p : BitVec 3) (s : State) : Result :=
  goOn (fTri false false d.toNat a.toNat b.toNat c.toNat p.toNat s)
def execFms (d a b c : BitVec 5) (p : BitVec 3) (s : State) : Result :=
  goOn (fTri false true d.toNat a.toNat b.toNat c.toNat p.toNat s)
def execFnma (d a b c : BitVec 5) (p : BitVec 3) (s : State) : Result :=
  goOn (fTri true false d.toNat a.toNat b.toNat c.toNat p.toNat s)
def execFnms (d a b c : BitVec 5) (p : BitVec 3) (s : State) : Result :=
  goOn (fTri true true d.toNat a.toNat b.toNat c.toNat p.toNat s)

def execHadd2 (d a b : BitVec 7) (p : BitVec 3) (s : State) : Result := goOn (fPacked (fun m _ y z => fAdd fp16 m y z) d a b p s)
def execHmul2 (d a b : BitVec 7) (p : BitVec 3) (s : State) : Result := goOn (fPacked (fun m _ y z => fMul fp16 m y z) d a b p s)
def execHfmac2 (d a b : BitVec 7) (p : BitVec 3) (s : State) : Result :=
  goOn (fPacked (fun m x y z => fFma fp16 m false false y z x) d a b p s)
def execBadd2 (d a b : BitVec 7) (p : BitVec 3) (s : State) : Result := goOn (fPacked (fun m _ y z => fAdd bf16 m y z) d a b p s)
def execBmul2 (d a b : BitVec 7) (p : BitVec 3) (s : State) : Result := goOn (fPacked (fun m _ y z => fMul bf16 m y z) d a b p s)
def execBfmac2 (d a b : BitVec 7) (p : BitVec 3) (s : State) : Result :=
  goOn (fPacked (fun m x y z => fFma bf16 m false false y z x) d a b p s)

/-! ### Minimum, maximum and compares (R247, R248) -/

/-- A key that orders the patterns that are not NaN, −0 below +0. -/
def Fmt.key (k : Fmt) (x : Nat) : Int :=
  let mag : Nat := x % 2 ^ (k.eb + k.f)
  if bitOf x (k.eb + k.f) then -(mag : Int) - 1 else mag

/-- A key in which +0 equals −0. -/
def Fmt.value (k : Fmt) (x : Nat) : Int :=
  let mag : Nat := x % 2 ^ (k.eb + k.f)
  if bitOf x (k.eb + k.f) then -(mag : Int) else mag

/-- Whether a pattern is a NaN. -/
def Fmt.isNan (k : Fmt) (x : Nat) : Bool := (k.decode x).isNan

/-- The smaller or the larger; one NaN gives the other operand, or the canonical NaN where NaNs propagate (R247). -/
def fPick (k : Fmt) (larger propagate : Bool) (a b : Nat) : Nat × BitVec 5 :=
  if k.isNan a ∧ k.isNan b then (k.nan, 0)
  else if k.isNan a then (if propagate then k.nan else b, 0)
  else if k.isNan b then (if propagate then k.nan else a, 0)
  else if decide (k.key a < k.key b) = larger then (b, 0) else (a, 0)

def execFmin (d a b : BitVec 7) (p : BitVec 3) (s : State) : Result := goOn (fBin (fun _ => fPick fp32 false false) d a b p s)
def execFmax (d a b : BitVec 7) (p : BitVec 3) (s : State) : Result := goOn (fBin (fun _ => fPick fp32 true false) d a b p s)
def execFminm (d a b : BitVec 7) (p : BitVec 3) (s : State) : Result := goOn (fBin (fun _ => fPick fp32 false true) d a b p s)
def execFmaxm (d a b : BitVec 7) (p : BitVec 3) (s : State) : Result := goOn (fBin (fun _ => fPick fp32 true true) d a b p s)
def execHmax2 (d a b : BitVec 7) (p : BitVec 3) (s : State) : Result :=
  goOn (fPacked (fun _ _ y z => fPick fp16 true false y z) d a b p s)
def execBmax2 (d a b : BitVec 7) (p : BitVec 3) (s : State) : Result :=
  goOn (fPacked (fun _ _ y z => fPick bf16 true false y z) d a b p s)

/-- A float compare; a NaN gives false, with the flag that the member raises (R248). -/
def fCompare (flag : BitVec 5) (rel : Int → Int → Bool) (a b : Nat) : Bool × BitVec 5 :=
  if fp32.isNan a || fp32.isNan b then (false, flag) else (rel (fp32.value a) (fp32.value b), 0)

/-- A float compare of two registers. -/
def fCmp (f : Nat → Nat → Bool × BitVec 5) (d : BitVec 3) (a b : BitVec 7) (p : BitVec 3) (s : State) : State :=
  floatPred d.toNat p.toNat (fun t l => f (t.rdV a.toNat l).toNat (t.rdV b.toNat l).toNat) s

def execFceq (d : BitVec 3) (a b : BitVec 7) (p : BitVec 3) (s : State) : Result :=
  goOn (fCmp (fCompare 0 (fun x y => decide (x = y))) d a b p s)
def execFclt (d : BitVec 3) (a b : BitVec 7) (p : BitVec 3) (s : State) : Result :=
  goOn (fCmp (fCompare fNV (fun x y => decide (x < y))) d a b p s)
def execFcle (d : BitVec 3) (a b : BitVec 7) (p : BitVec 3) (s : State) : Result :=
  goOn (fCmp (fCompare fNV (fun x y => decide (x ≤ y))) d a b p s)
def execFcun (d : BitVec 3) (a b : BitVec 7) (p : BitVec 3) (s : State) : Result :=
  goOn (fCmp (fun x y => (fp32.isNan x || fp32.isNan y, 0)) d a b p s)

/-! ### Division and roots (R249) -/

/-- The largest r below 2^n with r² at most x. -/
def isqrt (x : Nat) : Nat → Nat → Nat
  | 0, r => r
  | n + 1, r => if (r + 2 ^ n) * (r + 2 ^ n) ≤ x then isqrt x n (r + 2 ^ n) else isqrt x n r

/-- a ÷ b for exact values (R249). -/
def fpDiv (md : BitVec 2) (x y : Fp) : Nat × BitVec 5 :=
  match x, y with
  | .nan, _ => (fp32.nan, 0)
  | .inf _, .nan => (fp32.nan, 0)
  | .fin _ _ _, .nan => (fp32.nan, 0)
  | .inf _, .inf _ => (fp32.nan, fNV)
  | .inf a, .fin b _ _ => (fp32.inf (a ^^ b), 0)
  | .fin a _ _, .inf b => (fp32.signBit (a ^^ b), 0)
  | .fin a m e, .fin b n g =>
    if n = 0 then (if m = 0 then (fp32.nan, fNV) else (fp32.inf (a ^^ b), fDZ))
    else roundTo fp32 md false (a ^^ b) (m * 2 ^ 64 / n) (e - g - 64) (decide (m * 2 ^ 64 % n ≠ 0))

/-- The value 1. -/
def fpOne : Fp := .fin false 1 0

/-- √a (R249). -/
def fSqrt (md : BitVec 2) (a : Nat) : Nat × BitVec 5 :=
  match fp32.decode a with
  | .nan => (fp32.nan, 0)
  | .inf neg => if neg then (fp32.nan, fNV) else (fp32.inf false, 0)
  | .fin neg m e =>
    if m = 0 then (fp32.signBit neg, 0)
    else if neg then (fp32.nan, fNV)
    else
      let k : Nat := if e % 2 = 0 then 64 else 65
      let x := m * 2 ^ k
      let r := isqrt x 46 0
      roundTo fp32 md false false r ((e - k) / 2) (decide (r * r ≠ x))

/-- 1 ÷ √a (R249). -/
def fRsq (md : BitVec 2) (a : Nat) : Nat × BitVec 5 :=
  match fp32.decode a with
  | .nan => (fp32.nan, 0)
  | .inf neg => if neg then (fp32.nan, fNV) else (0, 0)
  | .fin neg m e =>
    if m = 0 then (fp32.inf neg, fDZ)
    else if neg then (fp32.nan, fNV)
    else
      let x := if e % 2 = 0 then m else 2 * m
      let g : Int := if e % 2 = 0 then e else e - 1
      let r := isqrt (2 ^ 128 / x) 65 0
      roundTo fp32 md false false r (-(g / 2) - 64) (decide (r * r * x ≠ 2 ^ 128))

def execFdiv (d a b : BitVec 7) (p : BitVec 3) (s : State) : Result :=
  goOn (fBin (fun m x y => fpDiv m (fp32.decode x) (fp32.decode y)) d a b p s)
def execFsqrt (d a : BitVec 7) (p : BitVec 3) (s : State) : Result := goOn (fUn fSqrt d a p s)
def execFrsq (d a : BitVec 7) (p : BitVec 3) (s : State) : Result := goOn (fUn fRsq d a p s)
def execFrcp (d a : BitVec 7) (p : BitVec 3) (s : State) : Result :=
  goOn (fUn (fun m x => fpDiv m fpOne (fp32.decode x)) d a p s)

/-! ### Exponential, logarithm and circular functions (R250) -/

/-- ln 2 in units of 2^−300. -/
def ln2Units : Nat := 0xb17217f7d1cf79abc9e3b39803f2f6af40f343267298b62d8a0d175b8baafa2be7b876206de

/-- π in units of 2^−450. -/
def piUnits : Nat :=
  0xc90fdaa22168c234c4c6628b80dc1cd129024e088a67cc74020bbea63b139b22514a08798e3404ddef9519b3cd3a431b302b0a6df25f14374

/-- The sum of x^k ÷ k! from a term on, in units of 2^−300. -/
def expSum (x : Nat) : Nat → Nat → Nat → Nat
  | 0, _, _ => 0
  | n + 1, k, term => term + expSum x n (k + 1) (term * x / 2 ^ 300 / (k + 1))

/-- The sum of z^(2k+1) ÷ (2k+1) from a power on, in units of 2^−300. -/
def atanhSum (z2 : Nat) : Nat → Nat → Nat → Nat
  | 0, _, _ => 0
  | n + 1, k, pow => pow / (2 * k + 1) + atanhSum z2 n (k + 1) (pow * z2 / 2 ^ 300)

/-- The alternating sum of the sine from a term on, in units of 2^−450. -/
def sinSum (y2 : Nat) : Nat → Nat → Nat → Int
  | 0, _, _ => 0
  | n + 1, k, term => (term : Int) - sinSum y2 n (k + 1) (term * y2 / 2 ^ 450 / ((2 * k + 2) * (2 * k + 3)))

/-- 2^a (R250). -/
def fExp2 (md : BitVec 2) (a : Nat) : Nat × BitVec 5 :=
  match fp32.decode a with
  | .nan => (fp32.nan, 0)
  | .inf neg => if neg then (0, 0) else (fp32.inf false, 0)
  | .fin neg m e =>
    if m ≠ 0 ∧ e + (Nat.log2 m : Nat) ≥ 8 then roundTo fp32 md false false 1 (if neg then -1000 else 1000) false
    else
      let x := finUnits neg m e (-149)
      let i := x / (2 ^ 149 : Nat)
      let fr := (x % (2 ^ 149 : Nat)).toNat
      if fr = 0 then roundTo fp32 md false false 1 i false
      else roundTo fp32 md false false (expSum (fr * ln2Units / 2 ^ 149) 64 0 (2 ^ 300)) (i - 300) true

/-- log2 a (R250). -/
def fLog2 (md : BitVec 2) (a : Nat) : Nat × BitVec 5 :=
  match fp32.decode a with
  | .nan => (fp32.nan, 0)
  | .inf neg => if neg then (fp32.nan, fNV) else (fp32.inf false, 0)
  | .fin neg m e =>
    if m = 0 then (fp32.inf true, fDZ)
    else if neg then (fp32.nan, fNV)
    else
      let top := Nat.log2 m
      let i := e + (top : Nat)
      if m = 2 ^ top then roundTo fp32 md false (i < 0) i.natAbs 0 false
      else
        let z := (m - 2 ^ top) * 2 ^ 300 / (m + 2 ^ top)
        let ln := 2 * atanhSum (z * z / 2 ^ 300) 100 0 z
        let v := i * (2 ^ 300 : Nat) + ((ln * 2 ^ 300 / ln2Units : Nat) : Int)
        roundTo fp32 md false (v < 0) v.natAbs (-300) true

/-- sin(π · r) for an angle r in units of 2^−149; `zeroNeg` is the sign of a zero (R250). -/
def sinPi (md : BitVec 2) (r : Nat) (flip zeroNeg : Bool) : Nat × BitVec 5 :=
  let r1 := r % 2 ^ 150
  let neg := flip ^^ decide (2 ^ 149 ≤ r1)
  let r2 := r1 % 2 ^ 149
  let r3 := if 2 ^ 148 < r2 then 2 ^ 149 - r2 else r2
  if r3 = 0 then (fp32.signBit zeroNeg, 0)
  else if r3 = 2 ^ 148 then roundTo fp32 md false neg 1 0 false
  else
    let y := r3 * piUnits / 2 ^ 149
    roundTo fp32 md false neg (sinSum (y * y / 2 ^ 450) 64 0 y).natAbs (-450) true

/-- sin(π · a) (R250). -/
def fSinPi (md : BitVec 2) (a : Nat) : Nat × BitVec 5 :=
  match fp32.decode a with
  | .nan => (fp32.nan, 0)
  | .inf _ => (fp32.nan, fNV)
  | .fin neg m e => sinPi md (m * 2 ^ (e + 149).toNat) neg neg

/-- cos(π · a), as the sine of |a| + 1/2 (R250). -/
def fCosPi (md : BitVec 2) (a : Nat) : Nat × BitVec 5 :=
  match fp32.decode a with
  | .nan => (fp32.nan, 0)
  | .inf _ => (fp32.nan, fNV)
  | .fin _ m e => sinPi md (m * 2 ^ (e + 149).toNat + 2 ^ 148) false false

def execFexp2 (d a : BitVec 7) (p : BitVec 3) (s : State) : Result := goOn (fUn fExp2 d a p s)
def execFlog2 (d a : BitVec 7) (p : BitVec 3) (s : State) : Result := goOn (fUn fLog2 d a p s)
def execFsinpi (d a : BitVec 7) (p : BitVec 3) (s : State) : Result := goOn (fUn fSinPi d a p s)
def execFcospi (d a : BitVec 7) (p : BitVec 3) (s : State) : Result := goOn (fUn fCosPi d a p s)

/-! ### Classification and exponents (R253) -/

/-- The one-hot class of a value. -/
def fClass (a : Nat) : Nat :=
  match fp32.decode a with
  | .nan => 256
  | .inf neg => if neg then 1 else 128
  | .fin neg m _ =>
    if m = 0 then (if neg then 8 else 16)
    else if m < 2 ^ 23 then (if neg then 4 else 32)
    else if neg then 2 else 64

/-- A value rounded to an integral value. -/
def fRint (md : BitVec 2) (a : Nat) : Nat × BitVec 5 :=
  match fp32.decode a with
  | .nan => (fp32.nan, 0)
  | .inf _ => (a, 0)
  | .fin neg m e =>
    if 0 ≤ e then (a, 0)
    else
      let u := unitsAt md neg m e 0 false
      ((roundTo fp32 md false neg u.1 0 false).1, if u.2 then fNX else 0)

/-- a × 2^n; a shift beyond 600 places acts as one of 600, which already overflows or leaves nothing but a sticky bit. -/
def fScalb (md : BitVec 2) (a : Nat) (n : Int) : Nat × BitVec 5 :=
  match fp32.decode a with
  | .nan => (fp32.nan, 0)
  | .inf neg => (fp32.inf neg, 0)
  | .fin neg m e => roundTo fp32 md false neg m (e + max (-600) (min 600 n)) false

/-- ⌊log2 |a|⌋. -/
def fGetexp (a : Nat) : Nat × BitVec 5 :=
  match fp32.decode a with
  | .nan => (0x80000000, fNV)
  | .inf _ => (0x7FFFFFFF, fNV)
  | .fin _ m e =>
    if m = 0 then (0x80000000, fNV) else ((BitVec.ofInt 32 (e + (Nat.log2 m : Nat))).toNat, 0)

def execFclass (d a : BitVec 7) (p : BitVec 3) (s : State) : Result := goOn (fUn (fun _ x => (fClass x, 0)) d a p s)
def execFrint (d a : BitVec 7) (p : BitVec 3) (s : State) : Result := goOn (fUn fRint d a p s)
def execFscalb (d a b : BitVec 7) (p : BitVec 3) (s : State) : Result :=
  goOn (fBin (fun m x y => fScalb m x (BitVec.ofNat 32 y).toInt) d a b p s)
def execFgetexp (d a : BitVec 7) (p : BitVec 3) (s : State) : Result := goOn (fUn (fun _ x => fGetexp x) d a p s)

/-! ### The twin-shift weight (R140-R142) -/

/-- The term of a nibble, in 64ths. -/
def ts8Term (n : Nat) : Int := if n % 8 = 7 then 0 else if n ≥ 8 then -((2 ^ (6 - n % 8) : Nat) : Int) else ((2 ^ (6 - n % 8) : Nat) : Int)

/-- The value of a byte, in 64ths. -/
def ts8Value (x : Nat) : Int := ts8Term (x / 16 % 16) + ts8Term (x % 16)

/-- The canonical positive encoding of n 64ths and its number of non-zero terms, where n is in T (R141). -/
def ts8Code (n : Nat) : Option (Nat × Nat) :=
  let es := (List.range 7).map (fun i => 6 - i)
  if n = 0 then some (0x77, 0)
  else if n = 128 then some (0x00, 2)
  else match es.find? (fun a => 2 ^ a = n) with
    | some a => some ((6 - a) * 16 + 7, 1)
    | none => match es.findSome? (fun a => (es.find? (fun b => b < a && 2 ^ a + 2 ^ b = n)).map (fun b => (a, b))) with
      | some (a, b) => some ((6 - a) * 16 + (6 - b), 2)
      | none => (es.findSome? (fun a => (es.find? (fun b => b + 1 < a && 2 ^ a = n + 2 ^ b)).map (fun b => (a, b)))).map
          (fun q => ((6 - q.1) * 16 + (14 - q.2), 2))

/-- T's values that are not negative, each with its encoding and number of terms. -/
def ts8Table : List (Nat × Nat × Nat) :=
  (List.range 129).filterMap (fun n => (ts8Code n).map (fun q => (n, q.1, q.2)))

/-- The nearest member of T to y units of 2^−q, by R142 step 4. -/
def ts8Nearest (y q : Nat) : Nat × Nat :=
  let dist := fun (n : Nat) => ((y : Int) - (n * 2 ^ q : Nat)).natAbs
  let best := ts8Table.foldl (fun o x => match o with
    | none => some x
    | some b => if dist x.1 < dist b.1 ∨ (dist x.1 = dist b.1 ∧ x.2.2 < b.2.2) then some x else some b) none
  match best with
  | none => (0, 0x77)
  | some x => (x.1, x.2.1)

/-- to_ts8 (R142). -/
def toTs8 (x : Fp) : Nat × BitVec 5 :=
  match x with
  | .nan => (0x77, fNV)
  | .inf neg => (if neg then 0x88 else 0, fOF ||| fNX)
  | .fin neg m e =>
    if m = 0 then (0x77, 0)
    else
      let g := e + 6
      if g + (Nat.log2 m : Nat) ≥ 8 then (if neg then 0x88 else 0, fOF ||| fNX)
      else
        let q := (-g).toNat
        let y := m * 2 ^ g.toNat
        if 128 * 2 ^ q < y then (if neg then 0x88 else 0, fOF ||| fNX)
        else
          let r := ts8Nearest y q
          let hi := if neg ∧ r.2 / 16 % 8 ≠ 7 then 0x80 else 0
          let lo := if neg ∧ r.2 % 8 ≠ 7 then 0x08 else 0
          (r.2 ^^^ (hi + lo), if r.1 * 2 ^ q = y then 0 else fNX)

/-- The value of a TS8 byte as an exact value: of the bytes with two zero terms 0xF7 and 0xFF are −0; other zero sums are +0. -/
def ts8Fp (x : Nat) : Fp :=
  let v := ts8Value x
  if v = 0 then .fin (x % 256 = 0xF7 || x % 256 = 0xFF) 0 0 else .fin (v < 0) v.natAbs (-6)

/-! ### Conversion (R139, R254, R255) -/

/-- Float to integer in a range (R139). -/
def floatToInt (md : BitVec 2) (lo hi : Int) (x : Fp) : Int × BitVec 5 :=
  match x with
  | .nan => (0, fNV)
  | .inf neg => (if neg then lo else hi, fNV)
  | .fin neg m e =>
    if m = 0 then (0, 0)
    else if e + (Nat.log2 m : Nat) ≥ 64 then (if neg then lo else hi, fNV)
    else
      let u := unitsAt md neg m e 0 false
      let v : Int := if neg then -(u.1 : Int) else u.1
      if v < lo then (lo, fNV) else if hi < v then (hi, fNV) else (v, if u.2 then fNX else 0)

/-- Integer to FP32 (R139). -/
def intToFp32 (md : BitVec 2) (v : Int) : Nat × BitVec 5 := roundTo fp32 md false (v < 0) v.natAbs 0 false

/-- Float to float with rounding; a saturating form gives the largest finite value for an overflow and an infinity (R139). -/
def narrow (k : Fmt) (md : BitVec 2) (sat : Bool) (x : Fp) : Nat × BitVec 5 :=
  match x with
  | .nan => (k.nan, 0)
  | .inf neg =>
    if sat then (k.signBit neg + k.maxBits, fOF ||| fNX) else if k.infs then (k.inf neg, 0) else (k.nan, fOF ||| fNX)
  | .fin neg m e => roundTo k md sat neg m e false

/-- The conversion of a CVT code (R255). -/
def cvtCode (code : Nat) (md : BitVec 2) (x : Nat) : Nat × BitVec 5 :=
  let f := fp32.decode x
  if code = 0 then let r := floatToInt md (-2147483648) 2147483647 f; ((BitVec.ofInt 32 r.1).toNat, r.2)
  else if code = 1 then let r := floatToInt md 0 4294967295 f; (r.1.toNat, r.2)
  else if code = 2 then intToFp32 md (BitVec.ofNat 32 x).toInt
  else if code = 3 then intToFp32 md x
  else if code = 4 then narrow fp16 md false f
  else if code = 5 then narrow fp16 md true f
  else if code = 6 then narrow bf16 md false f
  else if code = 7 then narrow bf16 md true f
  else if code = 8 then narrow e4m3 md false f
  else if code = 9 then narrow e4m3 md true f
  else if code = 10 then narrow e5m2 md false f
  else if code = 11 then narrow e5m2 md true f
  else if code = 12 then narrow fp32 rne false (fp16.decode (x % 65536))
  else if code = 13 then narrow fp32 rne false (bf16.decode (x % 65536))
  else if code = 14 then narrow fp32 rne false (e4m3.decode (x % 256))
  else if code = 15 then narrow fp32 rne false (e5m2.decode (x % 256))
  else if code = 16 then toTs8 f
  else narrow fp32 rne false (ts8Fp (x % 256))

/-- CVT: the mode is the instruction's own (R254). -/
def execCvt (d a k : BitVec 7) (p : BitVec 3) (m : BitVec 2) (s : State) : Result :=
  goOn (fUn (fun _ x => cvtCode k.toNat m x) d a p s)

end Sys2Proof.Machine
end

