-- ==== Sys2Proof/Machine/Place.lean ====
section
/-!
DEFINITION. Task records (R20, R21), room on a core (R18, R52, R59), the start of a coach (R22, R28, R31), the end of a stream, a coach and
a task (R23, R27-R29, R235), and the push of a record into its island queue (R57, R58).
-/
namespace Sys2Proof.Machine

/-! ### Task records -/

/-- The fields of a record, with `valid` for the checks of the fields alone (R20, R21). -/
def parseRec (bs : List Byte) : TaskRec :=
  let n := leNat bs
  let g := fun hi lo => bitsOf n hi lo
  { code := BitVec.ofNat 64 n, frame := BitVec.ofNat 64 (g 127 64), join := BitVec.ofNat 64 (g 191 128),
    arg := BitVec.ofNat 64 (g 447 384), wcode := g 210 208, vregs := g 220 216, nteams := g 239 224, coachSz := g 247 240,
    prio := g 249 248, qnum := g 251 250, spk := g 264 256, abk := g 275 265, wbk := g 287 276, cbk := g 297 288, lease := g 305 298,
    lm := g 306 306 = 1, taskId := BitVec.ofNat 32 (g 351 320)
    valid :=
      g 511 448 = 0 && g 383 352 = 0 && g 319 307 = 0 && g 255 252 = 0 && g 223 221 = 0 && g 215 211 = 0
      && g 207 200 = 1 && decide (g 210 208 ≤ 4) && decide (1 ≤ g 220 216) && decide (g 220 216 ≤ 16)
      && decide (g 239 224 ≠ 0) && decide (1 ≤ g 247 240) && decide (g 247 240 ≤ 16) && decide (g 239 224 % g 247 240 = 0)
      && decide (g 247 240 * (4 * 2 ^ g 210 208) ≤ 64) && decide (g 264 256 ≤ 256) && decide (g 275 265 ≤ 1024)
      && decide (g 287 276 ≤ 2048) && decide (g 297 288 ≤ 512) && decide (g 305 298 ≤ 224) && decide (g 1 0 = 0)
      && decide (g 130 128 = 0) }

/-- The launch width (R20). -/
def TaskRec.width (r : TaskRec) : Nat := 4 * 2 ^ r.wcode

/-- The lanes of a coach (R18). -/
def TaskRec.span (r : TaskRec) : Nat := r.coachSz * r.width

/-- A page counts as mapped: a walk finds it valid, or not present and pageable (R21). -/
def mappedVa (s : State) (isl ctx va : Nat) : Bool :=
  if ctx = 0 then decide (va < Config.islandBytes)
  else match s.ctx? isl ctx with
    | none => false
    | some c => match walkCtx s c va with
      | .leaf _ _ _ _ _ => true
      | .notPresent => true
      | .absent => false
      | .malformed => false
      | .bad => false

/-- A record passes R21. -/
def recOk (s : State) (isl ctx : Nat) (r : TaskRec) : Bool :=
  r.valid && mappedVa s isl ctx r.code.toNat && (r.join = 0 || mappedVa s isl ctx r.join.toNat)

/-- What the island finds when it reads a record at a push (R21). -/
inductive RecRead where
  | ok (r : TaskRec)
  | bad
  | notPresent
  deriving DecidableEq, Repr

/-- The island reads a record through the L2 (R21). A record on a line known to be bad is not read (R413). -/
def readRec (s : State) (isl ctx : Nat) (a : Word64) : RecRead :=
  if a.toNat % 64 ≠ 0 then .bad
  else
    let look := fun (pa : Nat) => if lineBad s isl (pa / 128) then RecRead.bad else .ok (parseRec (s.physBytes isl pa 64))
    if ctx = 0 then (if a.toNat < Config.islandBytes then look a.toNat else .bad)
    else match s.ctx? isl ctx with
      | none => .bad
      | some c => match walkCtx s c a.toNat with
        | .leaf pb _ vb _ _ => look (pb + (a.toNat - vb))
        | .notPresent => .notPresent
        | .absent => .bad
        | .malformed => .bad
        | .bad => .bad

/-- The bytes of a record. -/
def rawRec (s : State) (isl ctx : Nat) (a : Word64) : List Byte := ((peek s isl ctx a.toNat).map (fun pa => s.physBytes isl pa 64)).getD []

/-! ### Room on a core -/

/-- The coaches that hold room on a core. -/
def coachesOn (s : State) (isl core : Nat) : List Coach := s.coaches.filter (fun c => c.isl = isl && c.core = core && !c.swapped)

/-- A task by its handle. -/
def State.task? (s : State) (u : Nat) : Option Task := s.tasks.find? (fun k => k.uid = u)

/-- A task written. -/
def State.setTask (s : State) (k : Task) : State := { s with tasks := s.tasks.map (fun x => if x.uid = k.uid then k else x) }

/-- A coach by its handle. -/
def State.coach? (s : State) (u : Nat) : Option Coach := s.coaches.find? (fun c => c.uid = u)

/-- The coach whose typed stores a waybill names. -/
def wbCoach (s : State) (w : Waybill) : Option Coach := s.coaches.find? (fun c => c.isFor w)

/-- A coach written. -/
def State.setCoach (s : State) (c : Coach) : State := { s with coaches := s.coaches.map (fun x => if x.uid = c.uid then c else x) }

/-- The record of a coach's task. -/
def coachRec (s : State) (c : Coach) : Option TaskRec := (s.task? c.task).map (fun k => k.record)

/-- The team slots that coaches hold: a reservation of width ÷ 4 for each team, until the coach ends (R52, R55). -/
def usedSlots (s : State) (cs : List Coach) : List Nat :=
  cs.flatMap (fun c =>
    let n := ((coachRec s c).map (fun r => r.width / 4)).getD 1
    c.slots.flatMap (fun f => regSpan f n))

/-- The lowest run of n free slots whose first is a multiple of n (R52). -/
def freeRun (used : List Nat) (n : Nat) : Option Nat :=
  (List.range (64 / n)).findSome? (fun k =>
    if (regSpan (k * n) n).all (fun x => !used.contains x) then some (k * n) else none)

/-- Slots for a number of teams, taken in ascending TEAM order (R52). -/
def takeSlots (n : Nat) : Nat → List Nat → Option (List Nat)
  | 0, _ => some []
  | k + 1, used =>
    match freeRun used n with
    | none => none
    | some f => (takeSlots n k (regSpan f n ++ used)).map (fun r => f :: r)

/-- Slots for the teams of a successor in place, which the dispatcher does not assign: aligned runs as for a placement, else the lowest run of free
slots, else the lowest free slot (R28, R52; DESIGN CHOICE, log 40). -/
def slotsInPlace (n : Nat) : Nat → List Nat → List Nat
  | 0, _ => []
  | k + 1, used =>
    let loose := (List.range (65 - n)).find? (fun f => (regSpan f n).all (fun x => !used.contains x))
    let f := ((freeRun used n <|> loose) <|> (List.range 64).find? (fun f => !used.contains f)).getD 0
    f :: slotsInPlace n k (regSpan f n ++ used)

/-- Vector registers in use on a hitch (R18). -/
def hitchUse (s : State) (cs : List Coach) (h : Nat) : Nat :=
  (cs.map (fun c => match coachRec s c with
    | none => 0
    | some r => if c.hitch ≤ h ∧ h < c.hitch + r.span / 4 then r.vregs * 8 else 0)).sum

/-- The lowest base hitch with room for a record's coach (R18, R59). -/
def baseHitch (s : State) (cs : List Coach) (r : TaskRec) : Option Nat :=
  let step := pow2Ceil r.span / 4
  (List.range 16).find? (fun b =>
    b % step = 0 && decide (b + r.span / 4 ≤ 16)
      && (List.range (r.span / 4)).all (fun i => decide (hitchUse s cs (b + i) + r.vregs * 8 ≤ 2048)))

/-- The lowest start of a free range of `n` units below `cap` (R59). -/
def lowRange (cap : Nat) (used : List (Nat × Nat)) (n : Nat) : Option (Nat × Nat) :=
  if n = 0 then some (0, 0)
  else
    let ok := fun (a : Nat) =>
      decide (a + n ≤ cap) && used.all (fun u => decide (u.2 = 0) || decide (a + n ≤ u.1) || decide (u.1 + u.2 ≤ a))
    (0 :: used.map (fun u => u.1 + u.2)).foldl (fun o a => if ok a then (match o with
      | none => some (a, n)
      | some b => some (min b.1 a, n)) else o) none

/-- Where a coach goes on a core. -/
structure Spot where
  hitch : Nat
  slots : List Nat
  sp : Nat × Nat
  ab : Nat × Nat
  wb : Nat × Nat
  cb : Nat × Nat
  deriving DecidableEq, Repr

/-- The live teams of some coaches. -/
def teamsIn (s : State) (cs : List Coach) : List Thread := s.threads.filter (fun t => t.live && cs.any (fun c => c.uid = t.id.coach))

/-- The declared leases of the teams of a core's resident coaches, in KiB. -/
def leaseSum (s : State) (cs : List Coach) : Nat := ((teamsIn s cs).map (fun t => t.sch.lease)).sum

/-- The room that a record's coach finds on a core, with the given coaches holding theirs (R59). -/
def roomFor (s : State) (cs : List Coach) (r : TaskRec) : Option Spot :=
  if teamsIn s cs ≠ [] ∧ 896 < leaseSum s cs + r.coachSz * r.lease then none
  else do
    let slots ← takeSlots (r.width / 4) r.coachSz (usedSlots s cs)
    let hitch ← baseHitch s cs r
    let sp ← lowRange 256 (cs.map (fun c => c.sp)) r.spk
    let ab ← lowRange 1024 (cs.map (fun c => c.ab)) r.abk
    let wb ← lowRange 2048 (cs.map (fun c => c.wb)) r.wbk
    let cb ← lowRange 512 (cs.map (fun c => c.cb)) r.cbk
    return { hitch := hitch, slots := slots, sp := sp, ab := ab, wb := wb, cb := cb }

/-! ### The start of a coach -/

/-- The group entries that name a team, in ascending order, for slots g0 to g3 (R31). -/
def groupSlots (s : State) (isl ctx launch : Nat) (recIdx : Option Nat) (team : Nat) : List (Option Nat) :=
  match recIdx with
  | none => [none, none, none, none]
  | some r =>
    let es := (List.range 256).filter (fun e => s.groups.any (fun g =>
      g.isl = isl && g.ctx = ctx && g.entry = e && g.launch = launch
        && g.members.any (fun m => m.1 = r && decide (m.2.1 ≤ team) && decide (team < m.2.1 + m.2.2))))
    (es.map some ++ [none, none, none, none]).take 4

/-- A team of a newly placed coach (R22); `j` is its number in the coach. -/
def newTeam (s : State) (k : Task) (c : Coach) (uid j slot : Nat) : Thread :=
  let r := k.record
  let team := c.idx * r.coachSz + j
  let id : Ident :=
    { uid := uid, kind := .team, isl := c.isl, core := c.core, slot := slot, ctx := c.ctx, launch := k.launch, task := k.uid,
      coach := c.uid, taskId := r.taskId, team := team, launchPos := 0, launchWidth := r.width, width := r.width,
      coachSz := r.coachSz, hitch := c.hitch + j * (r.width / 4), vregs := 8 * r.vregs, prio := r.prio, covers := [team],
      groups := groupSlots s c.isl c.ctx k.launch k.recIdx team }
  let t : Thread := { id := id, sc := Scalar.zero r.code, ln := Lanes.zero, tr := Trap.zero, fl := Flow.zero, an := Anv.zero, sl := Slots.none,
                      sch := { Sched.zero .inactive with lease := r.lease, effLease := r.lease, measured := r.lm,
                                                          placedAt := s.cycle, inactiveAt := s.cycle } }
  (t.wrS 61 r.frame).wrS 1 r.arg

/-- The teams of a newly placed coach join the agents, in ascending TEAM order. -/
def addTeams (s : State) (k : Task) (c : Coach) : List Nat → Nat → State
  | [], _ => s
  | f :: fs, j =>
    let q := s.take
    addTeams { q.2 with others := q.2.others ++ [newTeam q.2 k c q.1 j f] } k c fs (j + 1)

/-- A range of a typed store reads zero, and its marks go (R22, R420). `lo` and `n` count bytes, in the CB with 8 for a slot. -/
def zeroStore (s : State) (isl core space lo n : Nat) : State :=
  if n = 0 then s
  else
    let a := storeKey isl core space lo
    let s1 := { s with stores := s.stores.filter (fun c => !(decide (a ≤ c.1) && decide (c.1 < a + n))) }
    if (s1.island isl).marks.any (fun k => decide (a ≤ k) && decide (k < a + n)) then
      s1.updIsland isl (fun i => { i with marks := i.marks.filter (fun k => !(decide (a ≤ k) && decide (k < a + n))) })
    else s1

/-- The bytes of a coach's stores, which its placement zeroes and a save moves (R22, R402). -/
def Coach.storeBytes (c : Coach) : Nat := 1024 * (c.sp.2 + c.ab.2 + c.wb.2 + c.cb.2)

/-- A coach's allocations read zero (R22). -/
def zeroCoach (s : State) (c : Coach) : State :=
  let z := fun (s : State) (space : Nat) (a : Nat × Nat) => zeroStore s c.isl c.core space (1024 * a.1) (1024 * a.2)
  z (z (z (z s 1 c.sp) 2 c.ab) 3 c.wb) 4 c.cb

/-- A coach starts: an island-scope acquire (R28, R109), and its teams become resident and inactive (R62). -/
def startCoach (s : State) (k : Task) (c : Coach) : State :=
  let s1 := acquireAll { s with coaches := s.coaches ++ [c] } c.isl c.core c.ctx scopeI
  (addTeams s1 k c c.slots 0).oweOnce (.teamAdmission c.isl c.core)

/-! ### The end of a stream -/

/-- A successor's coach starts where its predecessor stood, with its stores (R28): a waybill of the predecessor that still reads them goes on reading
(R339). -/
def startInPlace (s : State) (k : Task) (c : Coach) (r : TaskRec) : State :=
  let s0 := { s with coaches := s.coaches.filter (fun x => x.uid ≠ c.uid) }
  let (tu, s1) := s0.take
  let (cu, s2) := s1.take
  let nk : Task :=
    { uid := tu, isl := c.isl, ctx := c.ctx, launch := k.launch, recIdx := none, record := r, stamp := k.stamp, spot := none, placed := 1, skips := 0,
      exited := [], released := false, done := false }
  let nc : Coach :=
    { c with uid := cu, task := tu, idx := 0, prio := r.prio, placedAt := s.cycle, residentAt := s.cycle, exits := 0, succ := [], swapped := false
             former := c.uid :: c.former, rotOut := false, rotIn := false
             slots := let used := usedSlots s2 (coachesOn s2 c.isl c.core)
               (takeSlots (r.width / 4) r.coachSz used).getD (slotsInPlace (r.width / 4) r.coachSz used) }
  startCoach { s2 with tasks := s2.tasks ++ [nk] } nk nc

/-- The recorded successor of a coach: that of the lowest TEAM that executed EXIT.S (R27). Of two subteams of one TEAM the first to execute it counts
(DESIGN CHOICE, log 40). -/
def successor (c : Coach) : Option (Nat × Word64 × TaskRec) :=
  c.succ.foldl (fun o x => match o with
    | none => some x
    | some y => if x.1 < y.1 then some x else some y) none

/-- A coach whose last stream has ended: its room frees, and its successor starts in place or is pushed (R28, R29). The task's release comes before
the start (R109). The push keeps the coach's handle and waits in the order of the coaches' ends (R58). -/
def coachEnd (s : State) (c : Coach) : State :=
  match s.task? c.task with
  | none => freeCoach s c
  | some k =>
    let s1 := if k.exited.length = k.record.nteams then (releaseIsland s k.isl k.ctx).oweOnce (.taskCompletion k.uid) else s
    match successor c with
    | none => freeCoach s1 c
    | some x =>
      if c.exits = 0 then startInPlace s1 k c x.2.2
      else
        let p : Push :=
          { uid := c.uid, isl := c.isl, ctx := c.ctx, addr := x.2.1, source := 3, sub := 0, launch := k.launch, recIdx := none, team := none,
            paused := false }
        (freeCoach { s1 with pushes := s1.pushes ++ [p] } c).owe (.successorPush c.uid)

/-- A live team of a coach covers some of n hitches from h on (R54). -/
def halfLive (s : State) (coach h n : Nat) : Bool :=
  s.threads.any (fun t => t.live && t.id.coach = coach && decide (t.id.hitch < h + n) && decide (h < t.id.hitch + t.id.width / 4))

/-- The first hitch of the buddy half of a team that would fuse (R54). -/
def buddyHitch (t : Thread) : Nat :=
  let n := t.id.width / 4
  if t.id.hitch % (2 * n) = 0 then t.id.hitch + n else t.id.hitch - n

/-- The teams that wait at a FUSE for a half without a live team (R54). -/
def goneBuddies (s : State) (coach : Nat) : List Nat :=
  s.uidsOf (fun t => t.id.kind = .team && t.id.coach = coach && !halfLive s coach (buddyHitch t) (t.id.width / 4) && match t.sch.park with
    | .fuse _ _ _ _ => true
    | .none => false
    | .word _ _ _ _ _ _ => false
    | .timeline _ _ _ _ _ _ => false
    | .counter _ _ _ _ => false
    | .launch => false
    | .group _ _ _ _ => false
    | .arrive _ _ => false
    | .yard => false
    | .page _ => false)

/-- Team numbers that no live stream of a task covers any more are exited (R23, R32, R340). -/
def exitTeams (s : State) (task : Nat) (covers : List Nat) : State :=
  match s.task? task with
  | none => s
  | some k =>
    let out := covers.filter (fun n => !s.threads.any (fun t => t.live && t.id.task = task && t.id.covers.contains n))
    s.setTask { k with exited := k.exited ++ out.filter (fun n => !k.exited.contains n) }

/-- The member teams of a group that an agent covers. -/
def coveredBy (s : State) (g : Group) (t : Thread) : List (Nat × Nat) :=
  (groupMembers s g).filter (fun m => m.1 = t.id.task && t.id.covers.contains m.2)

/-- The arrivals of streams that end are kept for their member teams (R270, R271). -/
def settleArrivals (s : State) (us : List Thread) : State :=
  { s with
    groups := s.groups.map (fun (g : Group) =>
      let ms := us.flatMap (fun t => (coveredBy s g t).filter (fun m => memberArrived s g m && !g.settled.contains m))
      { g with settled := ms.eraseDups ++ g.settled, arrived := g.arrived.filter (fun u => !(us.any (fun t => t.id.uid = u))) }) }

/-- The stream of the running team ends, with the successor that an EXIT.S names (R235, R236). -/
def streamEnd (s : State) (succ : Option (Word64 × TaskRec)) : State :=
  let t := s.cur
  let s1 := (dropHeat (settleArrivals s [t]) t).updCur (fun u => u.end_)
  let s2 := exitTeams s1 t.id.task t.id.covers
  let s3 := match s2.coach? t.id.coach with
    | none => s2
    | some c => s2.setCoach (match succ with
      | none => { c with exits := c.exits + 1 }
      | some x => { c with succ := c.succ ++ [(t.id.team, x)] })
  let s4 := oweWakes (groupRecheck s3 t.id.isl t.id.launch) (goneBuddies s3 t.id.coach)
  let s5 := s4.oweOnce (.teamAdmission t.id.isl t.id.core)
  match s5.coach? t.id.coach with
  | none => s5
  | some c => if s5.threads.any (fun u => u.live && u.id.coach = c.uid) then s5 else coachEnd s5 c

/-! ### Pushes -/

/-- Records that one queue's part of the region holds: QSIZE MiB over the 16 queues (R58; log 12). -/
def regionCap (c : CtxIsl) : Nat := c.qsize * 2 ^ 20 / 16 / Config.queueEntryBytes

/-- Records that one queue holds, beyond which it refuses a push: the 16 oldest on the island, the rest in its part of the region (R58). -/
def queueCap (c : CtxIsl) : Nat := 16 + regionCap c

/-- Records that a queue of a context holds. -/
def queueLength (s : State) (isl ctx prio qnum : Nat) : Nat :=
  (s.tasks.filter (fun k => k.isl = isl && k.ctx = ctx && k.record.prio = prio && k.record.qnum = qnum
    && decide (k.placed * k.record.coachSz < k.record.nteams))).length

/-- The records that wait in a queue, in the order in which they joined it. -/
def queueTasks (s : State) (isl ctx prio qnum : Nat) : List Task :=
  s.tasks.filter (fun k => k.isl = isl && k.ctx = ctx && k.record.prio = prio && k.record.qnum = qnum && decide (k.placed * k.record.coachSz < k.record.nteams))

/-- The lowest free place of a queue's part of the region (R58; log 12). -/
def freePlace (s : State) (c : CtxIsl) (r : TaskRec) : Option Nat :=
  (List.range (regionCap c)).find? (fun n => !(queueTasks s c.isl c.ctx r.prio r.qnum).any (fun k => k.spot = some n))

/-- A record that a queue accepts goes beyond its 16 oldest, to the region (R58). -/
def spills (s : State) (c : CtxIsl) (r : TaskRec) : Bool := decide (16 ≤ queueLength s c.isl c.ctx r.prio r.qnum)

/-- A queue of an island accepts a push (R58). -/
def queueAccepts (s : State) (c : CtxIsl) (r : TaskRec) : Bool :=
  decide (queueLength s c.isl c.ctx r.prio r.qnum < queueCap c) && (!spills s c r || (freePlace s c r).isSome)

/-- Where a record goes that joins a queue: a place in the region, or the island's cache. -/
def newPlace (s : State) (c : CtxIsl) (r : TaskRec) : Option Nat := if spills s c r then freePlace s c r else none

/-- The address of a place in a queue's part of the region (R58; log 12). -/
def queueVa (c : CtxIsl) (r : TaskRec) (n : Nat) : Nat :=
  c.qbase.toNat + (4 * r.prio + r.qnum) * (c.qsize * 2 ^ 16) + Config.queueEntryBytes * n

/-- A record's bytes written to its place in the region. -/
def spillRecord (s : State) (c : CtxIsl) (r : TaskRec) (spot : Option Nat) (raw : List Byte) : State :=
  match spot with
  | none => s
  | some n => match peek s c.isl c.ctx (queueVa c r n) with
    | none => s
    | some pa => l2Put (l2Used (markAD s c.isl c.ctx (queueVa c r n) true) c.isl c.ctx raw.length) c.isl (cellsFrom pa raw)

/-- A record of the region comes to the island once it is among the 16 oldest of its queue; a region that stops translating ends the context (R58,
R385). -/
def fetchRecord (s : State) (k : Task) : State :=
  match k.spot, s.ctx? k.isl k.ctx with
  | none, _ => s
  | some _, none => s
  | some n, some c => match peek s k.isl k.ctx (queueVa c k.record n) with
    | none => regionLost s k.isl k.ctx
    | some _ => (l2Used (markAD s k.isl k.ctx (queueVa c k.record n) false) k.isl k.ctx Config.queueEntryBytes).setTask { k with spot := none }

/-- The records of an island's regions that are among the 16 oldest of their queues. -/
def dueRecords (s : State) (isl : Nat) : List Task :=
  s.tasks.filter (fun k => k.isl = isl && k.spot.isSome
    && ((queueTasks s isl k.ctx k.record.prio k.record.qnum).take 16).any (fun j => j.uid = k.uid))

/-- The record of TASK_RECORD_INVALID (R21). Of a push without a launching team WCODE is 0 (DESIGN CHOICE, log 40). -/
def invalidRecord (p : Push) (r : RecRead) : FaultRec :=
  let tid : BitVec 32 := match r with
    | .ok k => k.taskId
    | .bad => 0
    | .notPresent => 0
  match p.team with
  | some e =>
    { cause := causeRecord, cls := 4, flags := 0, isl := p.isl, core := e.core, slot := e.team.slot, wcode := widthCode e.team.width,
      ctx := p.ctx, taskId := e.team.taskId, team := e.team.team, flane := 0, subt := e.subt, lanes := 0, xpc := e.xpc, xaddr := p.addr,
      insn := e.insn, atype := 1, space := 0, risl := 0 }
  | none =>
    { cause := causeRecord, cls := 4, flags := 0, isl := p.isl, core := 0xFF, slot := 0, wcode := 0, ctx := p.ctx, taskId := tid,
      team := 0, flane := 0, subt := 0, lanes := 0, xpc := 0, xaddr := p.addr, insn := 0, atype := 1, space := 0, risl := 0 }

/-- An earlier push of the same source still waits, which a later one never overtakes (R21, R58). -/
def pushBehind (s : State) (p : Push) : Bool :=
  (s.pushes.takeWhile (fun q => q.uid ≠ p.uid)).any (fun q => q.isl = p.isl && q.ctx = p.ctx && q.source = p.source && q.sub = p.sub)

/-- The event of a page that a push of the island meets (R21, R397). -/
def pushPage (s : State) (p : Push) : State :=
  if p.paused then s
  else postPageFault { s with pushes := s.pushes.map (fun (q : Push) => if q.uid = p.uid then { q with paused := true } else q) }
    p.isl p.ctx p.addr 1

/-- The dispatcher's read of a record: the walk sets A, and its 64 bytes move at the L2 (R91, R402). -/
def recUsed (s : State) (isl ctx : Nat) (a : Word64) : State := l2Used (markAD s isl ctx a.toNat false) isl ctx 64

/-- A push offered to its island: it waits, is refused as invalid, or enters its queue with the next stamp (R21, R57, R58). A queue region that
stops translating ends the context (R385). -/
def offerPush (s : State) (p : Push) : State :=
  match s.ctx? p.isl p.ctx with
  | none => { s with pushes := s.pushes.filter (fun q => q.uid ≠ p.uid) }
  | some c =>
    if pushBehind s p || c.suspended then s
    else
      let gone := { recUsed s p.isl p.ctx p.addr with pushes := s.pushes.filter (fun q => q.uid ≠ p.uid) }
      match readRec s p.isl p.ctx p.addr with
      | .notPresent => pushPage s p
      | .bad =>
        let s1 := (writeFault gone p.isl p.ctx (invalidRecord p .bad)).1
        if p.launch = 0 then s1 else killLaunch s1 p.launch causeRecord p.isl
      | .ok r =>
        if !recOk s p.isl p.ctx r then
          let s1 := (writeFault gone p.isl p.ctx (invalidRecord p (.ok r))).1
          if p.launch = 0 then s1 else killLaunch s1 p.launch causeRecord p.isl
        else if !queueAccepts s c r then s
        else if ((newPlace s c r).map (fun n => (peek s c.isl c.ctx (queueVa c r n)).isNone)).getD false then regionLost gone p.isl p.ctx
        else
          let (u, s0) := gone.take
          let n := (s0.island p.isl).enqueue
          let s1 := spillRecord s0 c r (newPlace s c r) (rawRec s p.isl p.ctx p.addr)
          let k : Task :=
            { uid := u, isl := p.isl, ctx := p.ctx, launch := p.launch, recIdx := p.recIdx, record := r, stamp := n, spot := newPlace s c r
              placed := 0, skips := 0, exited := [], released := false, done := false }
          (({ s1 with tasks := s1.tasks ++ [k] }).updIsland p.isl (fun i => { i with enqueue := n + 1 })).oweOnce (.coachPlacement p.isl)

/-- A push by its handle. -/
def State.push? (s : State) (u : Nat) : Option Push := s.pushes.find? (fun p => p.uid = u)

end Sys2Proof.Machine
end

