-- ==== Sys2Proof/Machine/Scalar.lean ====
section
/-!
DEFINITION. The scalar members: arithmetic, immediates, compares, loads and stores, branches, calls, condition registers and hardware
loops (majors 0x01 to 0x0B; R222-R232).
-/
namespace Sys2Proof.Machine

/-! ### Arithmetic -/

/-- A scalar member with two sources (R222): sd := f(a, b). -/
def scalarBin (f : Word64 → Word64 → Word64) (d a b : BitVec 6) (s : State) : State :=
  (s.wrS d (f (s.rdS a) (s.rdS b))).retire

/-- A scalar member with one source: sd := f(a). -/
def scalarUn (f : Word64 → Word64) (d a : BitVec 6) (s : State) : State := (s.wrS d (f (s.rdS a))).retire

/-- SMULH: bits 127:64 of the signed product (R222). -/
def mulhS (a b : Word64) : Word64 := ((a.signExtend 128 * b.signExtend 128).extractLsb' 64 64)

/-- SMULHU: bits 127:64 of the unsigned product (R222). -/
def mulhU (a b : Word64) : Word64 := ((a.zeroExtend 128 * b.zeroExtend 128).extractLsb' 64 64)

/-- SDIV: truncated towards zero; −1 for b = 0, and −2^63 for −2^63 ÷ −1 (R222, R223). -/
def divS (a b : Word64) : Word64 := if b = 0 then BitVec.allOnes 64 else a.sdiv b

/-- SDIVU: 2^64 − 1 for b = 0 (R222, R223). -/
def divU (a b : Word64) : Word64 := if b = 0 then BitVec.allOnes 64 else a / b

/-- SREM: a − b × quotient; a for b = 0 (R222, R223). -/
def remS (a b : Word64) : Word64 := if b = 0 then a else a.srem b

/-- SREMU: a for b = 0 (R222, R223). -/
def remU (a b : Word64) : Word64 := if b = 0 then a else a % b

/-- The smaller or larger of two words, signed or unsigned. -/
def minS {w : Nat} (a b : BitVec w) : BitVec w := if b.slt a then b else a
def maxS {w : Nat} (a b : BitVec w) : BitVec w := if a.slt b then b else a
def minU {w : Nat} (a b : BitVec w) : BitVec w := if b.ult a then b else a
def maxU {w : Nat} (a b : BitVec w) : BitVec w := if a.ult b then b else a

def execSadd (d a b : BitVec 6) (s : State) : Result := goOn (scalarBin (· + ·) d a b s)
def execSsub (d a b : BitVec 6) (s : State) : Result := goOn (scalarBin (· - ·) d a b s)
def execSmul (d a b : BitVec 6) (s : State) : Result := goOn (scalarBin (· * ·) d a b s)
def execSmulh (d a b : BitVec 6) (s : State) : Result := goOn (scalarBin mulhS d a b s)
def execSmulhu (d a b : BitVec 6) (s : State) : Result := goOn (scalarBin mulhU d a b s)
def execSdiv (d a b : BitVec 6) (s : State) : Result := goOn (scalarBin divS d a b s)
def execSdivu (d a b : BitVec 6) (s : State) : Result := goOn (scalarBin divU d a b s)
def execSrem (d a b : BitVec 6) (s : State) : Result := goOn (scalarBin remS d a b s)
def execSremu (d a b : BitVec 6) (s : State) : Result := goOn (scalarBin remU d a b s)
def execSand (d a b : BitVec 6) (s : State) : Result := goOn (scalarBin (· &&& ·) d a b s)
def execSor (d a b : BitVec 6) (s : State) : Result := goOn (scalarBin (· ||| ·) d a b s)
def execSxor (d a b : BitVec 6) (s : State) : Result := goOn (scalarBin (· ^^^ ·) d a b s)
def execSshl (d a b : BitVec 6) (s : State) : Result := goOn (scalarBin (fun x y => x <<< (y.toNat % 64)) d a b s)
def execSshr (d a b : BitVec 6) (s : State) : Result := goOn (scalarBin (fun x y => x >>> (y.toNat % 64)) d a b s)
def execSsra (d a b : BitVec 6) (s : State) : Result := goOn (scalarBin (fun x y => x.sshiftRight (y.toNat % 64)) d a b s)
def execSmin (d a b : BitVec 6) (s : State) : Result := goOn (scalarBin minS d a b s)
def execSmax (d a b : BitVec 6) (s : State) : Result := goOn (scalarBin maxS d a b s)
def execSminu (d a b : BitVec 6) (s : State) : Result := goOn (scalarBin minU d a b s)
def execSmaxu (d a b : BitVec 6) (s : State) : Result := goOn (scalarBin maxU d a b s)
def execSclz (d a : BitVec 6) (s : State) : Result := goOn (scalarUn (fun x => BitVec.ofNat 64 (clzFrom x.toNat 64)) d a s)
def execSpopc (d a : BitVec 6) (s : State) : Result := goOn (scalarUn (fun x => BitVec.ofNat 64 (popFrom x.toNat 64)) d a s)

/-! ### Immediates -/

/-- imm14 with a HIMM attached, sign-extended from 36 bits, or from 14 without one (R224, R335). -/
def immS14 (s : State) (i : BitVec 14) : Word64 :=
  match s.cur.sc.hints.himm with
  | none => i.signExtend 64
  | some p => (p ++ i : BitVec 36).signExtend 64

/-- imm14 with a HIMM attached, zero-extended (R215, R335). -/
def immU14 (s : State) (i : BitVec 14) : Word64 :=
  match s.cur.sc.hints.himm with
  | none => i.zeroExtend 64
  | some p => (p ++ i : BitVec 36).zeroExtend 64

def execSaddi (d a : BitVec 6) (i : BitVec 14) (s : State) : Result := goOn (scalarUn (· + immS14 s i) d a s)
def execSshli (d a n : BitVec 6) (s : State) : Result := goOn (scalarUn (· <<< n.toNat) d a s)
def execSshri (d a n : BitVec 6) (s : State) : Result := goOn (scalarUn (· >>> n.toNat) d a s)
def execSsrai (d a n : BitVec 6) (s : State) : Result := goOn (scalarUn (·.sshiftRight n.toNat) d a s)

/-- SLUI: sext(imm20, 20) × 4,096 (R224). -/
def execSlui (d : BitVec 6) (i : BitVec 20) (s : State) : Result := goOn (s.wrS d (i.signExtend 64 <<< 12)).retire

/-! ### Compares -/

/-- The comparison that a cc code selects (R215); the codes 6 and 7 are no instruction. -/
def compareCc {w : Nat} (c : BitVec 3) (a b : BitVec w) : Bool :=
  if c = 0 then a == b else if c = 1 then a != b else if c = 2 then a.slt b else if c = 3 then a.sle b
  else if c = 4 then a.ult b else a.ule b

/-- A condition register of the running agent written; the instruction ends. -/
def setCond (d : BitVec 3) (b : Bool) (s : State) : State := (s.updCur (fun t => t.wrC d.toNat b)).retire

def execScmp (d c : BitVec 3) (a b : BitVec 6) (s : State) : Result := goOn (setCond d (compareCc c (s.rdS a) (s.rdS b)) s)

/-- SCMPI: the immediate is extended as cc says (R215, R225). -/
def execScmpi (d c : BitVec 3) (a : BitVec 6) (i : BitVec 14) (s : State) : Result :=
  goOn (setCond d (compareCc c (s.rdS a) (if c.toNat < 4 then immS14 s i else immU14 s i)) s)

def execCand (d a b : BitVec 3) (s : State) : Result := goOn (setCond d (s.cur.rdC a.toNat && s.cur.rdC b.toNat) s)
def execCor (d a b : BitVec 3) (s : State) : Result := goOn (setCond d (s.cur.rdC a.toNat || s.cur.rdC b.toNat) s)
def execCxor (d a b : BitVec 3) (s : State) : Result := goOn (setCond d (s.cur.rdC a.toNat ^^ s.cur.rdC b.toNat) s)
def execCnot (d a : BitVec 3) (s : State) : Result := goOn (setCond d (!s.cur.rdC a.toNat) s)

/-! ### Loads and stores -/

/-- The exact address of SLD and SST, with a HIMM attached or without (R226, R335). -/
def scalarAddr (s : State) (a : BitVec 6) (o : BitVec 12) : Int :=
  (s.rdS a).toNat +
    (match s.cur.sc.hints.himm with
      | none => o.toInt
      | some p => (p ++ o : BitVec 34).toInt)

/-- The cache policy of LDG, STG, SLD and SST: the CACHE code of an HMOD, on a page of a type (R81, R336). -/
def State.policyOn (s : State) (stream : Bool) : Nat := ((s.cur.sc.hints.hmod).map (fun h => h.toNat / 64 % 4)).getD 0 + typePolicy stream

/-- The one element of a scalar access that is performed late. -/
def lateScalar (s : State) (load : Bool) (d va pa pol : Nat) (bs : List Byte) : LateAcc :=
  { op := 0, agent := s.cur.id.uid, isl := s.cur.mIsl, core := s.cur.id.core, ctx := s.cur.id.ctx, space := 0, load := load, scalar := true
    elem := 0, dst := d, elems := [(0, va, pa, pol, bs)] }

/-- SLD of n bytes, zero-extended (R226). -/
def scalarLoad (n : Nat) (d a : BitVec 6) (o : BitVec 12) (s : State) : State :=
  scalarAccess s (scalarAddr s a o) n .read 1 (fun s1 pa mt =>
    if atomAhead s1 s1.cur.mIsl [pa / 128] then stall s1
    else
    let t := s1.cur
    let va := (BitVec.ofInt 64 (scalarAddr s a o)).toNat
    if s1.goesLate then
      (beginLate s1 (lateScalar s1 true d.toNat va pa (s.policyOn mt) (leBytes n 0)) [] (if d = 0 then [] else [d.toNat])).retire
    else
    let q := gRead s1 t.mIsl t.id.core t.id.ctx va pa n (s.policyOn mt)
    (beginAccess (q.1.wrS d (BitVec.ofNat 64 (leNat q.2))) .ld).retire)

/-- SST of the low n bytes (R226). -/
def scalarStore (n : Nat) (d a : BitVec 6) (o : BitVec 12) (s : State) : State :=
  scalarAccess s (scalarAddr s a o) n .write 2 (fun s1 pa mt =>
    if atomAhead s1 s1.cur.mIsl [pa / 128] then stall s1
    else
    let t := s1.cur
    let va := (BitVec.ofInt 64 (scalarAddr s a o)).toNat
    let bs := leBytes n (s.rdS d).toNat
    if s1.goesLate then (beginLate s1 (lateScalar s1 false d.toNat va pa (s.policyOn mt) bs) [] []).retire
    else (beginAccess (gWrite s1 t.mIsl t.id.core t.id.ctx va pa bs (s.policyOn mt)) .st).retire)

def execSldW (d a : BitVec 6) (o : BitVec 12) (s : State) : Result := goOn (scalarLoad 4 d a o s)
def execSldD (d a : BitVec 6) (o : BitVec 12) (s : State) : Result := goOn (scalarLoad 8 d a o s)
def execSstW (d a : BitVec 6) (o : BitVec 12) (s : State) : Result := goOn (scalarStore 4 d a o s)
def execSstD (d a : BitVec 6) (o : BitVec 12) (s : State) : Result := goOn (scalarStore 8 d a o s)

/-! ### Branches and calls -/

/-- The target of a code offset (R210). -/
def codeTarget {w : Nat} (pc : Word64) (o : BitVec w) : Word64 := pc + (o.signExtend 64 <<< 2)

/-- BR: taken when c xor neg is true (R227). -/
def execBr (c : BitVec 3) (n : BitVec 1) (o : BitVec 22) (s : State) : Result :=
  goOn (if s.cur.rdC c.toNat ^^ decide (n = 1) then s.retireJump (codeTarget s.cur.sc.pc o) else s.retire)

def execCall (o : BitVec 26) (s : State) : Result :=
  goOn ((s.wrS 62 (s.cur.sc.pc + 4)).retireGoto (codeTarget s.cur.sc.pc o))

/-- A target whose bits 1:0 are not zero traps MISALIGN (R228). -/
def checkedTarget (a : Word64) (k : State) (s : State) : State :=
  if a.toNat % 4 ≠ 0 then takeTrap s (addrFx causeMisalign a 0xFF 0xFF) else k

def execJmpr (a : BitVec 6) (s : State) : Result := goOn (checkedTarget (s.rdS a) (s.retireJump (s.rdS a)) s)
def execCallr (a : BitVec 6) (s : State) : Result :=
  goOn (checkedTarget (s.rdS a) ((s.wrS 62 (s.cur.sc.pc + 4)).retireGoto (s.rdS a)) s)
def execRet (s : State) : Result := goOn (checkedTarget (s.rdS 62) (s.retireGoto (s.rdS 62)) s)

/-! ### Hardware loops -/

/-- The lowest-numbered loop counter that is not in use (R49). -/
def freeCounter (ls : List Loop) : Option Nat := [0, 1, 2].find? (fun n => ls.all (fun l => l.lc ≠ n))

/-- A hardware loop opened with a count and a body of `l` + 1 words; a count of 0 skips the body (R49, R230). -/
def openLoop (count : BitVec 32) (l : BitVec 8) (s : State) : State :=
  match freeCounter s.cur.sc.loops with
  | none => trapPlain s causeLoopDepth
  | some n =>
    let len := l.toNat + 1
    let last := s.cur.sc.pc + BitVec.ofNat 64 (4 * len)
    if count = 0 then s.retireGoto (last + 4)
    else (s.retire).updCur (fun t =>
      { t with sc := { t.sc with loops := { lc := n, count := count, len := len, last := last } :: t.sc.loops } })

def execLooph (a : BitVec 6) (l : BitVec 8) (s : State) : Result := goOn (openLoop ((s.rdS a).truncate 32) l s)
def execLoophi (n : BitVec 16) (l : BitVec 8) (s : State) : Result := goOn (openLoop (n.zeroExtend 32) l s)

/-- LBRK: the innermost loop is freed, and execution goes on after its end (R50, R231). -/
def execLbrk (s : State) : Result :=
  goOn (match s.cur.sc.loops with
    | [] => s.retire
    | l :: r => (s.updCur (fun t => { t with sc := { t.sc with loops := r } })).retireGoto (l.last + 4))

end Sys2Proof.Machine
end

