-- ==== Sys2Proof/Machine/Control.lean ====
section
/-!
DEFINITION. Structured vector control, the end and the yield of a team, leases, SPLIT and FUSE, and group barriers (majors 0x0C to 0x0E;
R40, R41, R53-R55, R233-R238, R265-R271, R286).
-/
namespace Sys2Proof.Machine

/-! ### Depth counters (R40, R41, R233, R234) -/

/-- A depth counter rewritten in each of a list of lanes; a value beyond 255 traps DEPTH_OVERFLOW, and none changes. -/
def depthOp (ls : List Nat) (f : Nat → Nat → Nat) (s : State) : State :=
  let new := fun l => f l (s.cur.rdDc l).toNat
  if ls.any (fun l => decide (255 < new l)) then trapPlain s causeDepth
  else (s.updCur (fun t => t.wrDcs (fun l => BitVec.ofNat 8 (new l)) ls)).retire

/-- IF: an inactive lane goes deeper; an active lane without p becomes inactive. -/
def execVif (p : BitVec 3) (s : State) : Result :=
  goOn (depthOp s.cur.lanes (fun l d => if 0 < d then d + 1 else if s.cur.rdP p.toNat l then d else 1) s)
/-- ELSE. -/
def execVelse (s : State) : Result := goOn (depthOp s.cur.lanes (fun _ d => if d = 0 then 1 else if d = 1 then 0 else d) s)
/-- ENDIF. -/
def execVendif (s : State) : Result := goOn (depthOp s.cur.lanes (fun _ d => d - 1) s)
/-- VLOOP. -/
def execVloop (s : State) : Result := goOn (depthOp s.cur.lanes (fun _ d => if 0 < d then d + 2 else d) s)
/-- VBRK, in active lanes. -/
def execVbrk (p : BitVec 3) (k : BitVec 6) (s : State) : Result :=
  goOn (depthOp (s.cur.activeLanes p.toNat) (fun _ _ => k.toNat + 2) s)
/-- VCONT, in active lanes. -/
def execVcont (p : BitVec 3) (k : BitVec 6) (s : State) : Result :=
  goOn (depthOp (s.cur.activeLanes p.toNat) (fun _ _ => k.toNat + 1) s)

/-- ENDVL: lanes at 1 come back; with a lane at 0 the team repeats the loop, else every lane leaves it (R40, R234). -/
def execEndvl (d : BitVec 18) (s : State) : Result :=
  let s1 := s.updCur (fun t => t.wrDcs (fun l => if t.rdDc l = 1 then 0 else t.rdDc l) t.lanes)
  goOn (if s1.cur.lanes.any (fun l => s1.cur.rdDc l = 0) then s1.retireJump (s.cur.sc.pc - (d.zeroExtend 64 <<< 2))
    else (s1.updCur (fun t => t.wrDcs (fun l => if t.rdDc l = 0 then 0 else t.rdDc l - 2) t.lanes)).retire)

/-! ### The end of a team (R235, R236) -/

/-- No operation of any class is outstanding. -/
def Flow.quiet (f : Flow) : Bool := f.ld = 0 && f.st = 0 && f.cp = 0 && f.tl = 0 && f.rm = 0

/-- The successor record that a waiting EXIT.S has read, kept or dropped. -/
def State.keepExit (s : State) (x : Option (Word64 × TaskRec)) : State :=
  s.updCur (fun t => { t with sch := { t.sch with exitRec := x } })

/-- EXIT from its second step on: a deferred cause, the wait for the counts, the end (R235). -/
def exitSteps (succ : Option (Word64 × TaskRec)) (s : State) : State :=
  match firstDeferred s.cur with
  | some d => takeDeferred (s.keepExit none) d
  | none => if s.cur.fl.quiet then streamEnd (s.keepExit none).count succ else stall (s.keepExit succ)

def execExit (s : State) : Result := goOn (if s.cur.an.chain.isSome then trapPlain s causeChainState else exitSteps none s)

/-- A successor's record passes the checks of R26 against its predecessor. -/
def successorOk (s : State) (t : Thread) (r : TaskRec) : Bool :=
  recOk s t.id.isl t.id.ctx r && decide (r.nteams = r.coachSz) && match s.coach? t.id.coach with
    | none => false
    | some c => match coachRec s c with
      | none => false
      | some p => decide (r.spk ≤ c.sp.2) && decide (r.abk ≤ c.ab.2) && decide (r.wbk ≤ c.wb.2) && decide (r.cbk ≤ c.cb.2)
          && decide (r.vregs ≤ p.vregs) && decide (r.span ≤ p.span) && decide (r.lease ≤ p.lease)

/-- EXIT.S: the record is read and checked once, before the team waits; the instruction's own causes come in code order, and those of the record's address
after them (R180, R236; DEDUCED, log 19). -/
def execExitS (a : BitVec 6) (s : State) : Result :=
  goOn (match s.cur.sch.exitRec with
    | some x => exitSteps (some x) s
    | none =>
      let va := s.rdS a
      let q := probeGlobal s va.toNat 64 .read
      match q.2 with
      | .bad c v =>
        if s.cur.an.chain.isSome then trapPlain q.1 causeChainState
        else takeTrap q.1 (if c = causeMisalign then addrFx c v 0xFF 0xFF else addrFx c v 1 0)
      | .page v => if s.cur.an.chain.isSome then trapPlain q.1 causeChainState else parkPage q.1 v 1
      | .ok pa mt =>
        if atomAhead q.1 q.1.cur.mIsl [pa / 128] then stall q.1
        else
          let t := q.1.cur
          let b := gRead q.1 t.mIsl t.id.core t.id.ctx va.toNat pa 64 (typePolicy (mt = 1))
          let r := parseRec b.2
          if !successorOk b.1 b.1.cur r then trapPlain b.1 causeSuccessor
          else if s.cur.an.chain.isSome then trapPlain b.1 causeChainState
          else exitSteps (some (va, r)) b.1)

/-! ### Yielding (R237, R238) and parking -/

/-- The running team inactive (R73), for admission under R64. -/
def inactivate (s : State) : State :=
  (s.updCur (fun t => { t with sch := { t.sch with life := .inactive, park := .none, inactiveAt := s.cycle } })).oweOnce
    (.teamAdmission s.cur.id.isl s.cur.id.core)

def execYield (s : State) : Result := goOn (inactivate s.retire)

/-- The running agent has done its instruction and waits at the next one; a Carter stalls there (R73, R288). -/
def parkAfter (s : State) (p : Park) : State :=
  let s1 := s.retire
  (park s1 p s1.cur.sc.pc).oweOnce (.teamAdmission s.cur.id.isl s.cur.id.core)

/-- The running agent waits and will run its instruction again (R73). -/
def parkRetry (s : State) (p : Park) : State := (park s p s.cur.sc.pc).oweOnce (.teamAdmission s.cur.id.isl s.cur.id.core)

/-- The scope at which a timeline is raised (R107). -/
def timelineScope (n : Nat) : Nat := if n < 8 then 1 else scopeI

/-- The address of the word of a timeline as the running agent names it (R123). -/
def timelineAddr (s : State) (n : Nat) : Word64 := BitVec.ofNat 64 (timelineVa s s.cur.id.isl s.cur.id.ctx (timelineUnit s.cur n) n)

/-- The running agent's read of a timeline's word, made at its atomic unit: the issuing core drops its copy of the line first, and the walk sets A
(R91, R291). A word on a line known to be bad is not read (R413). -/
def readTimeline (s : State) (n pa : Nat) : State :=
  markAD (ownUse (dropLine s s.cur.mIsl s.cur.id.core (pa / 128)) s.cur.mIsl s.cur.id.core 0 pa 8) s.cur.id.isl s.cur.id.ctx (timelineAddr s n).toNat false

/-- YIELDC (R238). -/
def execYieldc (a b t : BitVec 6) (s : State) : Result :=
  let cont := s.rdS a
  let v := s.rdS b
  goOn (if cont.toNat % 4 ≠ 0 then takeTrap s (addrFx causeMisalign cont 0xFF 0xFF)
    else match (if t = 4 then firstDeferred s.cur else none) with
      | some d => takeDeferred s d
      | none =>
        match timelinePa s s.cur.id.isl s.cur.id.ctx (timelineUnit s.cur t.toNat) t.toNat with
        | none => regionLost s s.cur.id.isl s.cur.id.ctx
        | some pa =>
          let key := memKey s.cur.id.isl pa
          if atomAhead s s.cur.mIsl [pa / 128] then stall s
          else if unitBad s s.cur.mIsl s.cur.id.core pa then takeTrap s (addrFx causeData (timelineAddr s t.toNat) 1 0)
          else
            let s1 := (readTimeline s t.toNat pa).retireGoto cont
            let s2 := (park s1 (.timeline t.toNat key v false true (timelineScope t.toNat)) cont).oweOnce
              (.teamAdmission s.cur.id.isl s.cur.id.core)
            if waitHolds false (wordAt s2 key) v then oweWakes s2 [s.cur.id.uid] else s2)

/-! ### Leases (R63, R66, R286) -/

/-- The active teams of a core. -/
def activeTeams (s : State) (isl core : Nat) : List Thread :=
  s.threads.filter (fun t => t.live && t.id.isl = isl && t.id.core = core && t.sch.life = .active)

/-- The sum of the effective leases of a list of teams. -/
def effSum (ts : List Thread) : Nat := (ts.map (fun t => t.sch.effLease)).sum

/-- The team of a list with a lease that was activated last. -/
def youngest (ts : List Thread) : Option Thread :=
  ts.foldl (fun o t => match o with
    | none => if t.sch.effLease = 0 then none else some t
    | some u => if t.sch.effLease ≠ 0 ∧ u.sch.activatedAt ≤ t.sch.activatedAt then some t else some u) none

/-- Teams deactivated, youngest activation first, until the sum fits (R66, R67); `fuel` bounds them. -/
def fitLeases (keep : Nat) (isl core : Nat) : Nat → State → State
  | 0, s => s
  | n + 1, s =>
    let ts := activeTeams s isl core
    if effSum ts ≤ 224 then s
    else match youngest (ts.filter (fun t => t.id.uid ≠ keep)) with
      | none => s
      | some t => fitLeases keep isl core n (s.updT t.id.uid (fun u =>
          { u with sch := { u.sch with life := .inactive, inactiveAt := s.cycle } }))

/-- A new window of the running team (R65, R286). -/
def newWindow (s : State) : State :=
  s.updCur (fun t => { t with sch := { t.sch with winCount := 0, winLines := [], winMisses := 0, winLost := 0 } })

/-- LEASE and LEASEM: the declared lease and the mode set, and a new window begun. -/
def setLease (lease : Nat) (m : Bool) (s : State) : State :=
  let s1 := (newWindow s).updCur (fun t => { t with sch := { t.sch with lease := lease, effLease := lease, measured := m } })
  (fitLeases s.cur.id.uid s.cur.id.isl s.cur.id.core 64 s1.retire).oweOnce (.teamAdmission s.cur.id.isl s.cur.id.core)

def execLease (a : BitVec 6) (s : State) : Result := goOn (setLease (min (s.rdS a).toNat 224) false s)
def execLeasem (s : State) : Result := goOn (setLease s.cur.sch.lease true s)

/-- LEASEQ: the figure that k selects (R286). -/
def execLeaseq (d k : BitVec 6) (s : State) : Result :=
  let c := s.cur.sch
  let v := if k = 0 then c.lease else if k = 1 then c.effLease else if k = 2 then c.lastLines else if k = 3 then c.lastLost
    else b2n c.measured
  goOn ((s.wrS d (BitVec.ofNat 64 v)).retire)

/-! ### SPLIT (R53, R69, R265) -/

/-- The entries of a lane file for n lanes from one on, moved down to lane 0. -/
def subLanes {w : Nat} (lo n : Nat) (m : Sparse w) : Sparse w :=
  (m.filter (fun e => decide (lo ≤ e.1 % 64) && decide (e.1 % 64 < lo + n))).map (fun e => (e.1 - lo, e.2))

/-- The window of a team whose FUSE has ended, or that a SPLIT has made, is looked at before any other instruction (R65). -/
def fuseCounted (s : State) (u : Nat) : State :=
  if ((s.thread? u).map (fun t => decide (4096 ≤ t.sch.winCount))).getD false then s.first (.leaseWindowEnd u) else s

/-- Subteam j of width w of a team (R53); the first keeps the team's handle, its heat and its deferred causes. Each has a copy of the team's running window
and of its mode (DESIGN CHOICE, log 40). -/
def subteam (t : Thread) (w j uid : Nat) : Thread :=
  let n := t.id.width / w
  let lo := j * w
  { t with
    id := { t.id with uid := uid, width := w, launchPos := t.id.launchPos + lo, hitch := t.id.hitch + lo / 4, slot := t.id.slot + lo / 4 }
    ln := { v := subLanes lo w t.ln.v, p := subLanes lo w t.ln.p, flags := subLanes lo w t.ln.flags, dc := subLanes lo w t.ln.dc }
    tr := { t.tr with savedDc := subLanes lo w t.tr.savedDc }
    sl := Slots.none
    an := if j = 0 then t.an else { t.an with deferred := [], lost := 0, heat := 0, heatWait := none }
    sch := { t.sch with lease := ceilDiv t.sch.lease n, effLease := ceilDiv t.sch.effLease n } }

/-- The subteams after the first join the agents; each stays active while the active set has room for it (R69). -/
def addSubteams (t : Thread) (w : Nat) (room : Bool) : List Nat → State → State
  | [], s => s
  | j :: js, s =>
    let q := s.take
    let u := subteam t w j q.1
    let ts := activeTeams q.2 t.id.isl t.id.core
    let ok := room && decide (ts.length < 32) && decide (effSum ts + u.sch.effLease ≤ 224)
    let u' := if ok then u else { u with sch := { u.sch with life := .inactive, inactiveAt := s.cycle } }
    let gs := q.2.groups.map (fun (g : Group) => if g.isl = t.id.isl ∧ g.arrived.contains t.id.uid then { g with arrived := q.1 :: g.arrived } else g)
    addSubteams t w ok js (fuseCounted { q.2 with others := q.2.others ++ [u'], groups := gs } q.1)

/-- SPLIT: `w` is the width code (R265). -/
def execSplit (w : BitVec 6) (s : State) : Result :=
  let n := 4 * 2 ^ w.toNat
  goOn (if 3 < w.toNat || decide (s.cur.id.width ≤ n) || s.cur.lanes.any (fun l => s.cur.rdDc l ≠ 0) || !s.cur.sc.loops.isEmpty
      || s.cur.sc.pc1.isSome then trapPlain s causeSplit
    else if s.cur.an.chain.isSome then trapPlain s causeChainState
    else
      let s1 := s.retire
      let t := s1.cur
      let js := (List.range (t.id.width / n)).drop 1
      (addSubteams t n true js { s1 with cur := subteam t n 0 t.id.uid }).oweOnce (.teamAdmission t.id.isl t.id.core))

/-! ### FUSE (R54, R55, R266) -/

/-- The lane files of two teams of n lanes joined: the upper team's lanes follow the lower's. -/
def joinLanes {w : Nat} (n : Nat) (lo hi : Sparse w) : Sparse w :=
  (subLanes 0 n hi).foldl (fun m e => spSet m (e.1 + n) e.2) (subLanes 0 n lo)

/-- The result of a FUSE written, and the team goes on at the next instruction (R54); one that waited becomes inactive, or stays swapped out. -/
def fuseResult (t : Thread) (sd : Nat) (code : Nat) (now : Nat) (wake : Bool) : Thread :=
  let t1 := (t.wrS sd (BitVec.ofNat 64 code)).fall.dropHints
  if wake then
    { t1 with sch := { t1.sch with
        life := if t.sch.life = .swapped then .swapped else .inactive, park := .none, inactiveAt := now, winCount := t1.sch.winCount + 1 } }
  else t1

/-- The lower team after code 0 (R55, R298, R313). The heat that a save took from either side and that is not yet back counts in the sum. It keeps the lower
side's running window and mode (DESIGN CHOICE, log 40). -/
def fusedTeam (lo hi : Thread) : Thread :=
  let n := lo.id.width
  { lo with
    id := { lo.id with width := 2 * n, covers := (lo.id.covers ++ hi.id.covers).eraseDups }
    ln := { v := joinLanes n lo.ln.v hi.ln.v, p := joinLanes n lo.ln.p hi.ln.p, flags := joinLanes n lo.ln.flags hi.ln.flags,
            dc := joinLanes n lo.ln.dc hi.ln.dc }
    tr := { lo.tr with savedDc := joinLanes n lo.tr.savedDc hi.tr.savedDc }
    fl := Flow.zero
    sl := Slots.none
    an := { lo.an with
      mstat := lo.an.mstat ||| hi.an.mstat, deferred := (lo.an.deferred ++ hi.an.deferred).take 8
      lost := min 65535 (lo.an.lost + hi.an.lost + ((lo.an.deferred ++ hi.an.deferred).length - 8)), heat := min 255 (lo.an.heat + hi.an.heat)
      heatOwed := min (lo.an.heatOwed + hi.an.heatOwed) (255 - (lo.an.heat + hi.an.heat)) }
    sch := { lo.sch with
      lease := min 224 (lo.sch.lease + hi.sch.lease), effLease := min 224 (lo.sch.effLease + hi.sch.effLease) } }

/-- The code of a FUSE whose buddy waits at one (R54 step 4). -/
def fuseCode (a b : Thread) : Nat :=
  if a.sc.pc ≠ b.sc.pc then 3
  else if (a.lanes.any (fun l => a.rdDc l ≠ 0)) || (b.lanes.any (fun l => b.rdDc l ≠ 0)) || a.sc.pc1.isSome || b.sc.pc1.isSome then 4
  else if !a.sc.loops.isEmpty || !b.sc.loops.isEmpty then 5
  else if a.id.groups ≠ b.id.groups then 6
  else 0

/-- The arrivals of two streams that become one: where both have arrived, the fused team has (R271). -/
def fuseArrivals (s : State) (lo hi : Thread) : State :=
  let s1 := settleArrivals s [lo, hi]
  let both := s.groups.filter (fun g => g.arrived.contains lo.id.uid && g.arrived.contains hi.id.uid)
  { s1 with groups := s1.groups.map (fun (g : Group) =>
      if both.any (fun h => h.isl = g.isl && h.ctx = g.ctx && h.entry = g.entry) then { g with arrived := lo.id.uid :: g.arrived } else g) }

/-- The requests for heat that a save made two teams ask again become one of their fused team's, for what it still lacks (R298). -/
def fuseOwed (s : State) (lo hi : Thread) : State :=
  if lo.an.heatOwed + hi.an.heatOwed = 0 then s
  else
    let s1 := heatCancel (heatCancel s lo.id.isl 3 lo.id.uid) lo.id.isl 3 hi.id.uid
    let n := (fusedTeam lo hi).an.heatOwed
    if n = 0 then s1 else heatRequest s1 lo.id.isl { kind := 3, who := lo.id.uid, units := n, prio := lo.id.prio }

/-- The two teams become one: the lower goes on, and the upper's stream ends (R55). -/
def fuseTeams (s : State) (a b : Thread) : State :=
  let lo := if a.id.hitch < b.id.hitch then a else b
  let hi := if a.id.hitch < b.id.hitch then b else a
  let s1 := fuseArrivals (dropAhead s lo.id.isl lo.id.core) lo hi
  let s2 := heatReturn s1 a.id.isl (a.an.heat + b.an.heat - 255)
  let drop := fun (x : Thread) => if x.id.uid = hi.id.uid then x.end_ else if x.id.uid = lo.id.uid then fusedTeam lo hi else x
  let s3 := s2.mapT drop
  fuseOwed { s3 with others := s3.others.filter (fun t => t.id.uid ≠ hi.id.uid) } lo hi

/-- FUSE: `w` is the width code of the wanted width, and `t` the exponent of the period (R54, R266). A buddy whose period has ended is not at its
FUSE any more. -/
def execFuse (d w : BitVec 6) (t : BitVec 5) (s : State) : Result :=
  let a := s.cur
  let give := fun (code : Nat) => (s.updCur (fun u => fuseResult u d.toNat code s.cycle false)).count
  goOn (if a.an.chain.isSome then trapPlain s causeChainState
    else if !a.fl.quiet then stall s
    else if w = 0 || 4 * 2 ^ w.toNat ≠ 2 * a.id.width then give 7
    else if !halfLive s a.id.coach (buddyHitch a) (a.id.width / 4) then give 2
    else match s.others.find? (fun b => b.live && b.id.coach = a.id.coach && b.id.hitch = buddyHitch a && b.id.width = a.id.width
        && b.sch.life = .parked) with
      | none => parkRetry s (.fuse (2 * a.id.width) d.toNat (2 ^ t.toNat) s.cycle)
      | some b =>
        match b.sch.park with
        | .fuse _ sd left since =>
          let code := fuseCode a b
          let s1 := give code
          let b' := fuseResult b sd code s.cycle true
          let s2 := fuseCounted (s1.updT b.id.uid (fun _ => b')) b.id.uid
          if left < s.cycle - since then parkRetry s (.fuse (2 * a.id.width) d.toNat (2 ^ t.toNat) s.cycle)
          else (if code = 0 then fuseTeams s2 s1.cur b' else s2).oweOnce (.teamAdmission a.id.isl a.id.core)
        | .none => parkRetry s (.fuse (2 * a.id.width) d.toNat (2 ^ t.toNat) s.cycle)
        | .word _ _ _ _ _ _ => parkRetry s (.fuse (2 * a.id.width) d.toNat (2 ^ t.toNat) s.cycle)
        | .timeline _ _ _ _ _ _ => parkRetry s (.fuse (2 * a.id.width) d.toNat (2 ^ t.toNat) s.cycle)
        | .counter _ _ _ _ => parkRetry s (.fuse (2 * a.id.width) d.toNat (2 ^ t.toNat) s.cycle)
        | .launch => parkRetry s (.fuse (2 * a.id.width) d.toNat (2 ^ t.toNat) s.cycle)
        | .group _ _ _ _ => parkRetry s (.fuse (2 * a.id.width) d.toNat (2 ^ t.toNat) s.cycle)
        | .arrive _ _ => parkRetry s (.fuse (2 * a.id.width) d.toNat (2 ^ t.toNat) s.cycle)
        | .yard => parkRetry s (.fuse (2 * a.id.width) d.toNat (2 ^ t.toNat) s.cycle)
        | .page _ => parkRetry s (.fuse (2 * a.id.width) d.toNat (2 ^ t.toNat) s.cycle))

/-! ### Group barriers (R267-R271) -/

/-- An ordering code with a release half: rel or ar (R214). -/
def hasRel (o : BitVec 2) : Bool := o.getLsbD 1

/-- An ordering code with an acquire half: acq or ar (R214). -/
def hasAcq (o : BitVec 2) : Bool := o.getLsbD 0

/-- The entry in a group slot of the running team. -/
def slotEntry (t : Thread) (g : BitVec 2) : Option Nat := (t.id.groups[g.toNat]?).join

/-- A team has arrived in the current phase: each member team that it covers has (R268, R271). -/
def hasArrived (s : State) (g : Group) (t : Thread) : Bool :=
  !(coveredBy s g t).isEmpty && (coveredBy s g t).all (fun m => g.settled.contains m || g.arrived.contains t.id.uid)

/-- The phase of an empty slot's barrier. -/
def soloPhase (t : Thread) (g : BitVec 2) : BitVec 32 := spGet t.sch.solo g.toNat

/-- An arrival of the running team, then k with the phase arrived in; an arrival in a phase already arrived in parks (R268, R269). -/
def arriveThen (g c o : BitVec 2) (k : State → BitVec 32 → State) (s : State) : State :=
  if hasRel o && !s.cur.accessesDone then stall s
  else
    let t := s.cur
    let rel := fun (s : State) => if hasRel o then releaseAll s t.mIsl t.id.core t.id.ctx c.toNat else s
    match (slotEntry t g).bind (fun e => s.group? t.id.isl t.id.ctx e) with
    | none =>
      let p := soloPhase t g
      k ((rel s).updCur (fun u => { u with sch := { u.sch with solo := spSet u.sch.solo g.toNat (p + 1) } })) p
    | some e =>
      if hasArrived s e t then parkRetry s (.arrive e.entry e.phase)
      else
        let s1 := rel s
        match s1.group? t.id.isl t.id.ctx e.entry with
        | none => s1
        | some e1 => k (groupArrive s1 e1 t.id.uid) e1.phase

/-- An acquire of the counted bytes of counters that have fired, those of global memory at .i (R108). -/
def acquireFired (s : State) (t : Thread) (regs : List (Nat × Nat)) : State :=
  acquirePhys s t.mIsl t.id.core t.id.ctx (if regs = [] then 1 else scopeI) regs

/-- A wait of the running team for a phase to pass, with the acquire half (R268, R269) and that of the counters which arrived (R108). -/
def waitPhase (g c o : BitVec 2) (p : BitVec 32) (s : State) : State :=
  let t := s.cur
  let acq := fun (s : State) => if hasAcq o then acquireAll s t.mIsl t.id.core t.id.ctx c.toNat else s
  if hasAcq o && !t.accessesDone then stall s
  else match (slotEntry t g).bind (fun e => s.group? t.id.isl t.id.ctx e) with
    | none => (acq s).retire
    | some e =>
      if !phasePassed e.phase p then parkAfter s (.group e.entry p (hasAcq o) c.toNat)
      else if e.syncs && !t.accessesDone then stall s
      else (acq (if e.syncs then acquireFired s t e.regs else s)).retire

/-- GBAR: an arrival, then a wait on the phase arrived in. Both halves, and what a counter's arrival has them acquire, wait for the earlier accesses
first. -/
def execGbar (g c o : BitVec 2) (s : State) : Result :=
  let syncs := (((slotEntry s.cur g).bind (fun e => s.group? s.cur.id.isl s.cur.id.ctx e)).map Group.syncs).getD false
  goOn (if (hasAcq o || syncs) && !s.cur.accessesDone then stall s else arriveThen g c o (fun s p => waitPhase g c o p s) s)
def execGarrive (d : BitVec 6) (g c o : BitVec 2) (s : State) : Result :=
  goOn (arriveThen g c o (fun s p => (s.wrS d (p.zeroExtend 64)).retire) s)
def execGwait (a : BitVec 6) (g c o : BitVec 2) (s : State) : Result := goOn (waitPhase g c o ((s.rdS a).truncate 32) s)

/-- GQRY: the figure that k selects (R270). -/
def execGqry (d : BitVec 6) (g : BitVec 2) (k : BitVec 4) (s : State) : Result :=
  let t := s.cur
  let v : Word64 := match slotEntry t g with
    | none => if k = 0 then BitVec.allOnes 64 else if k = 1 then (soloPhase t g).zeroExtend 64 else if k = 2 then 1 else 0
    | some e =>
      if k = 0 then BitVec.ofNat 64 e
      else match s.group? t.id.isl t.id.ctx e with
        | none => 0
        | some b =>
          if k = 1 then b.phase.zeroExtend 64
          else if k = 2 then BitVec.ofNat 64 ((groupMembers s b).filter (fun m => !(memberTeams s m).isEmpty)).length
          else BitVec.ofNat 64 (((groupMembers s b).filter (fun m => memberArrived s b m)).length + b.extCount)
  goOn ((s.wrS d v).retire)

end Sys2Proof.Machine
end

