-- ==== Sys2Proof/Machine/Memory.lean ====
section
/-!
DEFINITION. Element loads and stores, atomics, and the members that order, bind and maintain (majors 0x30 to 0x37; R272-R285, R381).
-/
namespace Sys2Proof.Machine

/-! ### Elements (R212, R273) -/

/-- Bytes of an element. -/
def elemBytes (z : BitVec 3) : Nat := if z = 0 ∨ z = 5 then 1 else if z = 1 ∨ z = 6 then 2 else if z = 2 then 4 else if z = 3 then 8 else 16

/-- The exact address of a lane: s[sb] + zext(lane(va), 32), never wrapped. -/
def laneAddr (s : State) (a : BitVec 7) (b : BitVec 6) (l : Nat) : Nat := (s.rdS b).toNat + (s.cur.rdV a.toNat l).toNat

/-- An element in the registers of a lane, from vd upward: narrow ones extended, wide ones 32 bits a register. -/
def Thread.wrElem (t : Thread) (d : Nat) (z : BitVec 3) (l : Nat) (bs : List Byte) : Thread :=
  let x := leNat bs
  if z = 5 then t.wrV d l (BitVec.ofInt 32 (sextNat x 8))
  else if z = 6 then t.wrV d l (BitVec.ofInt 32 (sextNat x 16))
  else (List.range (elemRegs z)).foldl (fun t i => t.wrV (d + i) l (BitVec.ofNat 32 (x / 2 ^ (32 * i)))) t

/-- The bytes of a lane's element, vd lowest. -/
def Thread.rdElem (t : Thread) (d : Nat) (z : BitVec 3) (l : Nat) : List Byte :=
  ((List.range (elemRegs z)).flatMap (fun i => leBytes 4 (t.rdV (d + i) l).toNat)).take (elemBytes z)

/-- The writes of a list with the k-th of them last. -/
def lastOne (k : Nat) (c : List (Nat × List Byte)) : List (Nat × List Byte) := c.eraseIdx k ++ (c.drop k).take 1

/-- The writes of a set of lanes, address by address. Every lane's write is made, and where lanes meet at one address the one that stays is a free
choice (R79, R273). -/
def pickWrites (f : Nat) (ws : List (Nat × List Byte)) : List (Nat × List Byte) :=
  ((ws.map (fun w => w.1)).eraseDups).zipIdx.flatMap (fun a =>
    let c := ws.filter (fun w => w.1 = a.1)
    lastOne (Config.freeChoice (f + a.2) % c.length) c)

/-- A 16-byte element is written as two halves (R79). -/
def halvesOf (w : Nat × List Byte) : List (Nat × List Byte) :=
  if w.2.length = 16 then [(w.1, w.2.take 8), (w.1 + 8, w.2.drop 8)] else [w]

/-- The writes of the lanes, and the state after the free choices that they took. -/
def settleWrites (s : State) (ws : List (Nat × List Byte)) : State × List (Nat × List Byte) :=
  let hs := ws.flatMap halvesOf
  let n := ((hs.map (fun w => w.1)).eraseDups).length
  if n = hs.length then (s, hs) else ({ s with fresh := s.fresh + n }, pickWrites s.fresh hs)

/-! ### The control words of the hub cores (R381) -/

/-- The value of a control word, by its offset from 0xFFFF_F000: HUBCTL, HUBXPC or HUBXADDR. -/
def hubWord (s : State) (off : Nat) : Word64 :=
  match s.panel.hubs.find? (fun h => h.hub = off / 8 % 4) with
  | none => 0
  | some h =>
    if off < 32 then BitVec.ofNat 64 ((if h.fault then h.cause.toNat * 2 ^ 16 + 4 else 0) + (if h.halted then 2 else 0))
    else if !h.fault then 0
    else if off < 64 then h.xpc else h.xaddr

/-- A write to a control word: 1 in WAKE wakes a halted core, in a step of its own; every other bit and word is read-only. -/
def hubWrite (s : State) (off : Nat) (x : Nat) : State :=
  if off < 32 ∧ x % 2 = 1 then s.owe (.hubWake s.cur.id.core (off / 8)) else s

/-- The mark by which a probe says that an access names a control word. -/
def mtHub : Nat := 255

/-- An access of a hub core is an aligned one of a whole control word. -/
def hubCtlWord (t : Thread) (a n : Nat) : Bool := hubCtlHit t a n && n = 8 && a % 8 = 0

/-! ### Lane accesses -/

/-- A lane's access to global memory probed (R274). -/
def probeLane (s : State) (a n : Nat) (acc : Acc) : State × Probe :=
  if hubCtlWord s.cur a n then (s, .ok a mtHub) else probeGlobal s a n acc

/-- A probe that passed names a control word. -/
def Probe.hub : Probe → Bool
  | .ok _ mt => mt = mtHub
  | .bad _ _ => false
  | .page _ => false

/-- The range of a coach's allocation in SP or AB, in bytes (R78). -/
def coachRange (s : State) (space : Nat) : Nat × Nat :=
  match s.coach? s.cur.id.coach with
  | none => (0, 0)
  | some c =>
    let r := if space = 1 then c.sp else if space = 2 then c.ab else if space = 3 then c.wb else c.cb
    (1024 * r.1, 1024 * r.2)

/-- A lane's access to SP or AB probed: alignment, the allocation, and marked bytes for a load (R78, R79, R274). -/
def probeStore (s : State) (space a n : Nat) (acc : Acc) : State × Probe :=
  let r := coachRange s space
  let va := BitVec.ofNat 64 a
  if a % n ≠ 0 then (s, .bad causeMisalign va)
  else if r.2 < a + n then (s, .bad causeUnmapped va)
  else
    let k := storeKey s.cur.id.isl s.cur.id.core space (r.1 + a)
    if acc = .read ∧ (s.island s.cur.id.isl).marks.any (fun m => decide (k ≤ m) && decide (m < k + n)) then (s, .bad causeData va)
    else (s, .ok (r.1 + a) 0)

/-- The elements of the lanes read one after another from global memory, through the L1. -/
def readGlobal (n : Nat) (va : Nat → Nat) (s : State) : List (Nat × Probe) → State × List (Nat × List Byte)
  | [] => (s, [])
  | (l, p) :: ps =>
    let t := s.cur
    let q := if p.hub then (s, leBytes 8 (hubWord s (p.pa - 0xFFFFF000)).toNat)
      else gRead s t.mIsl t.id.core t.id.ctx (va l) p.pa n (s.policyOn p.stream)
    let r := readGlobal n va q.1 ps
    (r.1, (l, q.2) :: r.2)

/-- The first lane whose element of n bytes holds the byte where its probe places it. -/
def laneOf (n : Nat) (ps : List (Nat × Probe)) (k : Nat) : Nat × Probe :=
  (ps.find? (fun p => decide (p.2.pa ≤ k) && decide (k < p.2.pa + n))).getD (0, .ok 0 0)

/-- Elements of n bytes written one after another to global memory, through the L1, where the lanes' probes place them. -/
def writeGlobal (n : Nat) (va : Nat → Nat) (ps : List (Nat × Probe)) (s : State) : List (Nat × List Byte) → State
  | [] => s
  | (k, bs) :: ws =>
    let t := s.cur
    let p := laneOf n ps k
    writeGlobal n va ps
      (if p.2.hub then hubWrite s (k - 0xFFFFF000) (leNat bs)
        else gWrite s t.mIsl t.id.core t.id.ctx (va p.1 + (k - p.2.pa)) k bs (s.policyOn p.2.stream)) ws

/-- Elements delivered to the lanes' registers. -/
def deliverElems (d : Nat) (z : BitVec 3) (vs : List (Nat × List Byte)) (t : Thread) : Thread :=
  vs.foldl (fun t v => t.wrElem d z v.1 v.2) t

/-- The lines of global memory that probes name. -/
def probeLines (ps : List (Nat × Probe)) : List Nat := ps.map (fun p => p.2.pa / 128)

/-- The lanes' elements of an access that is performed late. -/
def lateLanes (s : State) (space : Nat) (load : Bool) (d : Nat) (z : BitVec 3) (elems : List (Nat × Nat × Nat × Nat × List Byte)) : LateAcc :=
  { op := 0, agent := s.cur.id.uid, isl := s.cur.mIsl, core := s.cur.id.core, ctx := s.cur.id.ctx, space := space, load := load, scalar := false
    elem := z, dst := d, elems := elems }

/-- A load of the lanes' elements begun that is performed when it completes: its registers wait for it. -/
def lateLoad (space : Nat) (d : Nat) (z : BitVec 3) (va : Nat → Nat) (ps : List (Nat × Probe)) (s : State) : State :=
  beginLate s (lateLanes s space true d z (ps.map (fun p =>
    (4 * s.cur.id.hitch + p.1, va p.1, p.2.pa, s.policyOn p.2.stream, leBytes (elemBytes z) 0))))
    ((List.range (elemRegs z)).map (fun i => d + i)) []

/-- A store of the lanes' elements begun that is performed when it completes. -/
def lateStore (space : Nat) (z : BitVec 3) (va : Nat → Nat) (ps : List (Nat × Probe)) (ws : List (Nat × List Byte)) (s : State) : State :=
  beginLate s (lateLanes s space false 0 z (ws.map (fun w =>
    let p := laneOf (elemBytes z) ps w.1
    (0, va p.1 + (w.1 - p.2.pa), w.1, s.policyOn p.2.stream, w.2)))) [] []

/-- LDG (R273-R275). -/
def globalLoad (d a : BitVec 7) (b : BitVec 6) (p z : BitVec 3) (s : State) : State :=
  let ls := s.cur.activeLanes p.toNat
  let n := elemBytes z
  let va := laneAddr s a b
  if ls = [] then s.retire
  else
    let q := probeLanes (fun s l => probeLane s (va l) n .read) s ls
    afterProbes q.1 q.2 1 0 (fun s1 =>
      if atomAhead s1 s1.cur.mIsl (probeLines q.2) then stall s1
      else if s1.goesLate then (lateLoad 0 d.toNat z va q.2 s1).retire
      else
        let r := readGlobal n va s1 q.2
        (beginAccess (r.1.updCur (deliverElems d.toNat z r.2)) .ld).retire)

/-- STG (R273-R275). -/
def globalStore (d a : BitVec 7) (b : BitVec 6) (p z : BitVec 3) (s : State) : State :=
  let ls := s.cur.activeLanes p.toNat
  let n := elemBytes z
  let va := laneAddr s a b
  if ls = [] then s.retire
  else
    let q := probeLanes (fun s l => probeLane s (va l) n .write) s ls
    afterProbes q.1 q.2 2 0 (fun s1 =>
      if atomAhead s1 s1.cur.mIsl (probeLines q.2) then stall s1
      else
        let w := settleWrites s1 (q.2.map (fun x => (x.2.pa, s1.cur.rdElem d.toNat z x.1)))
        if w.1.goesLate then (lateStore 0 z va q.2 w.2 w.1).retire
        else (beginAccess (writeGlobal n va q.2 w.1 w.2) .st).retire)

/-- The elements of the lanes read from a typed store. -/
def readStore (space n : Nat) (s : State) (ps : List (Nat × Probe)) : State × List (Nat × List Byte) :=
  let t := s.cur
  let vs := ps.map (fun x => (x.1, earlyOr s t.id.isl t.id.core space x.2.pa (s.storeBytes t.id.isl t.id.core space x.2.pa n)))
  (ps.foldl (fun s x => ownUse s t.id.isl t.id.core space x.2.pa n) (storeUsed s t.id.isl t.id.ctx (n * vs.length)), vs)

/-- Elements of n bytes written one after another to a typed store. -/
def writeStore (space n : Nat) (s : State) (ws : List (Nat × List Byte)) : State :=
  let t := s.cur
  ws.foldl (fun s x => ownUse (storePut s t.id.isl t.id.core space (cellsFrom x.1 x.2)) t.id.isl t.id.core space x.1 x.2.length)
    (storeUsed s t.id.isl t.id.ctx (n * ws.length))

/-- LDS and LDA (R273-R275). -/
def storeLoad (space : Nat) (d a : BitVec 7) (b : BitVec 6) (p z : BitVec 3) (s : State) : State :=
  let ls := s.cur.activeLanes p.toNat
  let n := elemBytes z
  if ls = [] then s.retire
  else
    let q := probeLanes (fun s l => probeStore s space (laneAddr s a b l) n .read) s ls
    afterProbes q.1 q.2 1 space (fun s1 =>
      if storeAhead s1 space n (q.2.map (fun x => x.2.pa)) then stall s1
      else if s1.goesLate then (lateLoad space d.toNat z (laneAddr s a b) q.2 s1).retire
      else
        let r := readStore space n s1 q.2
        (beginAccess (r.1.updCur (deliverElems d.toNat z r.2)) .ld).retire)

/-- STS and STA (R273-R275): each element is written whole at the store's controller. -/
def storeStore (space : Nat) (d a : BitVec 7) (b : BitVec 6) (p z : BitVec 3) (s : State) : State :=
  let ls := s.cur.activeLanes p.toNat
  let n := elemBytes z
  if ls = [] then s.retire
  else
    let q := probeLanes (fun s l => probeStore s space (laneAddr s a b l) n .write) s ls
    afterProbes q.1 q.2 2 space (fun s1 =>
      if storeAhead s1 space n (q.2.map (fun x => x.2.pa)) then stall s1
      else
        let w := settleWrites s1 (q.2.map (fun x => (x.2.pa, s1.cur.rdElem d.toNat z x.1)))
        if w.1.goesLate then (lateStore space z (laneAddr s a b) q.2 w.2 w.1).retire
        else (beginAccess (writeStore space n w.1 w.2) .st).retire)

/-- What a load that is performed late brings an agent: to each physical lane its element, or to a scalar register its bytes. -/
def Thread.takeLate (a : LateAcc) (vs : List (Nat × List Byte)) (t : Thread) : Thread :=
  vs.foldl (fun t v =>
    if a.scalar then t.wrS a.dst (BitVec.ofNat 64 (leNat v.2))
    else if 4 * t.id.hitch ≤ v.1 ∧ v.1 < 4 * t.id.hitch + t.id.width then t.wrElem a.dst a.elem (v.1 - 4 * t.id.hitch) v.2 else t) t

/-- The elements of a load that is performed late, read one after another. -/
def lateReads (a : LateAcc) (s : State) : List (Nat × Nat × Nat × Nat × List Byte) → State × List (Nat × List Byte)
  | [] => (s, [])
  | e :: es =>
    let q := lateRead s a e
    let r := lateReads a q.1 es
    (r.1, (e.1, q.2) :: r.2)

/-- An access that was to be performed late is performed, and completes (R275). -/
def performLate (s : State) (a : LateAcc) : State :=
  if a.load then
    let r := lateReads a (landLate s a) a.elems
    opDeliver r.1 a.op (if a.scalar then [] else (List.range (elemRegs a.elem)).map (fun i => a.dst + i)) (if a.scalar then [a.dst] else [])
      (Thread.takeLate a r.2)
  else opPart (landLate s a) a.op

def execLds (d a : BitVec 7) (b : BitVec 6) (p z : BitVec 3) (s : State) : Result := goOn (storeLoad 1 d a b p z s)
def execSts (d a : BitVec 7) (b : BitVec 6) (p z : BitVec 3) (s : State) : Result := goOn (storeStore 1 d a b p z s)
def execLda (d a : BitVec 7) (b : BitVec 6) (p z : BitVec 3) (s : State) : Result := goOn (storeLoad 2 d a b p z s)
def execSta (d a : BitVec 7) (b : BitVec 6) (p z : BitVec 3) (s : State) : Result := goOn (storeStore 2 d a b p z s)
def execLdg (d a : BitVec 7) (b : BitVec 6) (p z : BitVec 3) (s : State) : Result := goOn (globalLoad d a b p z s)
def execStg (d a : BitVec 7) (b : BitVec 6) (p z : BitVec 3) (s : State) : Result := goOn (globalStore d a b p z s)

/-! ### Atomics (R277-R280) -/

/-- f(old, v) of an operation of w bits; CAS compares old with `cmp` (R213, R278). -/
def atomicNew {w : Nat} (aop : Nat) (old v cmp : BitVec w) : BitVec w :=
  if aop = 0 then old + v
  else if aop = 1 then old &&& v
  else if aop = 2 then old ||| v
  else if aop = 3 then old ^^^ v
  else if aop = 4 then (if v.slt old then v else old)
  else if aop = 5 then (if old.slt v then v else old)
  else if aop = 6 then (if v.ult old then v else old)
  else if aop = 7 then (if old.ult v then v else old)
  else if aop = 8 then v
  else if aop = 9 then (if old = cmp then v else old)
  else BitVec.ofNat w (fSum fp32 rne old.toNat v.toNat).1

/-- The scope of ATOM and SATOM: .i, or the override of an HMOD (R277, R336). -/
def Thread.atomScope (t : Thread) : Nat :=
  match t.sc.hints.hmod with
  | none => scopeI
  | some h => if h.getLsbD 5 then h.toNat / 8 % 4 else scopeI

/-- The sync object of an address: the aligned 8-byte word that holds it (R99). -/
def objOf (a : Nat) : Nat := a / 8 * 8

/-- An atomic's address probed: as for a load and a store together (R277). -/
def probeAtom (s : State) (a n : Nat) : State × Probe :=
  if hubCtlWord s.cur a n then (s, .ok a mtHub)
  else
    let q := probeGlobal s a n .write
    match q.2 with
    | .ok pa mt =>
      if gBad q.1 s.cur.mIsl s.cur.id.core pa n || unitBad q.1 s.cur.mIsl s.cur.id.core pa then (q.1, .bad causeData (BitVec.ofNat 64 a))
      else (q.1, .ok pa mt)
    | .bad c v => (q.1, .bad (if c = causeUnmapped ∧ (probeGlobal s a n .read).2 = .bad causeData v then causeData else c) v)
    | .page v => (q.1, .page v)

/-- The L1 actions before an atomic is sent: the release half on each word's object, then each line written back and dropped (R82, R280). -/
def beforeAtoms (s : State) (rel : Bool) (vas : List Nat) (ps : List Probe) : State :=
  let t := s.cur
  let s1 := if rel then (vas.map objOf).eraseDups.foldl (fun s o => releaseObj s t.mIsl t.id.core t.id.ctx o t.atomScope) s else s
  (ps.filter (fun p => !p.hub)).foldl (fun s p => ownUse (dropLine s t.mIsl t.id.core (p.pa / 128)) t.mIsl t.id.core 0 (p.pa / 128 * 128) 128) s1

/-- A release or an acquire is under way until an operation's last part returns: no later access of the agent issues (R103, R280). -/
def State.fence (s : State) (sync : Bool) (op : Nat) : State :=
  if sync then (dropAhead s s.cur.mIsl s.cur.id.core).updCur (fun t => { t with fl := { t.fl with fenced := op :: t.fl.fenced } }) else s

/-- The regions that the acquire half of an atomic covers, as they stand when it issues (R99, R280). -/
def atomRegs (s : State) (t : Thread) (vas : List Nat) : List (Nat × Nat) :=
  ((vas.map objOf).eraseDups).flatMap (acqRegions s t.mIsl t.id.ctx)

/-- ATOM (R277): each active lane's operation is sent to the owning die's atomic unit, which performs it in a step of its own. -/
def vectorAtom (d a : BitVec 7) (b : BitVec 6) (o : BitVec 4) (r : BitVec 2) (s : State) : State :=
  let t := s.cur
  let ls := t.activeLanes 0
  let va := laneAddr s a b
  if t.atomScope = 3 then trapPlain s causeIllegal
  else if ls = [] then s.retire
  else if (hasRel r || hasAcq r) && !t.accessesDone then stall s
  else
    let q := probeLanes (fun s l => probeAtom s (va l) 4) s ls
    afterProbes q.1 q.2 3 0 (fun s1 =>
      if atomAhead s1 s1.cur.mIsl (probeLines q.2) then stall s1
      else
        let s2 := beforeAtoms s1 (hasRel r) (ls.map va) (q.2.map (fun x => x.2))
        let x := beginOp s2 .ld ls.length
        let regs := if hasAcq r then atomRegs s1 t (ls.map va) else []
        let reqs := q.2.map (fun y =>
          let v := t.rdV d.toNat y.1
          ({ op := x.2, lane := 4 * t.id.hitch + y.1, agent := t.id.uid, isl := t.mIsl, core := t.id.core, ctx := t.id.ctx,
             key := memKey t.mIsl y.2.pa, va := BitVec.ofNat 64 (va y.1), wide := false, aop := o.toNat
             val := (if o = 9 then t.rdV (d.toNat + 1) y.1 else v).zeroExtend 64, cmp := v.zeroExtend 64, dst := d.toNat
             acq := hasAcq r, scope := t.atomScope, regs := regs } : AtomReq))
        let s3 := { x.1 with atoms := x.1.atoms ++ reqs, due := x.1.due ++ reqs.map (fun (y : AtomReq) => Event.atomicPerform y.op y.lane) }
        ((s3.updCur (fun t => { t with fl := { t.fl with pendV := d.toNat :: t.fl.pendV } })).fence (hasRel r || hasAcq r) x.2).retire)

def execAtom (d a : BitVec 7) (b : BitVec 6) (o : BitVec 4) (r : BitVec 2) (s : State) : Result := goOn (vectorAtom d a b o r s)

/-- SATOM on a control word of the hub cores takes effect at once (R381). -/
def hubAtom (o : BitVec 4) (d b : BitVec 6) (off : Nat) (s : State) : State :=
  let old := hubWord s off
  (beginAccess ((hubWrite s off (atomicNew o.toNat old (s.rdS b) (s.rdS d)).toNat).wrS d old) .ld).retire

/-- SATOM (R279). -/
def execSatom (o : BitVec 4) (r : BitVec 2) (d a b : BitVec 6) (s : State) : Result :=
  let t := s.cur
  let va := (s.rdS a).toNat
  goOn (if t.atomScope = 3 then trapPlain s causeIllegal
    else if (hasRel r || hasAcq r) && !t.accessesDone then stall s
    else
      let q := probeAtom s va 8
      match q.2 with
      | .bad c v => takeTrap q.1 (addrFx c v 3 0)
      | .page v => parkPage q.1 v 3
      | .ok pa mt =>
        if mt = mtHub then hubAtom o d b (va - 0xFFFFF000) q.1
        else if atomAhead q.1 t.mIsl [pa / 128] then stall q.1
        else
          let s2 := beforeAtoms q.1 (hasRel r) [va] [q.2]
          let x := beginOp s2 .ld 1
          let req : AtomReq :=
            { op := x.2, lane := 0, agent := t.id.uid, isl := t.mIsl, core := t.id.core, ctx := t.id.ctx, key := memKey t.mIsl pa,
              va := BitVec.ofNat 64 va, wide := true, aop := o.toNat, val := s.rdS b, cmp := s.rdS d, dst := d.toNat, acq := hasAcq r,
              scope := t.atomScope, regs := if hasAcq r then atomRegs q.1 t [va] else [] }
          let s3 := { x.1 with atoms := x.1.atoms ++ [req], due := x.1.due ++ [Event.atomicPerform x.2 0] }
          ((s3.updCur (fun t => { t with fl := { t.fl with pendS := d.toNat :: t.fl.pendS } })).fence (hasRel r || hasAcq r) x.2).retire)

/-! ### Ordering, binding and L1 maintenance (R281-R285) -/

/-- A member of R281 takes effect only after every earlier access of its agent, and no later one before it. -/
def ordered (k : State → State) (s : State) : State :=
  if s.cur.accessesDone then k (dropAhead s s.cur.mIsl s.cur.id.core) else stall s

/-- FENCE (R104, R282): the release half, then the acquire half. -/
def execFence (c o : BitVec 2) (s : State) : Result :=
  goOn (ordered (fun s =>
    let t := s.cur
    let s1 := if hasRel o then releaseAll s t.mIsl t.id.core t.id.ctx c.toNat else s
    (if hasAcq o then acquireAll s1 t.mIsl t.id.core t.id.ctx c.toNat else s1).retire) s)

/-- ACQ (R283): the word is read at the atomic unit, and the read acquires its object. -/
def execAcq (d a : BitVec 6) (c : BitVec 2) (s : State) : Result :=
  goOn (ordered (fun s =>
    unitAccess s (s.rdS a).toNat 8 (fun s1 pa =>
      let t := s1.cur
      let s2 := l2Used (dropLine s1 t.mIsl t.id.core (pa / 128)) t.mIsl t.id.ctx 8
      let v := BitVec.ofNat 64 (s2.physNat t.mIsl pa 8)
      ((acquireObj s2 t.mIsl t.id.core t.id.ctx (s.rdS a).toNat c.toNat).wrS d v).retire)) s)

/-- REL (R283): the L1 action, then the write at the atomic unit. -/
def execRel (b a : BitVec 6) (c : BitVec 2) (s : State) : Result :=
  goOn (ordered (fun s =>
    scalarAccess s (s.rdS a).toNat 8 .write 2 (fun s1 pa _ =>
      let t := s1.cur
      let s2 := releaseObj s1 t.mIsl t.id.core t.id.ctx (s.rdS a).toNat c.toNat
      let s3 := l2Used (dropLine s2 t.mIsl t.id.core (pa / 128)) t.mIsl t.id.ctx 8
      (l2Put s3 t.mIsl (cellsFrom pa (leBytes 8 (s.rdS b).toNat))).retire)) s)

/-- The lowest free index of a context's binding table. -/
def freeBinding (s : State) (isl ctx : Nat) : Option Nat :=
  (List.range 1024).find? (fun i => s.bindings.all (fun b => !(b.isl = isl && b.ctx = ctx && b.idx = i)))

/-- BIND (R284). -/
def execBind (d a b : BitVec 6) (s : State) : Result :=
  goOn (ordered (fun s =>
    let t := s.cur
    let base := (s.rdS a).toNat
    let len := (t.rdS (a.toNat + 1)).toNat
    let obj := (s.rdS b).toNat
    if base % 128 ≠ 0 || len % 128 ≠ 0 || decide (len < 128) || decide (2 ^ 48 < len) || obj % 8 ≠ 0 then (s.wrS d (-2)).retire
    else match freeBinding s t.mIsl t.id.ctx with
      | none => (s.wrS d (-1)).retire
      | some i =>
        let e : Binding := { isl := t.mIsl, ctx := t.id.ctx, idx := i, base := base, len := len, obj := obj }
        (({ s with bindings := e :: s.bindings }).wrS d (BitVec.ofNat 64 i)).retire) s)

/-- UNBIND (R284). -/
def execUnbind (a : BitVec 6) (s : State) : Result :=
  goOn (ordered (fun s =>
    let t := s.cur
    let i := (s.rdS a).toNat
    ({ s with bindings := s.bindings.filter (fun b => !(b.isl = t.mIsl && b.ctx = t.id.ctx && b.idx = i)) }).retire) s)

/-- The lines of the agent's context that hold a byte of a region. -/
def regionLines (s : State) (a b : BitVec 6) (l : L1Line) : Bool :=
  ownLine s.cur.mIsl s.cur.id.core s.cur.id.ctx l && decide ((s.rdS b).toNat ≠ 0) && inRegions [((s.rdS a).toNat, (s.rdS b).toNat)] l

/-- CINV writes back and drops, CWB writes back (R285). -/
def execCinv (a b : BitVec 6) (s : State) : Result := goOn (ordered (fun s => (dropLines s (regionLines s a b)).retire) s)
def execCwbWriteback (a b : BitVec 6) (s : State) : Result := goOn (ordered (fun s => (wbLines s (regionLines s a b)).retire) s)

end Sys2Proof.Machine
end

