-- ==== Sys2Proof/Machine/Acc.lean ====
section
/-!
DEFINITION. Accumulator slots of the CB and their moves to and from lanes (major 0x2B; R78, R143, R144, R314-R317).
-/
namespace Sys2Proof.Machine

/-- A slot's 56 bits read by a conversion code, and whether the conversion saturated, delivered an infinity or read a NaN (R315, R316). -/
def slotToLane (code : Nat) (x : Nat) : Word32 × Bool :=
  let v := sextNat x 56
  let f := e11m44.decode x
  let flt := fun (k : Fmt) (sat : Bool) =>
    let r := narrow k rne sat f
    (BitVec.ofNat 32 r.1, (match f with
      | .nan => true
      | .inf _ => true
      | .fin _ _ _ => decide (r.2 &&& fOF ≠ 0)))
  if code = 0 then (BitVec.ofNat 32 x, false)
  else if code = 1 then
    let c := max (-2147483648) (min 2147483647 v)
    (BitVec.ofInt 32 c, decide (c ≠ v))
  else if code = 2 then (BitVec.ofNat 32 (roundTo fp32 rne false (v < 0) v.natAbs (-6) false).1, false)
  else if code = 3 then (BitVec.ofNat 32 (roundTo fp32 rne false (v < 0) v.natAbs 0 false).1, false)
  else if code = 4 then flt fp32 false
  else if code = 5 then flt fp32 true
  else if code = 6 then flt bf16 false
  else if code = 7 then flt bf16 true
  else if code = 8 then flt fp16 false
  else if code = 9 then flt fp16 true
  else if code = 10 then
    let r := floatToInt rne (-2147483648) 2147483647 f
    (if f.isNan then 0 else BitVec.ofInt 32 r.1, decide (r.2 &&& fNV ≠ 0))
  else if code = 11 then (BitVec.ofNat 32 x, false)
  else (BitVec.ofNat 32 (x / 2 ^ 32 % 2 ^ 24), false)

/-- A slot as a code writes it from a lane, given the slot's old bits (R315). -/
def laneToSlot (code : Nat) (old : Nat) (l : Word32) : BitVec 56 :=
  let flt := fun (x : Fp) => BitVec.ofNat 56 (deliver e11m44 rne (x, 0)).1
  if code = 0 ∨ code = 1 ∨ code = 3 then l.signExtend 56
  else if code = 2 then BitVec.ofInt 56 (l.toInt * 64)
  else if code = 4 ∨ code = 5 then flt (fp32.decode l.toNat)
  else if code = 6 ∨ code = 7 then flt (bf16.decode (l.toNat % 65536))
  else if code = 8 ∨ code = 9 then flt (fp16.decode (l.toNat % 65536))
  else if code = 10 then flt (.fin (l.toInt < 0) l.toInt.natAbs 0)
  else if code = 11 then BitVec.ofNat 56 (old / 2 ^ 32 * 2 ^ 32 + l.toNat)
  else BitVec.ofNat 56 (l.toNat % 2 ^ 24 * 2 ^ 32 + old % 2 ^ 32)

/-- Slots written to a core's CB at physical slot numbers, each whole (R78, R127). -/
def putSlots (s : State) (isl core : Nat) (ws : List (Nat × BitVec 56)) : State :=
  ws.foldl (fun s w => storePut s isl core 4 (cellsFrom (8 * w.1) (leBytes 8 w.2.toNat))) s

/-- A slot holds bits marked uncorrectable (R420). -/
def slotBad (s : State) (isl core slot : Nat) : Bool :=
  let k := storeKey isl core 4 (8 * slot)
  (s.island isl).marks.any (fun m => decide (k ≤ m) && decide (m < k + 8))

/-- The first physical slot of the running team's CB allocation, and how many slots it has (R78). -/
def cbRange (s : State) : Nat × Nat :=
  let r := coachRange s 4
  (r.1 / 8, r.2 / 8)

/-- A lane's slot probed: inside the allocation, and without marked bits where the member reads it (R314). -/
def probeSlot (reads : Bool) (s : State) (slot : Nat) : State × Probe :=
  let r := cbRange s
  if r.2 ≤ slot then (s, .bad causeUnmapped (BitVec.ofNat 64 slot))
  else if reads && slotBad s s.cur.id.isl s.cur.id.core (r.1 + slot) then (s, .bad causeData (BitVec.ofNat 64 slot))
  else (s, .ok (r.1 + slot) 0)

/-- A member of major 0x2B: each active lane works on its own slot (R314). -/
def slotMember (b : BitVec 6) (p : BitVec 3) (reads : Bool) (atype : Nat) (none_ : State → State)
    (k : List (Nat × Probe) → State → State) (s : State) : State :=
  let ls := s.cur.activeLanes p.toNat
  if ls = [] then none_ s
  else
    let q := probeLanes (fun s l => probeSlot reads s ((s.rdS b).toNat + l)) s ls
    afterProbes q.1 q.2 atype 4 (k q.2)

/-- MFACC and MFACCZ. -/
def readSlots (zero : Bool) (d : BitVec 7) (t : BitVec 1) (k b : BitVec 6) (p : BitVec 3) (s : State) : State :=
  let st := fun (x : Bool) (s : State) => if t = 1 then s.updCur (fun u => u.wrC 7 x) else s
  slotMember b p true 1 (fun s => (st false s).retire) (fun ps s1 =>
    let i := s1.cur.id
    let vs := ps.map (fun x => (x.1, slotToLane k.toNat (s1.cbSlot i.isl i.core x.2.pa).toNat))
    let s2 := s1.updCur (fun u => vs.foldl (fun u v => u.wrV d.toNat v.1 v.2.1) u)
    let s3 := if zero then putSlots s2 i.isl i.core (ps.map (fun x => (x.2.pa, 0))) else s2
    let s4 := storeUsed s3 i.isl i.ctx ((if zero then 16 else 8) * ps.length)
    (beginAccess (st (vs.any (fun v => v.2.2)) s4) .ld).retire) s

def execMfacc (d : BitVec 7) (t : BitVec 1) (k b : BitVec 6) (p : BitVec 3) (s : State) : Result := goOn (readSlots false d t k b p s)
def execMfaccz (d : BitVec 7) (t : BitVec 1) (k b : BitVec 6) (p : BitVec 3) (s : State) : Result := goOn (readSlots true d t k b p s)

/-- MTACC: codes 11 and 12 keep part of the slot. -/
def execMtacc (d : BitVec 7) (k b : BitVec 6) (p : BitVec 3) (s : State) : Result :=
  goOn (slotMember b p (k = 11 || k = 12) 2 State.retire (fun ps s1 =>
    let i := s1.cur.id
    let ws := ps.map (fun x => (x.2.pa, laneToSlot k.toNat (s1.cbSlot i.isl i.core x.2.pa).toNat (s1.cur.rdV d.toNat x.1)))
    (beginAccess (putSlots (storeUsed s1 i.isl i.ctx (8 * ws.length)) i.isl i.core ws) .st).retire) s)

end Sys2Proof.Machine
end

