-- ==== Sys2Proof/Machine/Move.lean ====
section
/-!
DEFINITION. WAIT, and the members that hand work to the Carter, wait on words, start tasks, arm counters and hold heat (majors 0x38 and 0x39;
R287-R298).
-/
namespace Sys2Proof.Machine

/-! ### WAIT (R287) -/

/-- A class is at its limit or below; a limit of 15 places no condition. -/
def underLimit (n : BitVec 4) (c : Nat) : Bool := n = 15 || decide (c ≤ n.toNat)

/-- The running team's pending deferred cause, which is taken first; else the meaning given (R153). -/
def deferredFirst (k : State → State) (s : State) : State :=
  match firstDeferred s.cur with
  | some d => takeDeferred s d
  | none => k s

def execWait (l s_ c t r : BitVec 4) (s : State) : Result :=
  goOn (deferredFirst (fun s =>
    let f := s.cur.fl
    if underLimit l f.ld && underLimit s_ f.st && underLimit c f.cp && underLimit t f.tl && underLimit r f.rm then (dropAhead s s.cur.mIsl s.cur.id.core).retire else stall s) s)

/-! ### CPOST (R114, R289) -/

/-- The posting tag of a team (R114). -/
def teamTag (t : Thread) : Word64 := BitVec.ofNat 64 (t.id.slot * 2 ^ 8 + t.id.team * 2 ^ 16)

/-- CPOST: the eight registers join the inbox, and the team's cp count rises. -/
def execCpost (a : BitVec 6) (s : State) : Result :=
  let t := s.cur
  let c := s.carter t.id.isl t.id.core
  goOn (if 64 ≤ c.inbox.length then stall s
    else
      let q := beginOp s .cp 1
      let m : Msg :=
        { words := (List.range 8).map (fun i => t.rdS (a.toNat + i)), tag := teamTag t, poster := t.id.uid, op := q.2, coach := t.id.coach,
          launch := t.id.launch, task := t.id.task, prio := t.id.prio, scope := 0, regs := [] }
      let c1 := q.1.carter t.id.isl t.id.core
      (q.1.setCarter { c1 with inbox := c1.inbox ++ [m] }).retire)

/-! ### Waits on words, timelines and counters (R290, R291) -/

/-- The running agent parks: a team with its continuation at the next instruction, a Carter in place (R73, R288). -/
def waitOn (s : State) (p : Park) : State :=
  match s.cur.id.kind with
  | .carter => park s p s.cur.sc.pc
  | .team => parkAfter s p
  | .hub => parkAfter s p

/-- The destination bytes of the operations of a timeline that a value covers (R107). -/
def coveredBytes (t : Timeline) (v : Word64) : List (Nat × Nat) := (t.dests.filter (fun d => decide (d.1 ≤ v.toNat))).map (fun d => d.2)

/-- The acquire of a word by the agent of a place (R103). -/
def acquireWord (s : State) (t : Thread) (va : Word64) (scope : Nat) : State := acquireObj s t.mIsl t.id.core t.id.ctx va.toNat scope

/-- The acquire of a timeline's covered operations, up to the value that its word holds (R107). -/
def acquireTimeline (s : State) (t : Thread) (num key scope : Nat) : State :=
  let tl := s.timeline t.id.isl t.id.ctx (timelineUnit t num) num
  acquirePhys s t.mIsl t.id.core t.id.ctx scope (coveredBytes tl (wordAt s key))

/-- The acquire of a counter's counted bytes (R108). -/
def acquireCounter (s : State) (t : Thread) (core idx scope : Nat) : State :=
  match s.counter? t.id.isl core idx with
  | none => s
  | some c => acquirePhys s t.mIsl t.id.core t.id.ctx scope (if c.store = 0 then c.regs else [])

/-- The word form: the word is read at its atomic unit, after the issuing core has dropped its copy of the line (R291). -/
def waitWord (m acq : Bool) (scope : Nat) (va v : Word64) (s : State) : State :=
  unitAccess s va.toNat 8 (fun s1 pa =>
    let t := s1.cur
    let s2 := l2Used (ownUse (dropLine s1 t.mIsl t.id.core (pa / 128)) t.mIsl t.id.core 0 pa 8) t.mIsl t.id.ctx 8
    if atomAhead s1 t.mIsl [pa / 128] then stall s1
    else if waitHolds m (BitVec.ofNat 64 (s2.physNat t.mIsl pa 8)) v then (if acq then acquireWord s2 t va scope else s2).retire
    else waitOn s2 (.word va (memKey t.mIsl pa) v m acq scope))

/-- A timeline number that an instruction may name (R123, R291). -/
def timelineOk (n : Nat) : Bool := decide (n ≤ 4) || (decide (8 ≤ n) && decide (n ≤ 11))

/-- The timeline form: ILLEGAL_INSN for a number that names none, the deferred causes for timeline 4, then the comparison (R291). -/
def waitTimeline (m acq : Bool) (scope : Nat) (num v : Word64) (s : State) : State :=
  let n := num.toNat
  let look := fun (s : State) =>
    match timelinePa s s.cur.id.isl s.cur.id.ctx (timelineUnit s.cur n) n with
    | none => regionLost s s.cur.id.isl s.cur.id.ctx
    | some pa =>
      let t := s.cur
      let key := memKey t.id.isl pa
      let s2 := readTimeline s n pa
      if atomAhead s t.mIsl [pa / 128] then stall s
      else if unitBad s t.mIsl t.id.core pa then takeTrap s (addrFx causeData (timelineAddr s n) 1 0)
      else if waitHolds m (wordAt s2 key) v then (if acq then acquireTimeline s2 t n key scope else s2).retire
      else waitOn s2 (.timeline n key v m acq scope)
  if !timelineOk n then trapPlain s causeIllegal else if n = 4 then deferredFirst look s else look s

/-- A counter word that R294 rejects. -/
def counterBad (w : Word64) : Bool :=
  w &&& 0xFFFFFFFFFFFF7800 ≠ 0 || (!w.getLsbD 15 && decide (31 < w.toNat))

/-- The core and the index of a counter word: core 128 for a global counter. -/
def counterAt (t : Thread) (w : Word64) : Nat × Nat := (if w.getLsbD 15 then 128 else t.id.core, w.toNat % 2048)

/-- The record of a counter; one that was never armed counts nothing. -/
def counterOf (s : State) (isl core idx : Nat) : Counter :=
  (s.counter? isl core idx).getD
    { isl := isl, core := core, idx := idx, ctx := 0, owner := none, launch := 0, armed := false, fired := false, counting := false, count := 0,
      overrun := 0, total := 0, store := 0, regs := [], action := 0, scope := 0, arg := 0, val := 0 }

/-- The counter form: the condition is the fired bit (R290). -/
def waitCounter (acq : Bool) (scope : Nat) (w : Word64) (s : State) : State :=
  if counterBad w then trapPlain s causeIllegal
  else
    let t := s.cur
    let c := counterAt t w
    if (counterOf s t.id.isl c.1 c.2).fired then (if acq then acquireCounter s t c.1 c.2 scope else s).retire
    else waitOn s (.counter (decide (c.1 = 128)) c.2 acq scope)

/-- A wait by its form; one that acquires does so only after every earlier access of its agent (R103). -/
def waitMember (m : Bool) (a b : BitVec 6) (f c : BitVec 2) (o : BitVec 1) (s : State) : State :=
  let acq := o = 1
  if acq && !s.cur.accessesDone then stall s
  else if f = 0 then waitWord m acq c.toNat (s.rdS a) (s.rdS b) s
  else if f = 1 then waitTimeline m acq c.toNat (s.rdS a) (s.rdS b) s
  else waitCounter acq c.toNat (s.rdS a) s

def execWaitge (a b : BitVec 6) (f c : BitVec 2) (o : BitVec 1) (s : State) : Result := goOn (waitMember false a b f c o s)
def execWaitgec (a b : BitVec 6) (f c : BitVec 2) (o : BitVec 1) (s : State) : Result := goOn (waitMember true a b f c o s)

/-! ### LAUNCH and LAUNCHNB (R33, R34, R293) -/

/-- The entries of a core's pending-launch queue. -/
def launchEnts (s : State) (isl core : Nat) : List LaunchEnt := s.launchQ.filter (fun e => e.isl = isl && e.core = core)

/-- An address joins the pending-launch queue of the running team's core. -/
def appendLaunch (s : State) (a : Word64) : State :=
  let t := s.cur
  let e : LaunchEnt :=
    { isl := t.id.isl, core := t.id.core, ctx := t.id.ctx, addr := a, team := t.id, subt := t.subt, xpc := t.sc.pc, insn := t.sc.insn }
  ({ s with launchQ := s.launchQ ++ [e] }).oweOnce (.pendingLaunchForward t.id.isl t.id.core)

/-- A launch: the alignment, the L1 action of FENCE.rel.i, then what a queue with room or a full queue asks for. -/
def launchWith (a : Word64) (room full : State → State) (s : State) : State :=
  let t := s.cur
  if a.toNat % 64 ≠ 0 then takeTrap s (addrFx causeMisalign a 0xFF 0xFF)
  else if !t.accessesDone then stall s
  else
    let s1 := releaseAll s t.mIsl t.id.core t.id.ctx scopeI
    if (launchEnts s1 t.id.isl t.id.core).length < 4 then room (appendLaunch s1 a) else full s1

def execLaunch (a : BitVec 6) (s : State) : Result := goOn (launchWith (s.rdS a) State.retire (fun s => parkRetry s .launch) s)
def execLaunchnb (d a : BitVec 6) (s : State) : Result :=
  goOn (launchWith (s.rdS a) (fun s => (s.wrS d 0).retire) (fun s => (s.wrS d 1).retire) s)

/-! ### Arrival counters (R126, R294-R297) -/

/-- The fields of a descriptor (R126). -/
structure CntDesc where
  store : Nat
  action : Nat
  scope : Nat
  base : Nat
  len : Nat
  total : Nat
  arg : Nat
  val : Nat
  reserved : Bool
  deriving DecidableEq, Repr

/-- A descriptor read. -/
def parseDesc (bs : List Byte) : CntDesc :=
  let n := leNat bs
  { store := bitsOf n 7 0, action := bitsOf n 15 8, scope := bitsOf n 23 16, base := bitsOf n 127 64, len := bitsOf n 191 128,
    total := bitsOf n 247 192, arg := bitsOf n 319 256, val := bitsOf n 383 320
    reserved := bitsOf n 511 384 ≠ 0 || bitsOf n 255 248 ≠ 0 || bitsOf n 63 24 ≠ 0 }

/-- The arming coach of the running agent (R126): a team's own, or that of the Carter's last team-sourced tag. Once that coach has ended the
Carter has none (R78; DESIGN CHOICE, log 40). -/
def armingCoach (s : State) : Option Coach :=
  match s.cur.id.kind with
  | .team => s.coach? s.cur.id.coach
  | .hub => none
  | .carter => ((s.carter s.cur.id.isl s.cur.id.core).lastTeam).bind (fun m => (s.coach? m.coach).filter (coachLives s))

/-- The allocation of a coach in a store, in KiB. -/
def Coach.alloc (c : Coach) (space : Nat) : Nat × Nat := if space = 1 then c.sp else if space = 2 then c.ab else if space = 3 then c.wb else c.cb

/-- The bytes of a store that a coach's range of units names: units of 1 byte, or of a slot of 8 bytes in the CB (R77, R126). -/
def storeUnits (space : Nat) : Nat := if space = 4 then 8 else 1

/-- A descriptor is INVALID (R295); `g` is set for a global counter. -/
def descBad (d : CntDesc) (g : Bool) (coach : Option Coach) : Bool :=
  d.reserved || decide (4 < d.store) || decide (d.scope ≠ 1 ∧ d.scope ≠ 2) || decide (5 < d.action) || (g != decide (d.store = 0))
  || decide (d.len = 0) || decide (2 ^ 48 < d.len)
  || (!g && (match coach with
    | none => true
    | some c => decide (1024 * (c.alloc d.store).2 < storeUnits d.store * (d.base + d.len))))
  || (d.action = 1 && decide (d.arg % 8 ≠ 0)) || (d.action = 3 && decide (d.arg % 64 ≠ 0)) || (d.action = 2 && decide (256 ≤ d.arg))
  || (d.action = 4 && decide (128 ≤ d.arg)) || (g && decide (2 ^ 64 < d.base + d.len))

/-- The physical pieces of a virtual range, page by page; none where a page is not mapped for the context (R126, R295). -/
def physPieces (s : State) (isl ctx : Nat) (stop : Nat) : Nat → Nat → Option (List (Nat × Nat))
  | 0, _ => some []
  | n + 1, va =>
    if stop ≤ va then some []
    else if ctx = 0 then (if stop ≤ Config.islandBytes then some [(va, stop - va)] else none)
    else match s.ctx? isl ctx with
      | none => none
      | some c => match walkCtx s c va with
        | .leaf pb sz vb _ _ => (physPieces s isl ctx stop n (vb + sz)).map (fun r => (pb + (va - vb), min stop (vb + sz) - va) :: r)
        | .absent => none
        | .notPresent => none
        | .malformed => none
        | .bad => none

/-- The region of a descriptor in physical bytes. -/
def descRegs (s : State) (t : Thread) (d : CntDesc) (coach : Option Coach) : Option (List (Nat × Nat)) :=
  if d.store = 0 then physPieces s t.id.isl t.id.ctx (d.base + d.len) (d.len / 4096 + 2) d.base
  else some [(1024 * ((coach.map (fun c => (c.alloc d.store).1)).getD 0) + storeUnits d.store * d.base, storeUnits d.store * d.len)]

/-- A live coach other than the arming one owns a counter (R129). -/
def ownedByOther (s : State) (c : Counter) (coach : Option Coach) : Bool :=
  c.core ≠ 128 && (match c.owner with
    | none => false
    | some u => coach.map (fun x => x.uid) ≠ some u && s.coaches.any (fun x => x.uid = u && coachLives s x))

/-- The status of ARMCNT, and the state after arming (R295). A counter whose owner has ended stays armed, and BUSY, until DISARM (DESIGN CHOICE,
log 40). -/
def armCounter (s : State) (d : CntDesc) (w : Word64) : State × Nat :=
  let t := s.cur
  let coach := armingCoach s
  if counterBad w then (s, 3)
  else if descBad d (w.getLsbD 15) coach then (s, 2)
  else
    let at_ := counterAt t w
    let c := counterOf s t.id.isl at_.1 at_.2
    if c.armed || ownedByOther s c coach then (s, 1)
    else match descRegs s t d coach with
      | none => (s, 4)
      | some regs =>
        let launch := match t.id.kind with
          | .team => t.id.launch
          | .hub => 0
          | .carter => (((s.carter t.id.isl t.id.core).lastTeam).map (fun m => m.launch)).getD 0
        let n : Counter :=
          { isl := t.id.isl, core := at_.1, idx := at_.2, ctx := t.id.ctx, owner := if at_.1 = 128 then none else coach.map (fun x => x.uid),
            launch := launch, armed := true, fired := false, counting := false, count := 0, overrun := 0, total := d.total, store := d.store,
            regs := regs, action := d.action, scope := d.scope, arg := BitVec.ofNat 64 d.arg, val := BitVec.ofNat 64 d.val }
        (if d.total = 0 then counterFire s n else s.setCounter n, 0)

/-- ARMCNT: the descriptor's own read comes first, after every earlier access of the issuer (R295). -/
def execArmcnt (d a b : BitVec 6) (s : State) : Result :=
  goOn (if !s.cur.accessesDone then stall s
    else
      let va := s.rdS a
      scalarAccess s va.toNat 64 .read 1 (fun s1 pa stream =>
        let t := s1.cur
        let r := gRead s1 t.mIsl t.id.core t.id.ctx va.toNat pa 64 (typePolicy stream)
        let q := armCounter r.1 (parseDesc r.2) (s.rdS b)
        (q.1.wrS d (BitVec.ofNat 64 q.2)).retire))

/-- DISARM (R296). -/
def execDisarm (d b : BitVec 6) (s : State) : Result :=
  let w := s.rdS b
  goOn (if counterBad w then (s.wrS d 3).retire
    else
      let at_ := counterAt s.cur w
      match s.counter? s.cur.id.isl at_.1 at_.2 with
      | none => (s.wrS d 1).retire
      | some c => ((s.setCounter { c with armed := false, counting := false }).wrS d (if c.armed then 0 else 1)).retire)

/-- CNTRD: the figure that k selects (R297). -/
def execCntrd (d k b : BitVec 6) (s : State) : Result :=
  let w := s.rdS b
  let at_ := counterAt s.cur w
  let c := counterOf s s.cur.id.isl at_.1 at_.2
  let v : Word64 :=
    if counterBad w then BitVec.allOnes 64
    else if k = 0 then BitVec.ofNat 64 c.count
    else if k = 1 then BitVec.ofNat 64 c.overrun
    else if k = 2 then BitVec.ofNat 64 (b2n c.armed + 2 * b2n c.fired + 4 * b2n c.counting + 2 ^ 8 * c.action + 2 ^ 16 * c.scope)
    else BitVec.ofNat 64 c.total
  goOn ((s.wrS d v).retire)

/-! ### HEAT and COOL (R298) -/

/-- The priority of an agent's requests for heat: of its task, or of the task of the Carter's last team-sourced tag, 3 before it has one. -/
def agentPrio (s : State) (t : Thread) : Nat :=
  match t.id.kind with
  | .team => t.id.prio
  | .hub => 3
  | .carter => (((s.carter t.id.isl t.id.core).lastTeam).map (fun m => m.prio)).getD 3

/-- That of the running agent. -/
def heatPrio (s : State) : Nat := agentPrio s s.cur

/-- The agent's wait for heat, set. -/
def State.heatWaits (s : State) (w : Option (Nat × Nat)) : State := s.updCur (fun t => { t with an := { t.an with heatWait := w } })

/-- HEAT: a request once made stalls the agent until its grant. -/
def execHeat (d a : BitVec 6) (s : State) : Result :=
  let n := (s.rdS a).toNat
  let held := s.cur.an.heat
  goOn (match s.cur.an.heatWait with
    | some (_, 0) => stall s
    | some (_, _ + 1) => ((s.heatWaits none).wrS d (BitVec.ofNat 64 held)).retire
    | none =>
      if n = 0 then (s.wrS d (BitVec.ofNat 64 held)).retire
      else if 255 < held + n ∨ (s.island s.cur.id.isl).budget < n then (s.wrS d (BitVec.allOnes 64)).retire
      else stall (heatRequest (s.heatWaits (some (n, 0))) s.cur.id.isl { kind := 3, who := s.cur.id.uid, units := n, prio := heatPrio s }))

/-- COOL. -/
def execCool (a : BitVec 6) (s : State) : Result :=
  let n := min (s.rdS a).toNat s.cur.an.heat
  goOn ((heatReturn s s.cur.id.isl n).updCur (fun t => { t with an := { t.an with heat := t.an.heat - n } })).retire

end Sys2Proof.Machine
end

