-- ==== Sys2Proof/Machine/Carter.lean ====
section
/-!
DEFINITION. The Carter's own members (major 0x3A; R299-R303), waybills and operand streams (R116-R122, R428), multicast fill (R85), and the
asynchronous faults of waybills (R119, R189).
-/
namespace Sys2Proof.Machine

/-! ### Naming an island (R162, R163) -/

/-- A virtual island is in service (R392). -/
def islandServes (s : State) (v : Nat) : Bool := s.panel.topo.any (fun e => decide (e.site < 48) && e.state = 1 && e.visl = v)

/-- An island word names an island that the context may reach (R163): virtual island in bits 7:0, panel number in bits 15:8. The spec does not say in
which partition an island of another panel lies: the context's own partition is taken for it (DESIGN CHOICE, log 40). -/
def islandWordOk (s : State) (isl ctx : Nat) (w : Nat) : Bool :=
  let v := w % 256
  let part := match s.ctx? isl ctx with
    | none => isl = hubIsl || ctx = 0
    | some c => c.islmask.getLsbD v
  decide (w < 2 ^ 16) && decide (v < Config.nisl) && part
    && (if w / 256 = Config.panel then islandServes s v else s.panel.edges.contains (w / 256))

/-! ### Bytes that an engine moves -/

/-- n bytes of global memory read through a core's L1 for an engine (R300). -/
def engBytes (isl core ctx : Nat) (s : State) (a : Int) : Nat → State × Option Probe × List Byte
  | 0 => (s, none, [])
  | n + 1 =>
    let va := BitVec.ofInt 64 a
    if a < 0 ∨ 2 ^ 64 ≤ a then (s, some (.bad causeUnmapped va), [])
    else match translate s isl core ctx va.toNat .read with
      | (s1, .fault c) => (s1, some (.bad c va), [])
      | (s1, .notPresent) => (s1, some (.page va), [])
      | (s1, .ok pa mt) =>
        if gBad s1 isl core pa 1 then (s1, some (.bad causeData va), [])
        else
          let q := l1Fill s1 isl core ctx (pa / 128) (va.toNat / 128) 0 (typePolicy (mt = 1))
          let r := engBytes isl core ctx q.1 (a + 1) n
          (r.1, r.2.1, lineByte q.2.data (pa % 128) :: r.2.2)

/-- Where n bytes of global memory lie for an engine's write. -/
def engTargets (isl core ctx : Nat) (s : State) (a : Int) : Nat → State × Option Probe × List Nat
  | 0 => (s, none, [])
  | n + 1 =>
    let va := BitVec.ofInt 64 a
    if a < 0 ∨ 2 ^ 64 ≤ a then (s, some (.bad causeUnmapped va), [])
    else match translate s isl core ctx va.toNat .write with
      | (s1, .fault c) => (s1, some (.bad c va), [])
      | (s1, .notPresent) => (s1, some (.page va), [])
      | (s1, .ok pa _) =>
        let r := engTargets isl core ctx s1 (a + 1) n
        (r.1, r.2.1, pa :: r.2.2)

/-- A byte written into a core's copy of its line, which stays as clean or dirty as it was (R300). -/
def engUpdate (isl core : Nat) (s : State) (c : Nat × Byte) : State :=
  match l1Find s isl core (c.1 / 128) with
  | none => s
  | some l => l1Put s { l with data := lineSet l.data (c.1 % 128) c.2, marked := maskSet l.marked (c.1 % 128) false }

/-- Cells written to the memory-side die and into the core's L1 copies (R300). -/
def engWrite (isl core ctx : Nat) (s : State) (cs : List (Nat × Byte)) : State :=
  l2Put (cs.foldl (engUpdate isl core) (l2Used s isl ctx cs.length)) isl cs

/-- A reduction's new element (R116): INT32 add, FP32 add, BF16 add. -/
def reduceNew (redop : Nat) (old new : Nat) : Nat :=
  if redop = 1 then (old + new) % 2 ^ 32 else if redop = 2 then (fSum fp32 rne old new).1
  else (fSum bf16 rne (old % 2 ^ 16) (new % 2 ^ 16)).1

/-- Bytes of host memory (R80). -/
def hostBytes (s : State) (a : Int) (n : Nat) : List Byte := getBytes s.hostMem (BitVec.ofInt 64 a).toNat n

/-- A range of the arming coach's allocation: bytes of SP, AB or WB, slots of CB (R78, R428). -/
def storeAt (s : State) (w : Waybill) (space : Nat) (a : Int) (n : Nat) : Probe :=
  let r := ((wbCoach s w).map (fun c => c.alloc space)).getD (0, 0)
  let lim := 1024 * r.2 / storeUnits space
  if 0 ≤ a ∧ a + n ≤ (lim : Int) then .ok (1024 * r.1 + storeUnits space * a.toNat) 0
  else .bad causeUnmapped (BitVec.ofInt 64 (if a < 0 then a else max a lim))

/-- n units read from an end of a waybill: bytes, or slots of 8 bytes for CB. -/
def wbRead (w : Waybill) (space : Nat) (s : State) (a : Int) (n : Nat) : State × Option Probe × List Byte :=
  if space = 0 then engBytes w.isl w.core w.ctx s a n
  else if space = 6 then (s, none, hostBytes s a n)
  else match storeAt s w space a n with
    | .ok pa _ =>
      let k := storeKey w.isl w.core space pa
      let m := storeUnits space * n
      if (s.island w.isl).marks.any (fun x => decide (k ≤ x) && decide (x < k + m)) then (s, some (.bad causeData (BitVec.ofInt 64 a)), [])
      else (storeUsed s w.isl w.ctx m, none, s.storeBytes w.isl w.core space pa m)
    | .bad c v => (s, some (.bad c v), [])
    | .page v => (s, some (.page v), [])

/-- An element written at a local end of a waybill, with its reduction at the atomic unit, before which the core writes back and drops its
copy of the line (R82, R118, R300). The bytes of a global destination are added to the operation's (R107). -/
def wbWrite (w : Waybill) (f : WbForm) (s : State) (a : Int) (bs : List Byte) : State × Option Probe :=
  if f.dstsp = 0 then
    let q := engTargets w.isl w.core w.ctx s a bs.length
    match q.2.1 with
    | some p => (q.1, some p)
    | none =>
      let tl := fun (s : State) =>
        let t := s.timeline w.isl w.ctx w.core f.tlx
        s.setTimeline { t with dests := q.2.2.map (fun pa => (w.opn, pa, 1)) ++ t.dests }
      if f.redop = 0 then (tl (engWrite w.isl w.core w.ctx q.1 (q.2.2.zip bs)), none)
      else
        let s1 := q.2.2.foldl (fun s pa => dropLine s w.isl w.core (pa / 128)) q.1
        if q.2.2.any (fun pa => lineBad s1 w.isl (pa / 128)) then (s1, some (.bad causeData (BitVec.ofInt 64 a)))
        else
          let old := leNat (q.2.2.map (fun pa => s1.physGet w.isl pa))
          (tl (l2Put (l2Used s1 w.isl w.ctx (2 * bs.length)) w.isl (q.2.2.zip (leBytes bs.length (reduceNew f.redop old (leNat bs))))), none)
  else if f.dstsp = 6 then (hostPut s (BitVec.ofInt 64 a).toNat bs, none)
  else match storeAt s w f.dstsp a bs.length with
    | .ok pa _ => (storePut (storeUsed s w.isl w.ctx bs.length) w.isl w.core f.dstsp (cellsFrom pa bs), none)
    | .bad c v => (s, some (.bad c v))
    | .page v => (s, some (.page v))

/-- An element converted (R118): from a CB slot by its MFACC code, else by the code of CONV, of which SAT acts on 2 to 4. -/
def wbConvert (f : WbForm) (bs : List Byte) : List Byte :=
  let x := leNat bs
  let sat := f.sat = 1
  if f.srcsp = 4 then leBytes ((f.sizes.map (fun z => z.2)).getD 4) (slotToLane f.conv (x % 2 ^ 56)).1.toNat
  else if f.conv = 1 then leBytes 2 (narrow bf16 rne false (fp32.decode x)).1
  else if f.conv = 2 then leBytes 2 (narrow fp16 rne sat (fp32.decode x)).1
  else if f.conv = 3 then leBytes 1 (narrow e4m3 rne sat (fp32.decode x)).1
  else if f.conv = 4 then leBytes 1 (narrow e5m2 rne sat (fp32.decode x)).1
  else if f.conv = 5 then leBytes 4 (narrow fp32 rne false (bf16.decode x)).1
  else if f.conv = 6 then leBytes 4 (narrow fp32 rne false (fp16.decode x)).1
  else bs

/-! ### Elements -/

/-- How many elements a waybill copies. -/
def WbForm.count (f : WbForm) : Nat := f.n0 * f.n1 * f.n2

/-- The address of element k at an end: base, strides, and the step of dimension 0 (R118). -/
def elemAt (f : WbForm) (base s1 s2 step k : Nat) : Int :=
  let i0 := k % f.n0
  let i1 := k / f.n0 % f.n1
  let i2 := k / (f.n0 * f.n1)
  (base : Int) + i2 * sextNat s2 32 + i1 * sextNat s1 32 + i0 * step

/-- The source address of element k; a CB source steps in slots (R428). -/
def srcAt (f : WbForm) (k : Nat) : Int :=
  elemAt f f.src f.ss1 f.ss2 (if f.srcsp = 4 then 1 else ((f.sizes.map (fun z => z.1)).getD 1)) k

/-- The destination address of element k. -/
def dstAt (f : WbForm) (k : Nat) : Int := elemAt f f.dst f.ds1 f.ds2 ((f.sizes.map (fun z => z.2)).getD 1) k

/-- The bytes of a destination element. -/
def WbForm.de (f : WbForm) : Nat := (f.sizes.map (fun z => z.2)).getD 1

/-- A source line of a multicast as its core's L1 or the L2 holds it, with the bytes of it that are uncorrectable (R85, R300, R420). -/
def mcastLine (s : State) (w : Waybill) (pa va : Nat) (stream : Bool) : State × BitVec 1024 × BitVec 128 :=
  let bad := BitVec.ofNat 128 (maskOf ((List.range 128).filter (fun i => gBad s w.isl w.core (pa / 128 * 128 + i) 1)))
  let q := l1Fill s w.isl w.core w.ctx (pa / 128) (va / 128) 0 (typePolicy stream)
  (q.1, q.2.data, bad)

/-- A source byte of a multicast: each line is read once, when its first byte is wanted (R85). -/
def mcastByte (w : Waybill) (s : State) (a : Int) : State × Option Probe × List Byte :=
  let va := BitVec.ofInt 64 a
  let take := fun (s : State) (d : BitVec 1024) (bad : BitVec 128) =>
    if bad.getLsbD (va.toNat % 128) then (s, some (.bad causeData va), []) else (s, none, [lineByte d (va.toNat % 128)])
  if a < 0 ∨ 2 ^ 64 ≤ a then (s, some (.bad causeUnmapped va), [])
  else match w.lines.find? (fun l => l.1 = va.toNat / 128) with
    | some l => take s l.2.1 l.2.2
    | none => match translate s w.isl w.core w.ctx va.toNat .read with
      | (s1, .fault c) => (s1, some (.bad c va), [])
      | (s1, .notPresent) => (s1, some (.page va), [])
      | (s1, .ok pa mt) =>
        let q := mcastLine s1 w pa va.toNat (decide (mt = 1))
        take (q.1.setWaybill { w with lines := (va.toNat / 128, q.2.1, q.2.2) :: w.lines }) q.2.1 q.2.2

/-- The bytes of element k at the source: for a fill, the pattern at its offset from DST (R117). -/
def wbSource (w : Waybill) (f : WbForm) (k : Nat) (s : State) : State × Option Probe × List Byte :=
  if f.kind = 3 then (s, none, [BitVec.ofNat 8 (f.src / 2 ^ (8 * ((dstAt f k - f.dst) % 8).toNat))])
  else if f.kind = 4 then mcastByte w s (srcAt f k)
  else wbRead w f.srcsp s (srcAt f k) (if f.srcsp = 4 then 1 else (f.sizes.map (fun z => z.1)).getD 1)

/-! ### Faults of waybills (R119, R189) -/

/-- A waybill stops at a fault; while its Carter runs its handler or is saved, the fault is held (R190). -/
def wbFault (s : State) (u : Nat) (cause : BitVec 16) (a : Word64) (space : Nat) : State :=
  match s.waybill? u with
  | none => s
  | some w =>
    let s1 := s.setWaybill { w with fault := some cause, faultAddr := a, faultSpace := space, faultTime := s.time }
    match carterThread s1 w.isl w.core w.ctx with
    | none => abandonWaybill s1 u
    | some t =>
      if t.tr.handler || t.sch.life = .swapped then
        let c := s1.carter w.isl w.core
        s1.setCarter { c with heldFaults := c.heldFaults ++ [u] }
      else takeWbFault s1 u

/-- What a failed access does to a waybill: a fault, or a pause until the page is present (R94, R119). -/
def wbStop (s : State) (w : Waybill) (space : Nat) : Probe → State
  | .bad c v => wbFault s w.uid c v space
  | .page v => postPageFault (s.setWaybill { w with paused := true, faultAddr := v }) w.isl w.ctx v 7
  | .ok _ _ => s

/-! ### Timelines of the Carter (R122) -/

/-- A Carter timeline looked at: raised to the largest n such that operations 1 to n have completed (R107, R122). -/
def carterTimeline (s : State) (isl ctx core tl : Nat) : State :=
  let t := s.timeline isl ctx core tl
  let opens := (s.waybills.filter (fun w => w.isl = isl && w.ctx = ctx && w.core = core && w.tl = tl)).map (fun w => w.opn)
  let n := raisedTo t.given opens
  if t.raised < n then timelineRaise s t n else s

/-- The number of the operation that a timeline forms next. -/
def nextOp (s : State) (isl ctx core tl : Nat) : Nat := (s.timeline isl ctx core tl).given + 1

/-- An operation closed. -/
def closeOp (s : State) (isl ctx core tl : Nat) : State :=
  let t := s.timeline isl ctx core tl
  s.setTimeline { t with given := t.given + 1 }

/-! ### The order of remote operations (R111, R112, R324) -/

/-- The first element that has neither landed nor been sent. -/
def nextElem (w : Waybill) (f : WbForm) : Option Nat :=
  (List.range f.count).find? (fun k => !w.landed.contains k && !w.sent.contains k)

/-- A waybill with a remote end has elements that have not left yet. -/
def Waybill.unsent (w : Waybill) : Bool := (parseWb w.raw).remote && w.pushedTo ≠ 2 ^ 32 && (nextElem w (parseWb w.raw)).isSome

/-- A remote operation belongs to an agent: it issued it, or after a SPLIT it counts it. -/
def Thread.sent (t : Thread) (g : Frame) : Bool := g.agent = t.id.uid || t.holds g.op

/-- The running agent may issue a remote operation: every operation before its last RFENCE has been performed, and no acquiring RATOM of
it waits for its old value (R112, R324). -/
def remoteGate (s : State) : Bool :=
  let t := s.cur
  !s.frames.any (fun g => t.sent g && (g.acq || (g.phase = 0 && decide (g.seq < t.fl.rfence))))
    && !(t.id.kind = .carter && s.waybills.any (fun w =>
      w.isl = t.id.isl && w.core = t.id.core && w.ctx = t.id.ctx && decide (w.seq < t.fl.rfence) && w.unsent))

/-! ### Starting a waybill (R120, R121, R299, R300) -/

/-- A waybill with its heat, or with none to wait for, starts: a stream's header is pushed, or its first element is owed. -/
def beginWaybill (s : State) (w : Waybill) : State :=
  let f := parseWb w.raw
  if f.isStream then
    let x : Stream :=
      { wb := w.uid, isl := w.isl, core := w.core, isA := f.kind = 1, smn := f.smn, sk := f.sk, sfmt := f.sfmt, scl := f.scl = 1,
        chain := none, blocks := [], next := 0 }
    ({ s with streams := s.streams ++ [x] }).oweOnce (.chainDispatch w.isl w.core)
  else s.owe (.waybillElementLand w.uid 0)

/-- A waybill is valid for the running Carter (R119), of one of the kinds that the member accepts (R299). -/
def wbOk (s : State) (kinds : List Nat) (f : WbForm) : Bool :=
  let i := s.cur.id
  f.fieldsOk && kinds.contains f.kind && (!f.typed || (armingCoach s).isSome)
    && (!f.remote || islandWordOk s i.isl i.ctx (f.risl + 256 * f.rpan))

/-- The streams of a core's FIFO that are not yet consumed, those that wait for heat among them (R299). -/
def streamsOn (s : State) (isl core : Nat) (isA : Bool) : Nat :=
  (s.waybills.filter (fun w => w.isl = isl && w.core = core && (parseWb w.raw).kind = (if isA then 1 else 2))).length

/-- A waybill started by the running Carter, and the number written to sd. -/
def startWaybill (kinds : List Nat) (d : BitVec 6) (raw : List Word64) (s : State) : State :=
  let t := s.cur
  let f := parseWb raw
  if !wbOk s kinds f then trapPlain s causeWaybill
  else if 32 ≤ (s.waybills.filter (fun w => w.isl = t.id.isl && w.core = t.id.core)).length then stall s
  else if f.isStream && decide (4 ≤ streamsOn s t.id.isl t.id.core (f.kind = 1)) then stall s
  else if f.remote && !remoteGate s then stall s
  else
    let q := s.take
    let n := nextOp s t.id.isl t.id.ctx t.id.core f.tlx
    let m := (s.carter t.id.isl t.id.core).lastTeam
    let w : Waybill :=
      { uid := q.1, seq := q.1, isl := t.id.isl, core := t.id.core, ctx := t.id.ctx, raw := raw, coach := (armingCoach s).map (fun c => c.uid),
        launch := (m.map (fun m => m.launch)).getD 0, task := (m.map (fun m => m.task)).getD 0, tl := f.tlx, opn := n,
        needHeat := decide (2 ^ 22 < f.bytes), heatHeld := false, landed := [], bytes := 0, sent := [], pushedTo := 0, fault := none,
        faultAddr := 0, faultSpace := 0, faultTime := 0, lines := [], paused := false, xpc := t.sc.pc, insn := t.sc.insn }
    let s1 := { q.2 with waybills := q.2.waybills ++ [w] }
    let s2 := if f.tlinc = 1 then closeOp s1 t.id.isl t.id.ctx t.id.core f.tlx else s1
    let s3 := if w.needHeat then heatRequest s2 t.id.isl { kind := 1, who := w.uid, units := 1, prio := heatPrio s } else beginWaybill s2 w
    (s3.wrS d (if f.tlinc = 1 then BitVec.ofNat 64 n else 0)).retire

/-- A waybill read from global memory, after every earlier access of the Carter (R299, R300). -/
def startFrom (kinds : List Nat) (d a : BitVec 6) (s : State) : State :=
  if !s.cur.accessesDone then stall s
  else
    let va := s.rdS a
    scalarAccess s va.toNat 64 .read 1 (fun s1 pa stream =>
      let t := s1.cur
      let r := gRead s1 t.mIsl t.id.core t.id.ctx va.toNat pa 64 (typePolicy stream)
      startWaybill kinds d ((List.range 8).map (fun i => BitVec.ofNat 64 (leNat ((r.2.drop (8 * i)).take 8)))) r.1)

def execCwbWaybill (d a : BitVec 6) (s : State) : Result := goOn (startFrom [0, 3, 4] d a s)
def execCstra (d a : BitVec 6) (s : State) : Result := goOn (startFrom [1] d a s)
def execCstrb (d a : BitVec 6) (s : State) : Result := goOn (startFrom [2] d a s)
def execCwbr (d a : BitVec 6) (s : State) : Result :=
  goOn (if !s.cur.accessesDone then stall s
    else startWaybill [0, 3, 4] d ((List.range 8).map (fun i => s.cur.rdS (a.toNat + i))) s)

/-! ### The inbox (R114, R301, R303) -/

/-- The accesses of a message's poster that precede its CPOST have completed (R106). -/
def posterDone (s : State) (m : Msg) : Bool :=
  m.poster = 0 || s.threads.all (fun t => !t.holds m.op || t.fl.ops.all (fun o => decide (m.op ≤ o.id) || !(o.cls = .ld || o.cls = .st)))

/-- A Carter's message that waits for room in an inbox is looked at. -/
def inboxRoom (s : State) (isl core : Nat) : State :=
  if s.waitMsgs.any (fun w => w.isl = isl && w.core = core) then s.oweOnce (.counterCarterMessage isl core) else s

def execCinbox (d : BitVec 6) (s : State) : Result :=
  let t := s.cur
  let c := s.carter t.id.isl t.id.core
  goOn (if 64 ≤ c.pending.length then trapPlain s causeIllegal
    else match c.inbox with
      | [] => stall s
      | m :: r =>
        if !posterDone s m then stall s
        else
          let s1 := acquirePhys s t.mIsl t.id.core t.id.ctx m.scope m.regs
          let c1 := { s1.carter t.id.isl t.id.core with
            inbox := r, pending := c.pending ++ [m], last := some m, lastTeam := if m.poster = 0 then c.lastTeam else some m }
          let s2 := (s1.setCarter c1).updCur (fun u => (List.range 8).foldl (fun u i => u.wrS (d.toNat + i) (m.words.getD i 0)) u)
          inboxRoom s2.retire t.id.isl t.id.core)

def execCdone (s : State) : Result :=
  let t := s.cur
  let c := s.carter t.id.isl t.id.core
  goOn (match c.pending with
    | [] => s.retire
    | m :: r =>
      let s1 := s.setCarter { c with pending := r }
      (if m.poster = 0 then s1 else opPart s1 m.op).retire)

/-- CTLADV closes an operation with no further waybill (R302). -/
def execCtladv (d : BitVec 6) (t : BitVec 2) (s : State) : Result :=
  let i := s.cur.id
  let n := nextOp s i.isl i.ctx i.core t.toNat
  goOn ((carterTimeline (closeOp s i.isl i.ctx i.core t.toNat) i.isl i.ctx i.core t.toNat).wrS d (BitVec.ofNat 64 n)).retire

/-- CWAITQ: the figure that k selects (R303). -/
def execCwaitq (d k : BitVec 6) (s : State) : Result :=
  let i := s.cur.id
  let c := s.carter i.isl i.core
  let v : Word64 :=
    if k = 0 ∨ k = 1 then BitVec.ofNat 64 c.inbox.length
    else if k = 2 then (c.last.map (fun m => m.tag)).getD 0
    else if k = 3 then BitVec.ofNat 64 c.pending.length
    else BitVec.ofNat 64 (s.waybills.filter (fun w => w.isl = i.isl && w.core = i.core)).length
  goOn (if k = 1 && c.inbox.isEmpty then stall s else (s.wrS d v).retire)

/-! ### Remote frames -/

/-- A frame leaves for its target (R166, R169): the target's ingress takes it in a step of its own. -/
def sendFrame (s : State) (f : Frame) : State := ({ s with frames := s.frames ++ [f] }).owe (.frameReceive f.uid)

/-- Bytes of an operation that one frame carries (R172). -/
def framePayload : Nat := 16 + Config.frameBytes % 489

/-- The frame of some elements of a waybill with a remote end (R169, R172). -/
def wbFrame (s : State) (w : Waybill) (f : WbForm) (uid : Nat) (ks : List Nat) (bs : List Byte) : Frame :=
  let put := f.dstsp = 5
  { uid := uid, seq := w.seq, isl := w.isl, core := w.core, ctx := w.ctx
    agent := ((carterThread s w.isl w.core w.ctx).map (fun t => t.id.uid)).getD 0, op := 0, lane := 0, dst := 0, panel := f.rpan, tgt := f.risl
    va := 0, kind := if put then (if f.redop = 0 then 1 else 2) else 0
    size := if put then f.de else (f.sizes.map (fun z => z.1)).getD 1, aop := 0, redop := f.redop, data := bs, cmp := 0, ord := f.ord = 1
    rel := false, acq := false, wb := some w.uid, elem := 0, parts := ks.map (fun k => (k, BitVec.ofInt 64 (if put then dstAt f k else srcAt f k)))
    die := 0, phase := 0, sentOn := none, relay := false, admitted := false, home := Config.panel, retried := 0, sentAt := s.cycle, launch := 0, xpc := w.xpc, insn := w.insn }

/-! ### Landing (R118, WAYBILL_ELEMENT_LAND) -/

/-- An element has landed: its bytes are counted, and the next is owed, or the completion. -/
def elemLanded (s : State) (u k : Nat) : State :=
  match s.waybill? u with
  | none => s
  | some w =>
    let f := parseWb w.raw
    let w1 := { w with landed := k :: w.landed, bytes := w.bytes + f.de, sent := w.sent.filter (fun x => x ≠ k) }
    let s1 := s.setWaybill w1
    if w1.landed.length = f.count then s1.oweOnce (.waybillComplete u)
    else match nextElem w1 f with
      | none => s1
      | some n => s1.oweOnce (.waybillElementLand u n)

/-- The lowest-numbered coach of the posting task on a core (R85). -/
def mcastCoach (s : State) (w : Waybill) (core : Nat) : Option Coach :=
  (coachesOn s w.isl core).foldl (fun o c =>
    if c.task = w.task ∧ coachLives s c then (match o with
      | none => some c
      | some b => if c.idx < b.idx then some c else some b) else o) none

/-- The destination range of a multicast waybill lies in a coach's allocation (R85). -/
def mcastFits (f : WbForm) (c : Coach) : Bool :=
  let d1 := ((f.n1 - 1 : Nat) : Int) * sextNat f.ds1 32
  let d2 := ((f.n2 - 1 : Nat) : Int) * sextNat f.ds2 32
  decide (0 ≤ (f.dst : Int) + min 0 d1 + min 0 d2)
    && decide ((f.dst : Int) + max 0 d1 + max 0 d2 + f.n0 * f.de ≤ ((1024 * (c.alloc f.dstsp).2 : Nat) : Int))

/-- The cores that a multicast entry names, with the coach that takes the bytes on each; none for a core that fails (R84, R85). -/
def mcastCores (s : State) (w : Waybill) (f : WbForm) : List (Nat × Option Coach) :=
  match s.mcasts.find? (fun m => m.isl = w.isl && m.ctx = w.ctx && m.entry = f.mct) with
  | none => []
  | some m => ((List.range 128).filter (fun n => m.cores.getLsbD n)).map (fun n =>
      (n, if m.valid then (mcastCoach s w n).filter (fun c => mcastFits f c) else none))

/-- The coaches that take a multicast's bytes, by core: those fixed when its first element moved, so that a core gets all of the bytes or none (R85). -/
def mcastTargets (s : State) (w : Waybill) (f : WbForm) : List (Nat × Option Nat) :=
  w.targets.getD ((mcastCores s w f).map (fun c => (c.1, c.2.map (fun d => d.uid))))

/-- A named core receives nothing, or no entry may be named (R85). -/
def mcastFails (s : State) (w : Waybill) (f : WbForm) : Bool :=
  match s.mcasts.find? (fun m => m.isl = w.isl && m.ctx = w.ctx && m.entry = f.mct) with
  | none => true
  | some m => !m.valid || (mcastTargets s w f).any (fun c => c.2.isNone)

/-- A multicast whose targets are fixed (R85). -/
def fixTargets (s : State) (w : Waybill) (f : WbForm) : State :=
  match s.waybill? w.uid with
  | none => s
  | some v => s.setWaybill { v with targets := some (mcastTargets s w f) }

/-- An element delivered once into each named core (R85). -/
def mcastWrite (w : Waybill) (f : WbForm) (k : Nat) (bs : List Byte) (s : State) : State :=
  (mcastTargets s w f).foldl (fun s c => match c.2.bind (fun u => s.coaches.find? (fun d => d.answers u)) with
    | none => s
    | some x => storePut (storeUsed s w.isl w.ctx bs.length) w.isl c.1 f.dstsp (cellsFrom (1024 * (x.alloc f.dstsp).1 + (dstAt f k).toNat) bs)) s

/-- The elements of a waybill from k on that have neither landed nor been sent. -/
def restFrom (w : Waybill) (f : WbForm) (k : Nat) : List Nat :=
  ((List.range f.count).drop k).filter (fun j => !w.landed.contains j && !w.sent.contains j)

/-- Elements read and converted one after another while a frame has room for them: those that were read, and what stopped the reading (R172). -/
def gatherElems (w : Waybill) (f : WbForm) (s : State) (room : Nat) : List Nat → State × List (Nat × List Byte) × Option Probe
  | [] => (s, [], none)
  | k :: ks =>
    if room < f.de then (s, [], none)
    else
      let r := wbSource w f k s
      match r.2.1 with
      | some p => (r.1, [], some p)
      | none =>
        let q := gatherElems w f r.1 (room - f.de) ks
        (q.1, (k, wbConvert f r.2.2) :: q.2.1, q.2.2)

/-- A frame of some elements of a waybill leaves, and the next element is owed. -/
def sendElems (s : State) (w : Waybill) (f : WbForm) (ks : List Nat) (bs : List Byte) : State :=
  let q := s.take
  let w1 := { w with sent := ks ++ w.sent }
  let s1 := q.2.setWaybill w1
  let s2 := sendFrame s1 (wbFrame s1 w f q.1 ks bs)
  match nextElem w1 f with
  | none => s2
  | some n => s2.oweOnce (.waybillElementLand w.uid n)

/-- Element k of a waybill moves: it lands, or a frame leaves with it and those after it, or the waybill stops. An element that a stride places
at an address that is not aligned to its size moves byte by byte like any other (R79, R118; DESIGN CHOICE, log 40). -/
def moveElem (s : State) (w : Waybill) (k : Nat) : State :=
  let f := parseWb w.raw
  if f.srcsp = 5 then
    sendElems s w f ((restFrom w f k).take (framePayload / (f.sizes.map (fun z => z.1)).getD 1)) []
  else if f.dstsp = 5 then
    match gatherElems w f s framePayload (restFrom w f k) with
    | (s1, [], some p) => wbStop s1 w f.srcsp p
    | (s1, xs, _) => sendElems s1 w f (xs.map (fun x => x.1)) (xs.flatMap (fun x => x.2))
  else
    let r := wbSource w f k s
    match r.2.1 with
    | some p => wbStop r.1 w f.srcsp p
    | none =>
      let bs := wbConvert f r.2.2
      if f.kind = 4 then
        let s1 := elemLanded (mcastWrite w f k bs (fixTargets r.1 w f)) w.uid k
        if w.landed.length + 1 = f.count ∧ mcastFails (fixTargets r.1 w f) w f then wbFault s1 w.uid causeMcast (BitVec.ofNat 64 f.dst) f.dstsp else s1
      else
        let x := wbWrite w f r.1 (dstAt f k) bs
        match x.2 with
        | some p => wbStop x.1 w f.dstsp p
        | none => elemLanded x.1 w.uid k

/-- A waybill moves: it has its heat, no fault and no page that it waits for, and is not abandoned. -/
def Waybill.moves (w : Waybill) : Bool := (!w.needHeat || w.heatHeld) && w.fault.isNone && !w.paused && w.pushedTo ≠ 2 ^ 32

/-- A waybill waits while its core is saved, one with a typed-store end while its coach is swapped out, and a multicast while one of its targets is (R85,
R115, R389). -/
def wbOut (s : State) (w : Waybill) : Bool :=
  s.images.any (fun i => i.isl = w.isl && i.core = w.core && i.ctx = w.ctx && i.kind = 2) ||
  (parseWb w.raw).typed && ((wbCoach s w).map (fun c => c.swapped)).getD false || s.coaches.any (fun c => c.swapped && w.feeds c)

/-- WAYBILL_ELEMENT_LAND: an element of a copy, fill or multicast waybill that has not moved yet. Elements move in any order. -/
def execWaybillElementLand (s : State) : Result :=
  goOn (match s.ev with
    | .waybillElementLand u k =>
      (match s.waybill? u with
      | none => s
      | some w =>
        let f := parseWb w.raw
        if w.moves && !wbOut s w && !f.isStream && decide (k < f.count) && !w.landed.contains k && !w.sent.contains k then moveElem s w k else s)
    | _ => s)

/-- The local end of a GET's element: the reply's bytes land (R169). -/
def getLand (s : State) (w : Waybill) (k : Nat) (bs : List Byte) : State :=
  let f := parseWb w.raw
  let x := wbWrite w f s (dstAt f k) (wbConvert f bs)
  match x.2 with
  | some p => wbStop (x.1.setWaybill { w with sent := w.sent.filter (fun y => y ≠ k) })
      { w with sent := w.sent.filter (fun y => y ≠ k) } f.dstsp p
  | none => elemLanded x.1 w.uid k

/-! ### Completion (R122, WAYBILL_COMPLETE) -/

/-- A waybill is done: abandoned, every element landed, or a stream whose last block is consumed and that no save image
holds. -/
def wbDone (s : State) (w : Waybill) : Bool :=
  let f := parseWb w.raw
  w.pushedTo = 2 ^ 32
    || (if f.isStream then
        (!w.needHeat || w.heatHeld) && w.fault.isNone && !s.streams.any (fun x => x.wb = w.uid) && !s.images.any (fun i => i.streams.any (fun x => x.wb = w.uid))
      else w.moves && decide (w.landed.length = f.count))

/-- A waybill leaves: its heat or its request goes back, a coach that waited for it alone frees its room, and its timeline is looked at. -/
def finishWaybill (s : State) (w : Waybill) : State :=
  let s0 := leaveFrames s w
  let s1 := { s0 with waybills := s0.waybills.filter (fun v => v.uid ≠ w.uid) }
  let s2 := if w.heatHeld then heatReturn s1 w.isl 1 else if w.needHeat then heatCancel s1 w.isl 1 w.uid else s1
  let s3 := (s2.coaches.filter (fun c => (c.isFor w || w.feeds c) && !c.swapped && !coachLives s2 c)).foldl freeCoach s2
  carterTimeline s3 w.isl w.ctx w.core w.tl

def execWaybillComplete (s : State) : Result :=
  goOn (match s.ev with
    | .waybillComplete u =>
      (match s.waybill? u with
      | none => s
      | some w => if wbDone s w then finishWaybill s w else s)
    | _ => s)

/-! ### Operand streams (R121, STREAM_BLOCK_PUSH) -/

/-- A stream by its waybill. -/
def State.stream? (s : State) (u : Nat) : Option Stream := s.streams.find? (fun x => x.wb = u)

/-- A stream written. -/
def State.setStream (s : State) (x : Stream) : State := { s with streams := s.streams.map (fun y => if y.wb = x.wb then x else y) }

/-- The 32 elements of a block in the bytes of one row: INT4 the low nibble first (R121). -/
def rowElems (sfmt : Nat) (bs : List Byte) : List Word32 :=
  let n := leNat bs
  let w := 4 * streamHalves sfmt
  (List.range 32).map (fun i => BitVec.ofNat 32 (n / 2 ^ (w * i) % 2 ^ w))

/-- The rows of block b read from the source, one after another. -/
def readRows (w : Waybill) (f : WbForm) (b : Nat) : Nat → Nat → State → State × Option Probe × List Word32
  | 0, _, s => (s, none, [])
  | n + 1, j, s =>
    let len := 16 * streamHalves f.sfmt
    let r := wbRead w f.srcsp s ((f.src : Int) + j * sextNat f.ss1 32 + b * len) len
    match r.2.1 with
    | some p => (r.1, some p, [])
    | none =>
      let q := readRows w f b n (j + 1) r.1
      (q.1, q.2.1, rowElems f.sfmt r.2.2 ++ q.2.2)

/-- The scales of block b, where they ride in the stream. -/
def readScales (w : Waybill) (f : WbForm) (b : Nat) (s : State) : State × Option Probe × List Word32 :=
  if f.scl = 0 then (s, none, [])
  else
    let r := wbRead w f.srcsp s (f.dst + 4 * (b * f.smn)) (4 * f.smn)
    (r.1, r.2.1, (List.range f.smn).map (fun j => BitVec.ofNat 32 (leNat ((r.2.2.drop (4 * j)).take 4))))

/-- A stream's next block is pushed, once a chain that has been dispatched has taken the stream (R121); blocks that were applied already are
passed over (R160, R189). -/
def pushBlock (s : State) (w : Waybill) (x : Stream) : State :=
  let f := parseWb w.raw
  let again := fun (s : State) => if x.next + 1 < f.sk / 32 then s.oweOnce (.streamBlockPush w.uid) else s
  if (streamUsers s x).all (fun c => decide (x.next < c.done)) then again (s.setStream { x with next := x.next + 1 })
  else
    let r := readScales w f x.next s
    match r.2.1 with
    | some p => wbStop r.1 w f.srcsp p
    | none =>
      let q := readRows w f x.next f.smn 0 r.1
      match q.2.1 with
      | some p => wbStop q.1 w f.srcsp p
      | none =>
        let b : Block := { num := x.next, elems := q.2.2, scales := r.2.2, bad := none }
        oweApply (again ((storeUsed q.1 w.isl w.ctx (16 * streamHalves f.sfmt * f.smn + 4 * r.2.2.length)).setStream { x with blocks := x.blocks ++ [b], next := x.next + 1 })) x x.next

def execStreamBlockPush (s : State) : Result :=
  goOn (match s.ev with
    | .streamBlockPush u =>
      (match s.waybill? u, s.stream? u with
      | none, _ => s
      | some _, none => s
      | some w, some x => if w.moves && !wbOut s w && !(streamUsers s x).isEmpty && decide (x.next < x.sk / 32) then pushBlock s w x else s)
    | _ => s)

/-! ### The end of the Carter's handler (R189, R190) -/

/-- A copy, fill or multicast waybill starts again from its first element, as a new one to the replies still in flight; a stream resumes at
the first block that the Anvil has not consumed (R189). -/
def restartWaybill (s : State) (u : Nat) : State :=
  match s.waybill? u with
  | none => s
  | some w =>
    if (parseWb w.raw).isStream then
      let s1 := s.setWaybill { w with fault := none }
      match s1.stream? u with
      | none => s1.oweOnce (.waybillComplete u)
      | some x =>
        let n := x.blocks.foldl (fun n b => min n b.num) x.next
        (s1.setStream { x with blocks := [], next := n }).owe (.streamBlockPush u)
    else
      let q := (leaveFrames s w).take
      let n : Waybill := { w with uid := q.1, fault := none, landed := [], bytes := 0, sent := [], lines := [], targets := none }
      ({ q.2 with waybills := q.2.waybills.map (fun (v : Waybill) => if v.uid = u then n else v) }).owe (.waybillElementLand q.1 0)

/-- A Carter leaves its handler with TRET or TSKIP (R189). -/
def carterReturn (skip : Bool) (s : State) : State :=
  let i := s.cur.id
  let c := s.carter i.isl i.core
  let s1 := s.setCarter { c with faultWb := none }
  let s2 := match c.faultWb with
    | none => s1
    | some u => if skip then abandonWaybill s1 u else restartWaybill s1 u
  takeHeld (s2.updCur (fun t => t.leave (t.resumeAt skip) (t.keepsHints skip))) i.isl i.core

/-- TKILL of a Carter's handler: the launch that the record names ends, its pending entries and held faults go, and the Carter goes on after
the instruction that faulted (R189). -/
def carterKill (s : State) : State :=
  let t := s.cur
  let i := t.id
  let c := s.carter i.isl i.core
  let named := c.named.map (fun m => m.launch)
  let s1 := match named with
    | none => s
    | some l => killLaunch s l t.tr.cause i.isl
  let s2 := match c.faultWb with
    | none => s1
    | some u => abandonWaybill s1 u
  let c2 := s2.carter i.isl i.core
  let s3 := dropHeld (s2.setCarter { c2 with
    faultWb := none, pending := c2.pending.filter (fun m => m.poster = 0 || named ≠ some m.launch) }) i.isl i.core named
  let at_ := match c.faultWb with
    | none => t.tr.savedPc + 4
    | some u => (((s.waybill? u).map (fun w => w.xpc)).getD t.tr.savedPc) + 4
  takeHeld (s3.updT i.uid (fun u => u.leave at_ false)) i.isl i.core

end Sys2Proof.Machine
end

