-- ==== Sys2Proof/Machine/Bar.lean ====
section
/-!
DEFINITION. The BARs of a function as the host reads and writes them (R362-R365, R379, R414, R415).
-/
namespace Sys2Proof.Machine

/-- HCPVER: major 1, minor 0, no capability (R364). -/
def hcpver : Word64 := 0x2

/-- IFVER: version 1.0 of the task record, the waybill, the topology table, the save image and the mailbox (R379). -/
def ifver : Word64 := 0x1010101010

/-- FNSTAT: every function is enabled (DESIGN CHOICE, log 11), and HCPSEL is accepted (R363). -/
def fnstat (r : FnRegs) : Word64 := BitVec.ofNat 64 (1 + 2 * b2n r.accepted)

/-- A host command queue at its reset values (R365). -/
def HostQueue.reset (fn q : Nat) : HostQueue :=
  { fn := fn, q := q, en := false, log2n := 0, prio := 0, vec := 0, ctx := 0, qbase := 0, cbase := 0, head := 0, tail := 0, qerr := 0,
    hold := none, inHand := false, stopping := false }

/-- A word of a queue's block (R365). -/
def HostQueue.word (x : HostQueue) (k : Nat) : Word64 :=
  if k = 0 then
    let y := x.shown
    BitVec.ofNat 64 (y.log2n + b2n (y.en && !y.stopping) * 2 ^ 32 + y.prio * 2 ^ 33 + y.vec * 2 ^ 35 + y.ctx * 2 ^ 48)
  else if k = 1 then x.qbase
  else if k = 2 then BitVec.ofNat 64 (x.qerr * 2 ^ 24 + x.head % 2 ^ x.log2n * 2 ^ 32)
  else x.cbase

/-- A word of the MSI-X table: a vector's address, then its data and its mask (PRESUMED, log 42). -/
def FnRegs.tableWord (r : FnRegs) (k : Nat) : Word64 :=
  if k % 2 = 0 ∨ r.unmasked.getLsbD (k / 2) then spGet r.table k else spGet r.table k + 2 ^ 32

/-- BAR0 read. While the ROM loader waits in recovery it offers HCPVER and the registers of the firmware in PF 0's BAR0 alone (R415). -/
def readBar0 (s : State) (fn off : Nat) : Word64 :=
  let r := s.fnRegs fn
  if off = 0x200 then (if fn = 0 then s.panel.fwaddr else 0)
  else if off = 0x208 then (if fn = 0 then s.panel.fwlen else 0)
  else if off = 0x218 then (if fn = 0 then BitVec.ofNat 64 s.panel.fwstat else 0)
  else if off = 0 then (if inService s ∨ fn = 0 then hcpver else 0)
  else if !inService s then 0
  else if off = 0x008 then r.hcpsel
  else if off = 0x010 then ifver
  else if off = 0x018 then fnstat r
  else if off = 0x100 then r.mbreq
  else if off = 0x110 then BitVec.ofNat 64 (b2n r.busy + 2 * b2n r.done)
  else if off = 0x118 then r.evbase
  else if off = 0x120 then r.evcount
  else if off = 0x128 then r.mbvec.zeroExtend 64
  else if 0x1000 ≤ off ∧ off < 0x1800 then
    ((s.queue? fn ((off - 0x1000) / 32)).getD (HostQueue.reset fn ((off - 0x1000) / 32))).word (off % 32 / 8)
  else 0

/-- BAR4 read: the MSI-X table, then at 4 KiB its pending bits (R362; PRESUMED, log 42). -/
def readBar4 (s : State) (fn off : Nat) : Word64 :=
  if off < 0x200 then (s.fnRegs fn).tableWord (off / 8)
  else if off = 0x1000 then (s.fnRegs fn).pending.zeroExtend 64
  else 0

/-- The 8 bytes at an aligned offset of a BAR of a function, as the host reads them. An offset that nothing is assigned to reads zero, and so does what is
only written: the doorbells of BAR2 among it (R7, R362; log 42). -/
def barRead (s : State) (fn bar off : Nat) : Word64 :=
  if 32 ≤ fn then 0 else if bar = 0 then readBar0 s fn off else if bar = 4 then readBar4 s fn off else 0

/-! ### Requests of the mailbox (R382, R414) -/

/-- The number in 8 bytes of host memory. -/
def hostWord (s : State) (a : Nat) : Nat := leNat (getBytes s.hostMem a 8)

/-- The number in a dword of a request. -/
def MbReq.word (r : MbReq) (k : Nat) : Nat := (r.words.getD k 0).toNat

/-- CODE of a request; 0 where its header is not well formed. -/
def MbReq.code (r : MbReq) : Nat :=
  if bitsOf (r.word 0) 15 8 = 1 ∧ bitsOf (r.word 0) 31 16 = 0 ∧ r.buf.toNat % 64 = 0 then bitsOf (r.word 0) 7 0 else 0

/-- The step that performs a request. -/
def MbReq.event (r : MbReq) : Event :=
  let c := r.code
  if c = 1 then .ctxCreate r.fn
  else if c = 2 then .ctxDestroy r.fn
  else if c = 3 then .ctxSuspend r.fn
  else if c = 4 then .ctxResume r.fn
  else if c = 5 then .inval r.fn
  else if c = 6 then .pfDone r.fn
  else if c = 7 then .topoRead r.fn
  else if c = 8 then .topoFence r.fn
  else if c = 9 then .topoRemap r.fn
  else .invalidMailboxRequest r.fn

/-- The request in a function's buffer: the header and the payload of R382. -/
def readRequest (s : State) (fn : Nat) : MbReq :=
  let a := (s.fnRegs fn).mbreq
  { fn := fn, buf := a, words := (List.range 5).map (fun k => BitVec.ofNat 64 (hostWord s (a.toNat + 8 * k))) }

/-- A function's mailbox request that is not answered. -/
def State.request? (s : State) (fn : Nat) : Option MbReq := s.panel.mbox.find? (fun r => r.fn = fn)

/-- MBGO: a request is received; DONE clears and BUSY is set (R414). -/
def submit (s : State) (r : MbReq) : State :=
  let s1 := s.setFn { s.fnRegs r.fn with busy := true, done := false }
  { s1 with panel := { s1.panel with mbox := s1.panel.mbox ++ [r] } }

/-! ### Writes -/

/-- The control word of a queue's block written: EN set is a step of its own, and so is EN cleared. The other fields take what is written, and
where a command is in hand or a launch holds the queue, they do so once that has passed (R365). -/
def writeQueueCtl (s : State) (x : HostQueue) (val : Word64) : State :=
  if val.getLsbD 32 then s.owe (.queueEnable x.fn x.q x.cbase x.qbase val)
  else (s.setQueue (if x.hold.isSome || x.inHand then { x with ctl := some val } else x.configured val)).owe (.queueDisable x.fn x.q)

/-- BAR0 written. A read-only or reserved place ignores it. -/
def writeBar0 (s : State) (fn off : Nat) (val : Word64) : State :=
  let r := s.fnRegs fn
  if off = 0x200 then (if fn = 0 then { s with panel := { s.panel with fwaddr := val } } else s)
  else if off = 0x208 then (if fn = 0 then { s with panel := { s.panel with fwlen := val } } else s)
  else if off = 0x210 then (if fn = 0 ∧ val = 1 then s.owe .fwLoad else s)
  else if !inService s then s
  else if off = 0x008 then s.owe (.hcpselWrite fn val)
  else if off = 0x100 then s.setFn { r with mbreq := val }
  else if off = 0x108 then (if val = 1 ∧ !r.busy then (submit s (readRequest s fn)).owe (readRequest s fn).event else s)
  else if off = 0x118 then s.setFn { r with evbase := val }
  else if off = 0x128 then s.setFn { r with mbvec := val.truncate 5 }
  else if 0x1000 ≤ off ∧ off < 0x1800 then
    let q := (off - 0x1000) / 32
    let x := (s.queue? fn q).getD (HostQueue.reset fn q)
    if off % 32 = 0 then writeQueueCtl s x val
    else if off % 32 = 8 then s.setQueue { x with qbase := val }
    else if off % 32 = 24 then s.setQueue { x with cbase := val }
    else s
  else s

/-- BAR4 written: a word of the MSI-X table. A vector that is unmasked sends what is pending (PRESUMED, log 42). -/
def writeBar4 (s : State) (fn off : Nat) (val : Word64) : State :=
  let r := s.fnRegs fn
  let v := off / 16
  if 0x200 ≤ off then s
  else if off % 16 = 0 then s.setFn { r with table := spSet r.table (2 * v) val }
  else if off % 16 = 8 then
    let bit : BitVec 32 := 1 <<< v
    let r1 := { r with
      table := spSet r.table (2 * v + 1) ((val.truncate 32 : BitVec 32).zeroExtend 64)
      unmasked := if val.getLsbD 32 then r.unmasked &&& ~~~bit else r.unmasked ||| bit }
    if r1.unmasked.getLsbD v && r1.pending.getLsbD v then s.setFn { r1 with pending := r1.pending &&& ~~~bit, msix := r1.msix ++ [v] }
    else s.setFn r1
  else s

/-- A write of a function's BARs, which the step's offset takes as laid end to end: BAR0, from 0x10000 the doorbells of BAR2, from 0x20000 BAR4. -/
def writeBar (s : State) (fn off : Nat) (val : Word64) : State :=
  if 32 ≤ fn then s
  else if off < 0x10000 then writeBar0 s fn off val
  else if off < 0x20000 then (if off % 8 = 0 ∧ off < 0x10200 then s.owe (.doorbell fn ((off - 0x10000) / 8) (val.toNat % 2 ^ 32)) else s)
  else writeBar4 s fn (off - 0x20000) val

end Sys2Proof.Machine
end

