-- ==== Sys2Proof/Machine/Ctrl.lean ====
section
/-!
DEFINITION. An island's control block: its registers (R399-R412, R416-R419), frames and keys, scrub, island reset, DISCARD, the energy that
activity is charged (R402), and the registers of the functions that have no behaviour of their own (R363, R414, R415).
-/
namespace Sys2Proof.Machine

/-! ### Cores and their Carters (R113, R352, R386, R405) -/

/-- CORECTX of a core. -/
def State.coreCtx (s : State) (isl core : Nat) : CoreCtx :=
  (s.cores.find? (fun c => c.isl = isl && c.core = core)).getD
    { isl := isl, core := core, v := false, q := false, err := false, fn := 0, ctx := 0, areas := [] }

/-- CORECTX of a core written. -/
def State.setCoreCtx (s : State) (c : CoreCtx) : State :=
  { s with cores := c :: s.cores.filter (fun d => !(d.isl = c.isl && d.core = c.core)) }

/-- A Carter at its entry with every scalar register zero, or idle where the entry is 0 (R113, R352). -/
def newCarter (s : State) (isl core : Nat) (c : CtxIsl) (uid : Nat) : Thread :=
  { Thread.hubReset 0 with
    id := { (Thread.hubReset 0).id with uid := uid, kind := .carter, isl := isl, core := core, ctx := c.ctx, vregs := 0, prio := 3 }
    sc := Scalar.zero c.centry
    sch := { Sched.zero (if c.centry = 0 then .idle else .active) with placedAt := s.cycle } }

/-- The Carter of a core and what it holds go. -/
def dropCarter (s : State) (isl core : Nat) : State :=
  let gone := s.threads.filter (fun t => t.id.kind = .carter && t.id.isl = isl && t.id.core = core)
  let s1 := gone.foldl dropHeat s
  let s2 := s1.mapT (fun t => if t.id.kind = .carter ∧ t.id.isl = isl ∧ t.id.core = core then t.end_ else t)
  { s2 with
    others := s2.others.filter (fun t => !(t.id.kind = .carter && t.id.isl = isl && t.id.core = core))
    carters := s2.carters.filter (fun c => !(c.isl = isl && c.core = core)) }

/-- A core granted to a live context: its Carter starts; a core of none, or whose engine is withdrawn, has no running Carter (R159, R386,
R405). -/
def grantCarter (s : State) (isl core ctx : Nat) : State :=
  let s1 := dropCarter s isl core
  match s1.ctx? isl ctx with
  | none => s1
  | some c =>
    if c.dead ∨ !coreOffered s isl core then s1
    else
      let q := s1.take
      { q.2 with others := q.2.others ++ [newCarter q.2 isl core c q.1] }

/-- A context has a resident or saved coach on a core (R405). -/
def holdsCore (s : State) (isl core ctx : Nat) : Bool :=
  s.coaches.any (fun c => c.isl = isl && c.core = core && c.ctx = ctx)
    || s.images.any (fun i => i.isl = isl && i.core = core && i.ctx = ctx)

/-- CORECTX written (R405). -/
def writeCorectx (s : State) (isl core : Nat) (val : Word64) : State :=
  if (s.island isl).resetting then s
  else
    let c := s.coreCtx isl core
    let n : CoreCtx := { c with v := val.getLsbD 31, fn := bitsOf val.toNat 20 16, ctx := bitsOf val.toNat 15 0, err := false }
    let same := n.v = c.v ∧ n.fn = c.fn ∧ n.ctx = c.ctx
    if same then s.setCoreCtx n
    else if c.v ∧ holdsCore s isl core c.ctx then s.setCoreCtx { c with err := true }
    else
      let s1 := s.setCoreCtx n
      (if n.v then grantCarter s1 isl core n.ctx else dropCarter s1 isl core).oweOnce (.coachPlacement isl)

/-! ### The Hearth and the firewall (R400, R404) -/

/-- HEARTH as read. -/
def hearthWord (i : Island) : Word64 :=
  BitVec.ofNat 64 (i.budget % 2 ^ 16 + i.held % 2 ^ 16 * 2 ^ 16 + i.reqs.length % 2 ^ 16 * 2 ^ 32)

/-- BUDGET written: the Hearth looks at its queue (R400, R401). -/
def writeBudget (s : State) (isl : Nat) (val : Word64) : State :=
  if (s.island isl).resetting then s
  else (s.updIsland isl (fun i => { i with budget := bitsOf val.toNat 15 0 })).oweOnce (.heatGrant isl)

/-- The bits that FWMASK has (R399). -/
def fwmaskBits : Word64 := 0x8000FFFFFFFFFFFF

/-- FWMASK written (R404). -/
def writeFwmask (s : State) (isl : Nat) (val : Word64) : State :=
  if (s.island isl).resetting then s else s.updIsland isl (fun i => { i with fwmask := val &&& fwmaskBits })

/-! ### Frames and keys (R407-R409) -/

/-- A key slot of an island. -/
def State.keySlot (s : State) (isl slot : Nat) : KeySlot :=
  (s.keys.find? (fun k => k.isl = isl && k.slot = slot)).getD { isl := isl, slot := slot, v := false, ctx := 0 }

/-- Every frame that a context owns on an island becomes meaningless: its bytes in HBM cannot be decrypted any more (R408). -/
def loseFrames (s : State) (isl ctx : Nat) : State :=
  let fs := (s.frameInfo.filter (fun f => f.isl = isl && f.owner = ctx)).map (fun f => f.idx)
  { s with
    mem := s.mem.filter (fun c => !(fs.any (fun k => decide (memKey isl (k * 2 ^ 21) ≤ c.1) && decide (c.1 < memKey isl ((k + 1) * 2 ^ 21)))))
    frameInfo := s.frameInfo.map (fun (f : FrameInfo) => if f.isl = isl ∧ f.owner = ctx then { f with lost := true } else f) }

/-- A key slot zeroised: the owner's L2 lines go without a write-back, then the key, V and CTX (R408). -/
def zeroiseKey (s : State) (isl slot : Nat) : State :=
  let k := s.keySlot isl slot
  let s1 := if k.v then loseFrames s isl k.ctx else s
  { s1 with keys := s1.keys.filter (fun j => !(j.isl = isl && j.slot = slot)) }

/-- KEYSLOT written: ZERO zeroises the slot (R408). -/
def writeKeyslot (s : State) (isl slot : Nat) (val : Word64) : State :=
  if (s.island isl).resetting || !val.getLsbD 17 then s else zeroiseKey s isl slot

/-- The fields of FAREQ (R409): CTX, the first frame, and COUNT. -/
def fareqFields (v : Word64) : Nat × Nat × Nat := (bitsOf v.toNat 63 48, bitsOf v.toNat 47 21, bitsOf v.toNat 19 0)

/-- A range of frames lies in memory, and is not empty (R409). -/
def fareqRange (first n : Nat) : Bool := n ≠ 0 && decide ((first + n) * 2 ^ 21 ≤ Config.islandBytes)

/-- Frames of a range written by a function. -/
def mapFrames (s : State) (isl first : Nat) (f : FrameInfo → FrameInfo) : Nat → State
  | 0 => s
  | n + 1 => mapFrames (s.setFrame (f (s.frame isl first))) isl (first + 1) f n

/-- FASTAT set. -/
def setFastat (s : State) (isl n : Nat) : State := s.updIsland isl (fun i => { i with fastat := n })

/-- A frame of a range meets a test. -/
def anyFrame (s : State) (isl first n : Nat) (p : FrameInfo → Bool) : Bool :=
  s.frameInfo.any (fun f => f.isl = isl && decide (first ≤ f.idx) && decide (f.idx < first + n) && p f)

/-- A context of an island is protected (R384). -/
def isProt (s : State) (isl ctx : Nat) : Bool := ((s.ctx? isl ctx).map (fun c => c.prot)).getD false

/-- FAREQ with KIND 0: assign (R409). A FAREQ written during a reset changes nothing (R417). -/
def assignFrames (s : State) (isl : Nat) (v : Word64) : State :=
  let f := fareqFields v
  if (s.island isl).resetting then s
  else if !fareqRange f.2.1 f.2.2 || anyFrame s isl f.2.1 f.2.2 (fun x => x.owner ≠ 0 && x.owner ≠ f.1 && isProt s isl x.owner) then
    setFastat s isl 1
  else if anyFrame s isl f.2.1 f.2.2 (fun x => x.q) then setFastat s isl 8
  else setFastat (mapFrames s isl f.2.1 (fun x => { x with owner := f.1 }) f.2.2) isl 0

/-- The cores that a discarded context held go into quarantine with their allocations (R409). -/
def quarantineCores (s : State) (isl ctx : Nat) : State :=
  let mine := (s.island isl).heldCores.filter (fun h => h.1 = ctx)
  let s1 := mine.foldl (fun s h =>
    s.setCoreCtx { s.coreCtx isl h.2.1 with q := true, areas := (s.coreCtx isl h.2.1).areas ++ h.2.2 }) s
  if mine.isEmpty then s1 else s1.updIsland isl (fun i => { i with heldCores := i.heldCores.filter (fun h => h.1 ≠ ctx) })

/-- FAREQ with KIND 1: quarantine (R409). -/
def quarantineFrames (s : State) (isl : Nat) (v : Word64) : State :=
  let f := fareqFields v
  if (s.island isl).resetting then s
  else if !fareqRange f.2.1 f.2.2 then setFastat s isl 1
  else setFastat (quarantineCores (mapFrames s isl f.2.1 (fun x => { x with owner := 0, q := true }) f.2.2) isl f.1) isl 0

/-! ### Scrub (R410, R411) -/

/-- KiB of some allocations. -/
def areasKib (as : List (Nat × Nat × Nat)) : Nat := (as.map (fun a => a.2.2)).sum

/-- Units of an entry of the scrub's set: 32 for a frame, ⌈KiB ÷ 64⌉ for a core. -/
def entryUnits (e : Nat × List (Nat × Nat × Nat)) : Nat := if 128 ≤ e.1 then 32 else ceilDiv (areasKib e.2) 64

/-- A list of numbers in ascending order. -/
def insertNat (n : Nat) : List Nat → List Nat
  | [] => [n]
  | m :: r => if n ≤ m then n :: m :: r else m :: insertNat n r

/-- The set of a scrub: the quarantined cores ascending, then the quarantined frames ascending. -/
def scrubEntries (s : State) (isl : Nat) : List (Nat × List (Nat × Nat × Nat)) :=
  ((List.range 128).filter (fun c => (s.coreCtx isl c).q)).map (fun c => (c, (s.coreCtx isl c).areas))
    ++ (((s.frameInfo.filter (fun f => f.isl = isl && f.q)).map (fun f => f.idx)).foldr insertNat []).map (fun k => (128 + k, []))

/-- Q clears for the whole set, and its frames read as written zeros (R410). -/
def scrubClear (s : State) (isl : Nat) (set : List (Nat × List (Nat × Nat × Nat))) : State :=
  set.foldl (fun s e =>
    if 128 ≤ e.1 then s.setFrame { s.frame isl (e.1 - 128) with q := false, lost := false }
    else s.setCoreCtx { s.coreCtx isl e.1 with q := false, areas := [] }) s

/-- SCRUBCTL written with 1: a scrub's set is fixed and it starts (R410). An empty set has no unit and is done at once. -/
def startScrub (s : State) (isl : Nat) : State :=
  let i := s.island isl
  if i.resetting || i.scrubRun then s
  else
    let set := scrubEntries s isl
    let n := (set.map entryUnits).sum
    let s1 := s.updIsland isl (fun i => { i with
      scrubRun := decide (n ≠ 0), scrubTotal := n, scrubDone := 0, scrubSet := set, scrubAt := s.cycle })
    if n = 0 then scrubClear s1 isl set else s1

/-- The entry and the unit in it that has a number in the scrub. -/
def scrubAtUnit : List (Nat × List (Nat × Nat × Nat)) → Nat → Option (Nat × List (Nat × Nat × Nat) × Nat)
  | [], _ => none
  | e :: r, n => if n < entryUnits e then some (e.1, e.2, n) else scrubAtUnit r (n - entryUnits e)

/-- How many bytes two ranges share. -/
def overlap (a n b m : Nat) : Nat := min (a + n) (b + m) - max a b

/-- A write of a range counted at each counter of its store (R127). -/
def countRange (s : State) (isl core space lo n : Nat) : State :=
  (s.counters.filter (fun c => c.isl = isl && c.core = core && c.store = space)).foldl
    (fun s c => match s.counter? c.isl c.core c.idx with
      | none => s
      | some c' => countOne s c' ((c'.regs.map (fun r => overlap r.1 r.2 lo n)).sum)) s

/-- 64 KiB of memory zeroed: whole lines are written, so their bad-line entries go (R410, R413). -/
def scrubMemory (s : State) (isl pa : Nat) : State :=
  let s1 := { s with mem := s.mem.filter (fun c => !(decide (memKey isl pa ≤ c.1) && decide (c.1 < memKey isl pa + 65536))) }
  let s2 := s1.updIsland isl (fun i => { i with blt := i.blt.filter (fun b => !(decide (pa ≤ b.2 * 128) && decide (b.2 * 128 < pa + 65536))) })
  countRange s2 isl 128 0 pa 65536

/-- KiB `lo` to `lo` + 63 of some allocations laid end to end, zeroed. -/
def scrubAreas (s : State) (isl core : Nat) : List (Nat × Nat × Nat) → Nat → Nat → State
  | [], _, _ => s
  | a :: r, at_, lo =>
    let n := overlap at_ a.2.2 lo 64
    let k := a.2.1 + (max at_ lo - at_)
    let s1 := if n = 0 then s else
      countRange (zeroStore s isl core a.1 (1024 * k) (1024 * n)) isl core a.1 (1024 * k) (1024 * n)
    scrubAreas s1 isl core r (at_ + a.2.2) lo

/-- The firmware starts a scrub, or where one runs or the island is in reset, once that has ended (R410, R412; DEDUCED, log 40). -/
def askScrub (s : State) (isl : Nat) : State :=
  if (s.island isl).scrubRun || (s.island isl).resetting then s.updIsland isl (fun i => { i with scrubNext := true }) else startScrub s isl

/-- The next unit of a scrub; the last one clears Q (R410). -/
def scrubUnit (s : State) (isl : Nat) : State :=
  let i := s.island isl
  match scrubAtUnit i.scrubSet i.scrubDone with
  | none => s
  | some e =>
    let s1 := if 128 ≤ e.1 then scrubMemory (l2Used s isl 0 65536) isl ((e.1 - 128) * 2 ^ 21 + e.2.2 * 65536)
      else scrubAreas (storeUsed s isl 0 (1024 * min 64 ((e.2.1.map (fun a => a.2.2)).sum - 64 * e.2.2))) isl e.1 e.2.1 0 (64 * e.2.2)
    let last := decide (i.scrubTotal ≤ i.scrubDone + 1)
    let s2 := s1.updIsland isl (fun i => { i with scrubDone := i.scrubDone + 1, scrubRun := !last })
    let s3 := if last then scrubClear s2 isl i.scrubSet else s2
    if last ∧ i.scrubNext then startScrub (s3.updIsland isl (fun j => { j with scrubNext := false })) isl else s3

/-- SCRUB_PROG as read (R411, R417). -/
def scrubProg (i : Island) : Word64 :=
  if i.resetting then 0 else BitVec.ofNat 64 (i.scrubDone % 2 ^ 32 + i.scrubTotal % 2 ^ 31 * 2 ^ 32 + b2n i.scrubRun * 2 ^ 63)

/-! ### A forced change (R395) -/

/-- The live contexts that name a virtual island (R394). -/
def namers (s : State) (v : Nat) : List Nat := ((s.ctxs.filter (fun c => c.islmask.getLsbD v && !c.dead)).map (fun c => c.ctx)).eraseDups

/-- The record of a context's end that names no agent. -/
def ctxRecord (cause : BitVec 16) (isl ctx : Nat) : FaultRec :=
  { cause := cause, cls := causeClass cause, flags := 0, isl := isl, core := 0xFF, slot := 0, wcode := 0, ctx := ctx, taskId := 0, team := 0,
    flane := 0, subt := 0, lanes := 0, xpc := 0, xaddr := 0, insn := 0, atype := 0xFF, space := 0xFF, risl := 0 }

/-- A context ends with TOPOLOGY_CHANGED, logged on every island of its partition and to the panel command processor (R395). -/
def endForced (s : State) (v ctx : Nat) : State :=
  let isls := (s.ctxs.filter (fun c => c.ctx = ctx)).map (fun c => c.isl)
  let s1 := isls.foldl (fun s i => (writeFault s i ctx (ctxRecord causeTopology i ctx)).1) s
  endContext (postFatal s1 (ctxRecord causeTopology v ctx) false) ctx causeTopology v

/-- A forced topology change ends every context that names the island (R395). -/
def forcedEnd (s : State) (v : Nat) : State := (namers s v).foldl (fun s c => endForced s v c) s

/-! ### Island reset (R412, R417) -/

/-- ISLRST written with 1. -/
def startReset (s : State) (isl : Nat) : State :=
  if (s.island isl).resetting then s
  else
    let s1 := forcedEnd s isl
    let s2 := (List.range 64).foldl (fun s k => if (s.keySlot isl k).v then zeroiseKey s isl k else s) s1
    let inIsl := fun (k : Nat) => decide (storeKey isl 0 0 0 ≤ k) && decide (k < storeKey (isl + 1) 0 0 0)
    let s3 := { s2 with
      cores := s2.cores.map (fun (c : CoreCtx) => if c.isl = isl then { c with v := false } else c)
      stores := s2.stores.filter (fun c => !inIsl c.1) }
    s3.updIsland isl (fun i => { i with
      resetting := true, resetAt := s.cycle, fwmask := 0, budget := 128, held := 0, reqs := [], marks := [] })

/-- The end of a reset: an interrupted scrub starts again from unit 0, over the same set (R412). Where none ran, one that was asked for meanwhile
starts. -/
def endReset (s : State) (isl : Nat) : State :=
  let next := (s.island isl).scrubNext && !(s.island isl).scrubRun
  let s1 := s.updIsland isl (fun i => { i with
    resetting := false, scrubDone := if i.scrubRun then 0 else i.scrubDone, scrubAt := if i.scrubRun then s.cycle else i.scrubAt
    scrubNext := i.scrubNext && i.scrubRun })
  if next then startScrub s1 isl else s1

/-! ### Freeing a context on an island (R388, R416) -/

/-- Nothing of a context on an island is ordered any more. -/
def Order.without (o : Order) (isl ctx : Nat) : Order :=
  { o with
    released := o.released.filter (fun x => !(x.1 = isl && x.2.1 = ctx)), acquired := o.acquired.filter (fun x => !(x.1 = isl && x.2.1 = ctx))
    joined := o.joined.filter (fun x => !(x.1 = isl && x.2.1 = ctx)) }

/-- Its counters are disarmed, and its group, multicast, binding and tile-table state is freed. -/
def freeCtxState (s : State) (isl ctx : Nat) : State :=
  let fiHeat := (s.firings.filter (fun f => f.isl = isl && f.ctx = ctx && decide (2 ≤ f.st))).length
  let fiAsk := (s.firings.filter (fun f => f.isl = isl && f.ctx = ctx && f.st = 1)).map (fun f => f.uid)
  let s1 := fiAsk.foldl (fun s u => heatCancel s isl 2 u) (heatReturn s isl fiHeat)
  { s1 with
    counters := s1.counters.map (fun (c : Counter) => if c.isl = isl ∧ c.ctx = ctx then { c with armed := false, counting := false } else c)
    groups := s1.groups.filter (fun g => !(g.isl = isl && g.ctx = ctx))
    mcasts := s1.mcasts.filter (fun m => !(m.isl = isl && m.ctx = ctx))
    bindings := s1.bindings.filter (fun b => !(b.isl = isl && b.ctx = ctx))
    firings := s1.firings.filter (fun f => !(f.isl = isl && f.ctx = ctx))
    tiles := s1.tiles.filter (fun t => !(t.isl = isl && t.ctx = ctx)), ord := s1.ord.without isl ctx }

/-- The agents that acknowledge an invalidation: two compute dies, eight memory-side dies, the ingress MMU (R93). -/
def invalAgents : List Nat := List.range 11

/-- An invalidation broadcast on an island; each agent owes its acknowledgement (R93). -/
def startInval (s : State) (isl : Nat) (ctx : Option Nat) (base len : Nat) : State × Nat :=
  let q := s.take
  let n : Inval := { uid := q.1, isl := isl, ctx := ctx, base := base, len := len, left := invalAgents }
  (invalAgents.foldl (fun s a => s.owe (.tlbInvalidationAck q.1 a)) ({ q.2 with invals := q.2.invals ++ [n] }.forget (fun e => e.isl = isl)), q.1)

/-- The dropping of every translation of a context that an agent holds. -/
def invalDrop (s : State) (n : Inval) (agent : Nat) : State :=
  let mine := fun (e : TlbEntry) =>
    e.isl = n.isl && (if agent = 10 then e.unit = 130 else decide (e.unit < 128 ∧ dieOf e.unit = agent) || e.unit = 128 + agent)
      && (match n.ctx with
        | none => true
        | some c => e.ctx = c && decide (e.vbase < n.base + n.len) && decide (n.base < e.vbase + e.size))
  { s with tlb := s.tlb.filter (fun e => !mine e) }

/-! ### DISCARD (R416) -/

/-- A context's teams and Carters on an island stop, and its images, records and pending-launch entries go. A coach keeps its room while a copy that had
started moves its bytes (R186). A launch of which a task is discarded never completes by its tasks. -/
def discardStop (s : State) (isl ctx : Nat) : State :=
  let areas := fun (c : Coach) => [(1, c.sp.1, c.sp.2), (2, c.ab.1, c.ab.2), (3, c.wb.1, c.wb.2), (4, c.cb.1, c.cb.2)]
  let held := (List.range 128).map (fun k =>
    (ctx, k, ((s.coaches.filter (fun c => c.isl = isl && c.ctx = ctx && c.core = k && !c.swapped)).flatMap areas).filter (fun a => a.2.2 ≠ 0)))
  let mineK := fun (k : Task) => k.isl = isl && k.ctx = ctx
  let cut := (s.tasks.filter mineK).map (fun k => k.launch)
  let s1 := stopTeams s (fun t => t.id.isl = isl && t.id.ctx = ctx)
  let gone := (s1.threads.filter (fun t => t.id.kind = .carter && t.id.isl = isl && t.id.ctx = ctx)).map (fun t => t.id.core)
  let s2 := gone.foldl (fun s k => dropCarter s isl k) s1
  let kept := (s2.images.filter (fun i => i.isl = isl && i.ctx = ctx)).flatMap (fun i => i.streams)
  let free := (s2.streams.filter (fun x => x.isl = isl && x.chain = none && s2.waybills.any (fun w => w.uid = x.wb && w.ctx = ctx)) ++ kept).map
    (fun x => x.wb)
  let s3 := { s2 with
    streams := s2.streams.filter (fun x => !free.contains x.wb)
    tasks := s2.tasks.filter (fun k => !mineK k)
    images := s2.images.filter (fun i => !(i.isl = isl && i.ctx = ctx))
    launchQ := s2.launchQ.filter (fun e => !(e.isl = isl && e.ctx = ctx))
    waitMsgs := s2.waitMsgs.filter (fun w => !(w.isl = isl && gone.contains w.core))
    pushes := s2.pushes.filter (fun p => !(p.isl = isl && p.ctx = ctx))
    launches := s2.launches.map (fun (l : Launch) => if l.st = 1 ∧ cut.contains l.uid then { l with st := 3 } else l)
    waybills := s2.waybills.filter (fun w => !(w.isl = isl && w.ctx = ctx && w.needHeat && !w.heatHeld))
    firings := s2.firings.filter (fun f => !(f.isl = isl && f.ctx = ctx && decide (f.st ≤ 1))) }
  let s4 := (s2.waybills.filter (fun w => w.isl = isl && w.ctx = ctx && w.needHeat && !w.heatHeld)).foldl
    (fun s w => heatCancel s isl 1 w.uid) s3
  let s5 := (s2.firings.filter (fun f => f.isl = isl && f.ctx = ctx && f.st = 1)).foldl (fun s f => heatCancel s isl 2 f.uid) s4
  let s6 := (s5.waybills.filter (fun w => w.isl = isl && w.ctx = ctx && w.fault.isSome)).foldl (fun s w => abandonWaybill s w.uid) s5
  let s7 := (s2.coaches.filter (fun c => c.isl = isl && c.ctx = ctx)).foldl freeCoach s6
  (free.foldl (fun s u => s.oweOnce (.waybillComplete u)) s7).updIsland isl (fun i => { i with
    discard := some ctx, heldCores := i.heldCores ++ held.filter (fun h => (s.coreCtx isl h.2.1).v && (s.coreCtx isl h.2.1).ctx = ctx) })

/-- What a DISCARD waits for: waybills and Bellows work that had started, and the context's remote operations (R342, R416). -/
def discardWaits (s : State) (isl ctx : Nat) : Bool :=
  s.waybills.any (fun w => w.isl = isl && w.ctx = ctx) || s.firings.any (fun f => f.isl = isl && f.ctx = ctx)
    || s.frames.any (fun f => f.isl = isl && f.ctx = ctx && f.phase = 0) || s.atoms.any (fun a => a.isl = isl && a.ctx = ctx)
    || s.ord.late.any (fun a => a.isl = isl && a.ctx = ctx)

/-- The last two steps of a DISCARD: state freed, translations invalidated, cores no longer granted (R416). -/
def discardFinish (s : State) (isl ctx : Nat) : State :=
  let s1 := freeCtxState s isl ctx
  let s2 := { s1 with tlb := s1.tlb.filter (fun e => !(e.isl = isl && e.ctx = ctx)) }
  let s3 := { s2 with cores := s2.cores.map (fun (c : CoreCtx) => if c.isl = isl ∧ c.ctx = ctx then { c with v := false } else c) }
  (s3.updIsland isl (fun i => { i with discard := none })).oweOnce (.coachPlacement isl)

/-- DISCARD written: what it does now, and whether it is performed. -/
def discardStep (s : State) (isl : Nat) (val : Word64) : State × Bool :=
  let ctx := val.toNat
  if (s.island isl).resetting || ctx = 0 || decide (2 ^ 16 ≤ ctx) then (s, true)
  else
    let go := fun (s : State) => if discardWaits s isl ctx then (s, false) else (discardFinish s isl ctx, true)
    match (s.island isl).discard with
    | none => go (discardStop s isl ctx)
    | some c => if c = ctx then go s else (s, false)

/-! ### Registers without a behaviour of their own (R399, R406, R414, R415) -/

/-- L2WAYMASK of a function. -/
def waymask (i : Island) (f : Nat) : BitVec 16 := ((i.l2way.find? (fun w => w.1 = f)).map (fun w => w.2)).getD 0xFFFF

/-- A register of the control block that only holds what is written. -/
def writePlain (s : State) (isl off : Nat) (val : Word64) : State :=
  if (s.island isl).resetting then s
  else if 0x100 ≤ off ∧ off < 0x200 ∧ off % 8 = 0 then
    let f := (off - 0x100) / 8
    s.updIsland isl (fun i => { i with l2way := (f, val.truncate 16) :: i.l2way.filter (fun w => w.1 ≠ f) })
  else if off = 0x208 then s.updIsland isl (fun i => { i with cutfrac := val.truncate 8 })
  else if 0x300 ≤ off ∧ off < 0x400 ∧ off % 8 = 0 then
    s.updIsland isl (fun i => { i with ecap := spSet i.ecap ((off - 0x300) / 8) val })
  else s

/-! ### The block as a whole (R399) -/

/-- An address of context 0 lies in the control block. -/
def ctrlHit (va : Nat) : Bool := decide (ctrlBase ≤ va) && decide (va < ctrlBase + ctrlSize)

/-- Bad-line entry e of a die (R399). -/
def bltWord (i : Island) (d e : Nat) : Word64 :=
  match (i.blt.filter (fun b => b.1 = d))[e]? with
  | none => 0
  | some b => BitVec.ofNat 64 (b.2 * 128 + 1)

/-- A register of the control block read; one that is only written reads as zero (R7). What no register gives is a free value. -/
def ctrlRead (s : State) (isl off : Nat) : State × Word64 :=
  let i := s.island isl
  if off = 0 then (s, hearthWord i)
  else if 0x100 ≤ off ∧ off < 0x200 then (s, (waymask i ((off - 0x100) / 8)).zeroExtend 64)
  else if off = 0x200 then (s, i.fwmask)
  else if off = 0x208 then (s, i.cutfrac.zeroExtend 64)
  else if 0x300 ≤ off ∧ off < 0x400 then (s, spGet i.ecap ((off - 0x300) / 8))
  else if 0x400 ≤ off ∧ off < 0x800 then
    let c := s.coreCtx isl ((off - 0x400) / 8)
    (s, BitVec.ofNat 64 (c.ctx % 2 ^ 16 + c.fn % 32 * 2 ^ 16 + b2n c.err * 2 ^ 29 + b2n c.q * 2 ^ 30 + b2n c.v * 2 ^ 31))
  else if 0x800 ≤ off ∧ off < 0x900 then (s, spGet (s.meter isl).energy ((off - 0x800) / 8))
  else if 0x900 ≤ off ∧ off < 0xA00 then
    (if off % 16 = 0 then (s, spGet i.ctxId ((off - 0x900) / 16))
    else (s, spGet (s.meter isl).ctxen ((off - 0x900) / 16)))
  else if 0xC00 ≤ off ∧ off < 0xE00 then
    let k := s.keySlot isl ((off - 0xC00) / 8)
    (s, if k.v then BitVec.ofNat 64 (k.ctx % 2 ^ 16 + 2 ^ 16) else 0)
  else if off = 0xE00 ∨ off = 0xE18 ∨ off = 0xE20 ∨ off = 0xE28 then (s, 0)
  else if off = 0xE08 then (s, if i.resetting then 0 else BitVec.ofNat 64 i.fastat)
  else if off = 0xE10 then (s, scrubProg i)
  else if 0x2000 ≤ off ∧ off < 0x3000 then (s, bltWord i ((off - 0x2000) / 512) ((off - 0x2000) / 8 % 64))
  else if 0x3000 ≤ off ∧ off < 0x3040 then (s, spGet i.cecnt ((off - 0x3000) / 8))
  else if off = 0x3040 ∨ off = 0x3048 then (s, spGet i.cecore ((off - 0x3040) / 8))
  else if off = 0x3050 then (s, i.uecnt)
  else if off = 0x3058 then (s, i.temp.zeroExtend 64)
  else if 0x3100 ≤ off ∧ off < 0x3180 then
    (s, spGet (if off % 16 = 0 then i.linkSent else i.linkRetry) ((off - 0x3100) / 16))
  else if 0x3180 ≤ off ∧ off < 0x31C0 then
    (s, (((i.margin.find? (fun (m : Nat × BitVec 8) => m.1 = (off - 0x3180) / 8)).map (fun (m : Nat × BitVec 8) => m.2)).getD 255).zeroExtend 64)
  else
    let q := s.take
    (q.2, Config.freeWord q.1)

/-- A register of the control block written, and whether the write is performed: a DISCARD may have to wait. -/
def ctrlWrite (s : State) (isl off : Nat) (val : Word64) : State × Bool :=
  if off = 0 then (writeBudget s isl val, true)
  else if off = 0x200 then (writeFwmask s isl val, true)
  else if 0x400 ≤ off ∧ off < 0x800 then (writeCorectx s isl ((off - 0x400) / 8) val, true)
  else if 0xC00 ≤ off ∧ off < 0xE00 then (writeKeyslot s isl ((off - 0xC00) / 8) val, true)
  else if off = 0xE00 then ((if val.getLsbD 20 then quarantineFrames s isl val else assignFrames s isl val), true)
  else if off = 0xE18 then ((if val = 1 then startScrub s isl else s), true)
  else if off = 0xE20 then ((if val = 1 then startReset s isl else s), true)
  else if off = 0xE28 then discardStep s isl val
  else (writePlain s isl off val, true)

/-- An access to the control block waits behind a DISCARD that is not yet performed: accesses are performed in arrival order (R399). -/
def ctrlWaits (s : State) (isl off : Nat) (wr : Bool) (val : Word64) : Bool :=
  match (s.island isl).discard with
  | none => false
  | some c => !(wr && off = 0xE28 && val.toNat = c)

/-! ### The steps -/

/-- A write that the driver makes waits behind a DISCARD that is not yet performed (R399). -/
def inTurn (isl : Nat) (f : State → State) (s : State) : State := if (s.island isl).discard.isSome then waitStep s s.ev else f s

def execHearthBudgetWrite (s : State) : Result :=
  goOn (match s.ev with
    | .hearthBudgetWrite isl v => inTurn isl (fun s => writeBudget s isl v) s
    | _ => s)

def execFwmaskWrite (s : State) : Result :=
  goOn (match s.ev with
    | .fwmaskWrite isl v => inTurn isl (fun s => writeFwmask s isl v) s
    | _ => s)

def execCorectxWrite (s : State) : Result :=
  goOn (match s.ev with
    | .corectxWrite isl core v => if core < 128 then inTurn isl (fun s => writeCorectx s isl core v) s else s
    | _ => s)

def execKeyZeroise (s : State) : Result :=
  goOn (match s.ev with
    | .keyZeroise isl k => if k < 64 then inTurn isl (fun s => writeKeyslot s isl k 0x20000) s else s
    | _ => s)

def execFareqAssign (s : State) : Result :=
  goOn (match s.ev with
    | .fareqAssign isl v => if v.getLsbD 20 then s else inTurn isl (fun s => assignFrames s isl v) s
    | _ => s)

def execFareqQuarantine (s : State) : Result :=
  goOn (match s.ev with
    | .fareqQuarantine isl v => if v.getLsbD 20 then inTurn isl (fun s => quarantineFrames s isl v) s else s
    | _ => s)

def execScrubStart (s : State) : Result :=
  goOn (match s.ev with
    | .scrubStart isl => inTurn isl (fun s => startScrub s isl) s
    | _ => s)

/-- SCRUB_UNIT: a unit completes every 25 ticks, and none during a reset (R410, R412). -/
def execScrubUnit (s : State) : Result :=
  goOn (match s.ev with
    | .scrubUnit isl =>
      let i := s.island isl
      if i.scrubRun && !i.resetting && decide (i.scrubAt + unitCycles * (i.scrubDone + 1) ≤ s.cycle) then
        let s1 := scrubUnit s isl
        let j := s1.island isl
        if j.scrubRun && decide (j.scrubAt + unitCycles * (j.scrubDone + 1) ≤ s.cycle) then s1.oweOnce (.scrubUnit isl) else s1
      else s
    | _ => s)

def execIslandReset (s : State) : Result :=
  goOn (match s.ev with
    | .islandReset isl => inTurn isl (fun s => startReset s isl) s
    | _ => s)

def execIslandResetEnd (s : State) : Result :=
  goOn (match s.ev with
    | .islandResetEnd isl =>
      if (s.island isl).resetting && decide ((s.island isl).resetAt + resetCycles ≤ s.cycle) then endReset s isl else s
    | _ => s)

/-- DISCARD: until it is performed it comes about again. -/
def execDiscard (s : State) : Result :=
  goOn (match s.ev with
    | .discard isl v =>
      let q := discardStep s isl v
      if q.2 then q.1 else waitStep q.1 (.discard isl v)
    | _ => s)

def execRegisterWrite (s : State) : Result :=
  goOn (match s.ev with
    | .registerWrite bar unit off v => if bar then writeBar s unit off v else inTurn unit (fun s => writePlain s unit off v) s
    | _ => s)

/-- ENERGY_WINDOW: the window's charges and the cuts end (R403). -/
def execEnergyWindow (s : State) : Result :=
  goOn (match s.ev with
    | .energyWindow isl => s.setMeter { s.meter isl with winEnergy := [], cut := [] }
    | _ => s)

/-- A range of a context, or of every one, that an invalidation names (R93). -/
def Inval.names (n : Inval) (ctx va len : Nat) : Bool :=
  match n.ctx with
  | none => true
  | some c => ctx = c && decide (n.base < va + len) && decide (va < n.base + n.len)

/-- An access that may have used a translation has not completed: an atomic of a die's cores at an address that the invalidation names, any load or store of
a team or a Carter of its context there, or the write of a SETW at such an address. -/
def invalOpen (s : State) (n : Inval) (die : Nat) : Bool :=
  s.atoms.any (fun x => x.isl = n.isl && dieOf x.core = die && n.names x.ctx x.va.toNat 8)
    || s.due.any (fun e => match e with
      | .writeArrival sp isl _ _ bs ctx va => sp = 0 && isl = n.isl && n.names ctx va bs.length
      | _ => false)
    || s.threads.any (fun t => t.id.kind ≠ .hub && t.id.isl = n.isl && dieOf t.id.core = die && (n.ctx = none || n.ctx = some t.id.ctx)
      && t.fl.ops.any (fun o => o.cls = .ld || o.cls = .st))

/-- The contexts whose timeline region a parked agent that meets a test watches and that no longer translates there (R385). -/
def lostTimelines (s : State) (p : Thread → Nat → Bool) : List (Nat × Nat) :=
  ((s.threads.filter (fun t => match t.sch.park with
    | .timeline n _ _ _ _ _ =>
      let va := timelineVa s t.id.isl t.id.ctx (timelineUnit t n) n
      p t va && (peek s t.id.isl t.id.ctx va).isNone
    | .none => false
    | .word _ _ _ _ _ _ => false
    | .counter _ _ _ _ => false
    | .launch => false
    | .fuse _ _ _ _ => false
    | .group _ _ _ _ => false
    | .arrive _ _ => false
    | .yard => false
    | .page _ => false)).map (fun t => (t.id.isl, t.id.ctx))).eraseDups

/-- The key of a watched word that does not translate: no write reaches it. -/
def noKey : Nat := 2 ^ 62

/-- The watched words of the parked agents that meet a test translated again, and looked at (R93). A wait whose word no longer translates has no word
until it does (DESIGN CHOICE, log 40); a timeline region that no longer does ends its context (R385). -/
def rewatch (s : State) (p : Thread → Nat → Bool) : State :=
  let again := fun (t : Thread) (va key : Nat) => if p t va then ((peek s t.id.isl t.id.ctx va).map (memKey t.id.isl)).getD noKey else key
  let f := fun (t : Thread) =>
    match t.sch.park with
    | .word va key v m a sc => { t with sch := { t.sch with park := .word va (again t va.toNat key) v m a sc } }
    | .timeline n key v m a sc =>
      { t with sch := { t.sch with park := .timeline n (again t (timelineVa s t.id.isl t.id.ctx (timelineUnit t n) n) key) v m a sc } }
    | .none => t
    | .counter _ _ _ _ => t
    | .launch => t
    | .fuse _ _ _ _ => t
    | .group _ _ _ _ => t
    | .arrive _ _ => t
    | .yard => t
    | .page _ => t
  let holds := fun (t : Thread) => match t.sch.park with
    | .word va key v m _ _ => p t va.toNat && key ≠ noKey && waitHolds m (wordAt s key) v
    | .timeline n key v m _ _ => p t (timelineVa s t.id.isl t.id.ctx (timelineUnit t n) n) && key ≠ noKey && waitHolds m (wordAt s key) v
    | .none => false
    | .counter _ _ _ _ => false
    | .launch => false
    | .fuse _ _ _ _ => false
    | .group _ _ _ _ => false
    | .arrive _ _ => false
    | .yard => false
    | .page _ => false
  let s1 := s.mapT f
  oweWakes s1 (s1.uidsOf holds)

/-- TLB_INVALIDATION_ACK: an agent drops what matches, and acknowledges once every access that used it has completed (R93). -/
def execTlbInvalidationAck (s : State) : Result :=
  goOn (match s.ev with
    | .tlbInvalidationAck u a =>
      (match s.invals.find? (fun n => n.uid = u) with
      | none => s
      | some n =>
        if !n.left.contains a then s
        else
          let s1 := invalDrop s n a
          if decide (a < 2) && invalOpen s1 n a then waitStep s1 (.tlbInvalidationAck u a)
          else
            let l := n.left.filter (fun x => x ≠ a)
            let hit := fun (t : Thread) (va : Nat) => t.id.isl = n.isl && dieOf t.id.core = a && n.names t.id.ctx va 8
            let s2 := if a < 2 then (lostTimelines s1 hit).foldl (fun s x => regionLost s x.1 x.2) (rewatch s1 hit) else s1
            { s2 with invals := if l = [] then s2.invals.filter (fun m => m.uid ≠ u)
                        else s2.invals.map (fun (m : Inval) => if m.uid = u then { m with left := l } else m) })
    | _ => s)

end Sys2Proof.Machine
end

