-- ==== Sys2Proof/Machine/Anvil.lean ====
section
/-!
DEFINITION. Chains, the yard and the Anvil (majors 0x3B and 0x3C; R146-R161, R304-R313, R420).
-/
namespace Sys2Proof.Machine

/-! ### Chains as teams describe them -/

/-- A yard entry by its handle. -/
def State.chain? (s : State) (u : Nat) : Option Chain := s.yard.find? (fun c => c.uid = u)

/-- A yard entry written. -/
def State.setChain (s : State) (c : Chain) : State := { s with yard := s.yard.map (fun d => if d.uid = c.uid then c else d) }

/-- The open chain of the running team (R149). -/
def openChain (s : State) : Option Chain := s.cur.an.chain.bind (fun u => s.chain? u)

/-- The open chain of the running team, set. -/
def State.openAs (s : State) (u : Option Nat) : State := s.updCur (fun t => { t with an := { t.an with chain := u } })

/-- K of a shape record: 0 means 65,536 (R150). -/
def shapeK (w : Nat) : Nat := if bitsOf w 47 32 = 0 then 65536 else bitsOf w 47 32

/-- A shape record is valid on an Anvil, with or without a group slot (R151). -/
def shapeOk (maxM8 w : Nat) (coop : Bool) : Bool :=
  let m := bitsOf w 15 0
  let n := bitsOf w 31 16
  bitsOf w 63 58 = 0 && bitsOf w 49 48 = 0 && shapeK w % 32 = 0 && n % 8 = 0 && decide (8 ≤ n) && decide (n ≤ 256)
    && m % 8 = 0 && decide (8 ≤ m) && decide (m ≤ 8 * maxM8) && decide (bitsOf w 54 52 ≤ bitsOf w 57 55)
    && (coop || (bitsOf w 57 55 = 0 && bitsOf w 54 52 = 0 && bitsOf w 51 50 = 0))

/-- MCHB (R305): `y` is ANY, `c` COOP and `g` the group slot. -/
def execMchb (a b : BitVec 6) (y c : BitVec 1) (g : BitVec 2) (s : State) : Result :=
  let t := s.cur
  let w := (s.rdS a).toNat
  let base := (s.rdS b).toNat
  let m := bitsOf w 15 0
  let n := bitsOf w 31 16
  let grp := if c = 1 then slotEntry t g else none
  let lim := (cbRange s).2
  goOn (if t.an.chain.isSome then trapPlain s causeChainState
    else if !shapeOk (s.maxM8 t.id.isl t.id.core) w (c = 1) || (c = 1 && grp.isNone) then trapPlain s causeShape
    else if lim < base + m * n then takeTrap s (addrFx causeUnmapped (BitVec.ofNat 64 (max base lim)) 0xFF 4)
    else if 64 ≤ (s.yard.filter (fun d => d.isl = t.id.isl && d.core = t.id.core)).length then parkRetry s .yard
    else
      let q := beginOp s .tl 1
      let u := q.1.take
      let e : Chain :=
        { uid := u.1, isl := t.id.isl, core := t.id.core, ctx := t.id.ctx, team := t.id.uid, coach := t.id.coach, m := m, n := n, k := shapeK w
          base := base, mask := (t.rdS (b.toNat + 1)).truncate 32, any := y = 1, group := grp, nrow := bitsOf w 57 55, crow := bitsOf w 54 52
          ccol := bitsOf w 51 50, prio := t.id.prio, mmas := [], num := 0, mche := 0, order := 0, lead := u.1, begun := false, st := .open_, applied := []
          op := q.2, status := 0, xpc := t.sc.pc, insn := t.sc.insn }
      (({ u.2 with yard := u.2.yard ++ [e] }).openAs (some u.1)).retire)

/-- The A-side scales of an MMA at issue, by block and row: row r in lane r mod W of register vs + 4 × (sel + j) + (r div W) (R157). -/
def mmaScales (t : Thread) (v sel count m : Nat) : List (List Word32) :=
  (List.range count).map (fun j => (List.range m).map (fun r => t.rdV (v + 4 * (sel + j) + r / t.id.width) (r % t.id.width)))

/-- MMA (R306, R308): `e` is sel, `c` sc and `o` ov. -/
def execMma (f : BitVec 5) (v : BitVec 7) (e : BitVec 2) (b : BitVec 6) (p : BitVec 3) (c o : BitVec 1) (s : State) : Result :=
  let t := s.cur
  let count := (s.rdS b).toNat
  goOn (match openChain s with
    | none => trapPlain s causeChainState
    | some x =>
      let first := x.mmas.head?
      let differs := match first with
        | none => false
        | some r => r.fmt ≠ f.toNat || r.scaled != (c = 1) || o = 1
      if differs then trapPlain s causeChainState
      else if count = 0 || decide (2048 < count) || (c = 1 && (decide (4 * t.id.width < x.m) || decide (4 < e.toNat + count))) then
        trapPlain s causeShape
      else
        let r : MmaRec :=
          { count := count, fmt := f.toNat, scaled := c = 1, ov := o = 1, width := t.id.width, active := laneMask (t.activeLanes p.toNat)
            scales := if c = 1 then mmaScales t v.toNat e.toNat count x.m else [] }
        (s.setChain { x with mmas := x.mmas ++ [r] }).retire)

/-- MCHE (R311): the chain takes the next number of the core's Anvil timeline and waits for its counters. -/
def execMche (d : BitVec 6) (s : State) : Result :=
  let i := s.cur.id
  goOn (match openChain s with
    | none => trapPlain s causeChainState
    | some x =>
      let n := nextOp s i.isl i.ctx i.core 4
      let q := s.take
      let s1 := (closeOp q.2 i.isl i.ctx i.core 4).setChain { x with num := n, mche := q.1, st := .waiting }
      yardLook (((s1.openAs none).wrS d (BitVec.ofNat 64 n)).retire) i.isl i.core)

/-- MZACC (R312). -/
def execMzacc (a b : BitVec 6) (s : State) : Result :=
  let i := s.cur.id
  let lo := (s.rdS a).toNat
  let n := (s.rdS b).toNat
  let r := cbRange s
  goOn (if n ≠ 0 ∧ r.2 < lo + n then takeTrap s (addrFx causeUnmapped (BitVec.ofNat 64 (max lo r.2)) 2 4)
    else (beginAccess (putSlots (storeUsed s i.isl i.ctx (8 * n)) i.isl i.core ((List.range n).map (fun k => (r.1 + lo + k, 0)))) .st).retire)

/-- MCAP: MAXCO, MAXN8 and the MAXM8 of its core's Anvil (R159, R313). -/
def execMcap (d : BitVec 6) (s : State) : Result :=
  goOn ((s.wrS d (BitVec.ofNat 64 (32 * 2 ^ 16 + 32 * 2 ^ 8 + s.maxM8 s.cur.id.isl s.cur.id.core))).retire)

/-- MSTAT, which `.clr` clears (R313). -/
def execMstat (d : BitVec 6) (c : BitVec 1) (s : State) : Result :=
  let s1 := s.wrS d (s.cur.an.mstat.zeroExtend 64)
  goOn ((if c = 1 then s1.updCur (fun t => { t with an := { t.an with mstat := 0 } }) else s1).retire)

/-! ### The end of a chain (R152, R153, R161, R311) -/

/-- Bits of the Anvil status (R313). -/
def msWrap : BitVec 4 := 1
def msOvf : BitVec 4 := 2
def msNan : BitVec 4 := 4
def msAbort : BitVec 4 := 8

/-- The yard entries of a core, those of its coaches that are swapped out among them (R160). -/
def allChains (s : State) (isl core : Nat) : List Chain :=
  (s.yard ++ s.images.flatMap (fun i => i.chains)).filter (fun c => c.isl = isl && c.core = core)

/-- The Anvil timelines of a core looked at: each is raised to the largest n such that chains 1 to n have completed (R161). -/
def anvilTimeline (s : State) (isl core : Nat) : State :=
  (s.timelines.filter (fun t => t.isl = isl && t.unit = core && t.num = 4)).foldl (fun s t =>
    let u := s.timeline isl t.ctx core 4
    let n := raisedTo u.given (((allChains s isl core).filter (fun c => c.ctx = u.ctx && c.st ≠ .open_)).map (fun c => c.num))
    if u.raised < n then timelineRaise s u n else s) s

/-- The teams of a core that wait for a yard entry. -/
def yardWaiters (s : State) (isl core : Nat) : List Nat := s.uidsOf (fun t => t.id.isl = isl && t.id.core = core && t.sch.park = .yard)

/-- A deferred cause left on a team; beyond 8 pending it is lost (R153). -/
def addDeferred (d : Deferred) (t : Thread) : Thread :=
  if t.an.deferred.length < 8 then { t with an := { t.an with deferred := t.an.deferred ++ [d] } }
  else { t with an := { t.an with lost := min 65535 (t.an.lost + 1) } }

/-- A stream leaves its FIFO, and its waybill is complete. -/
def dropStream (s : State) (u : Nat) : State := ({ s with streams := s.streams.filter (fun x => x.wb ≠ u) }).oweOnce (.waybillComplete u)

/-- The streams that a chain has taken for itself, and that no other chain of its column still takes (R152, R158). -/
def chainStreams (s : State) (c : Chain) : List Nat :=
  (s.streams.filter (fun x => x.chain = some (if x.isA then c.uid else c.lead) && (streamUsers s x).all (fun d => d.uid = c.uid))).map
    (fun x => x.wb)

/-- A chain complete or stopped: tl falls, the status joins its team's, the entry frees, the heat returns, the timeline advances. -/
def chainEnd (s : State) (c : Chain) (status : BitVec 4) : State :=
  let s1 := (chainStreams s c).foldl dropStream s
  let s2 := opDeliver s1 c.op [] [] (fun t => { t with an := { t.an with mstat := t.an.mstat ||| status } })
  let s3 := heatReturn { s2 with yard := s2.yard.filter (fun d => d.uid ≠ c.uid) } c.isl 1
  (oweWakes (anvilTimeline s3 c.isl c.core) (yardWaiters s3 c.isl c.core)).oweOnce (.chainDispatch c.isl c.core)

/-- A chain aborted or stopped by an error, with its deferred cause (R152, R153, R420). -/
def chainStop (s : State) (c : Chain) (cause : BitVec 16) (xaddr : Word64) : State :=
  let d : Deferred := { num := c.num, cause := cause, xpc := c.xpc, insn := c.insn, xaddr := xaddr, time := s.time }
  chainEnd (s.updT c.team (addDeferred d)) c (c.status ||| msAbort)

/-! ### Dispatch (R70, R152, R158, CHAIN_DISPATCH) -/

/-- The operand formats of a pair: A and B (R307). -/
def pairFmts (f : Nat) : Nat × Nat :=
  if f = 0 then (0, 0) else if f = 1 then (0, 1) else if f = 2 then (0, 2) else if f = 3 then (3, 3) else if f = 4 then (3, 4)
  else if f = 5 then (4, 3) else if f = 6 then (4, 4) else if f = 7 then (5, 5) else if f = 8 then (6, 6) else (3, 2)

/-- The oldest untaken stream of a core's FIFO. -/
def untaken (s : State) (isl core : Nat) (isA : Bool) : Option Stream :=
  s.streams.find? (fun x => x.isl = isl && x.core = core && x.isA = isA && x.chain.isNone)

/-- The accesses that a chain's team made before its MCHB have completed (R106). -/
def chainClear (s : State) (c : Chain) : Bool :=
  s.threads.all (fun t => !t.holds c.op || t.fl.ops.all (fun o => decide (c.op ≤ o.id) || !(o.cls = .ld || o.cls = .st)))

/-- A core's Anvil is free. -/
def anvilFree (s : State) (isl core : Nat) : Bool := s.yard.all (fun c => !(c.isl = isl && c.core = core && c.st = .running))

/-- A granted chain may go before the others of its team: no earlier MCHE of the team is still in the yard (R70). -/
def firstOfTeam (s : State) (c : Chain) : Bool :=
  s.yard.all (fun d => !(d.team = c.team && d.st ≠ .open_ && decide (d.mche < c.mche)))

/-- The granted entries of a column that have not been dispatched (R158). -/
def columnEnts (s : State) (c : Chain) : List Chain :=
  s.yard.filter (fun d =>
    d.isl = c.isl && d.ctx = c.ctx && d.group = c.group && d.ccol = c.ccol && d.st = .hasHeat && !d.begun && firstOfTeam s d)

/-- The one of some entries with the earliest MCHE. -/
def firstMche (es : List Chain) : Option Chain :=
  es.foldl (fun o d => match o with
    | none => some d
    | some e => if d.mche < e.mche then some d else some e) none

/-- The entries of a column that belong to its current round: of those with one row on one core, the one of the earliest MCHE (R158). -/
def columnNow (es : List Chain) : List Chain := es.filter (fun d => es.all (fun e => e.crow ≠ d.crow || e.core ≠ d.core || decide (d.mche ≤ e.mche)))

/-- The entries of a column disagree on its shape, or lie on more than one core at a row (R158). -/
def columnBad (es : List Chain) : Bool :=
  es.any (fun d => es.any (fun e => d.k ≠ e.k || d.n ≠ e.n || d.nrow ≠ e.nrow || (d.crow = e.crow && d.core ≠ e.core)))

/-- The chains that are dispatched together with a candidate: itself, or its whole column by row, the first row at the head, with whether they
are aborted; none while a row is missing. A column that disagrees is aborted whole; where its entries disagree on NROW, the least one says how many rows it
waits for (R158; DESIGN CHOICE, log 40). A round that a save stopped goes on with the rows that have not completed (R160). Two rows on one core are never
dispatched, since an Anvil runs one chain at a time (R155; DEDUCED, log 40). -/
def roundOf (s : State) (c : Chain) : Option (List Chain × Bool) :=
  if c.group.isNone then some ([c], false)
  else if c.begun then
    let ds := s.yard.filter (fun d => d.begun && d.lead = c.lead)
    if ds.all (fun d => d.st = .hasHeat) then some (ds, false) else none
  else
    let es := columnNow (columnEnts s c)
    let nrow := es.foldl (fun n d => min n d.nrow) c.nrow
    let rows := (List.range (nrow + 1)).map (fun r => firstMche (es.filter (fun d => d.crow = r)))
    let ds := rows.filterMap (fun r => r)
    if !rows.all (fun r => r.isSome) then none
    else if columnBad es then some (ds ++ es.filter (fun e => !ds.any (fun d => d.uid = e.uid)), true)
    else if (ds.map (fun d => d.core)).eraseDups.length = ds.length then some (ds, false)
    else none

/-- The streams that a round takes, one chain after another: its core's oldest untaken A stream, and for a chain of row 0 its oldest untaken B
stream; none while one is missing (R152, R158). A round that a save stopped has its streams (R160). -/
def takeStreams (s : State) : List Chain → Option State
  | [] => some s
  | d :: ds =>
    if d.begun then takeStreams s ds
    else match untaken s d.isl d.core true with
    | none => none
    | some a =>
      let s1 := s.setStream { a with chain := some d.uid }
      if d.crow ≠ 0 then takeStreams s1 ds
      else match untaken s1 d.isl d.core false with
        | none => none
        | some b => takeStreams (s1.setStream { b with chain := some d.uid }) ds

/-- A chain passes the checks of R152 and R310 against its headers. -/
def headersOk (c : Chain) (a b : Stream) : Bool :=
  match c.mmas.head? with
  | none => false
  | some r => a.smn = c.m && b.smn = c.n && a.sk = c.k && b.sk = c.k && a.sfmt = (pairFmts r.fmt).1 && b.sfmt = (pairFmts r.fmt).2
      && (c.mmas.map (fun x => x.count)).sum = c.k / 32 && b.scl = r.scaled

/-- The first physical slot of a chain's tile (R151). -/
def chainSlot (s : State) (c : Chain) : Nat := 128 * ((s.coach? c.coach).map (fun x => x.cb.1)).getD 0 + c.base

/-- The rows of a chain whose lanes were active for an MMA (R156). -/
def mmaRows (c : Chain) (r : MmaRec) : List Nat := (List.range c.m).filter (fun i => r.active.getLsbD (i % r.width))

/-- The slots that the first MMA's `.ov` zeroes (R309). -/
def ovZero (s : State) (c : Chain) : State :=
  match c.mmas.head? with
  | none => s
  | some r =>
    if r.ov then
      let ws := (mmaRows c r).flatMap (fun i => (List.range c.n).map (fun j => (chainSlot s c + i * c.n + j, 0)))
      putSlots (storeUsed s c.isl c.ctx (8 * ws.length)) c.isl c.core ws
    else s

/-- The streams of a running chain: its A stream, and the B stream of its column. -/
def chainAB (s : State) (c : Chain) : Option (Stream × Stream) := do
  let a ← s.streams.find? (fun x => x.isA && x.chain = some c.uid)
  let b ← s.streams.find? (fun x => !x.isA && x.chain = some c.lead)
  return (a, b)

/-- A chain passes the checks of R152 and R310 against the headers of the streams that it has taken. -/
def chainPasses (s : State) (c : Chain) : Bool :=
  match chainAB s c with
  | none => false
  | some (a, b) => headersOk c a b

/-- A chain of a round starts, or is aborted where it fails its checks or the round is bad; one that goes on after a save has its slots (R152,
R155, R160, R309). -/
def startChain (bad : Bool) (s : State) (c : Chain) : State :=
  if bad || !chainPasses s c then chainStop s c causeMismatch 0
  else (if c.begun then s else ovZero s c).oweOnce (.kblockApply c.isl c.core c.applied.length)

/-- A round is dispatched, with its streams taken: its chains run, each that fails a check is aborted, and the streams of the others are
pushed (R121, R152, R158). -/
def dispatchRound (s : State) (ds : List Chain) (bad : Bool) : State :=
  let lead := (ds.head?.map (fun c => c.uid)).getD 0
  let rs := ds.map (fun c => { c with st := .running, lead := if c.begun || c.crow = 0 then c.lead else lead })
  let s1 := (rs.foldl (startChain bad) (rs.foldl State.setChain s))
  let s2 : State := { s1 with yard := s1.yard.map (fun (c : Chain) => if rs.any (fun d => d.uid = c.uid) then { c with begun := true } else c) }
  (s2.streams.filter (fun x => rs.any (fun c => x.chain = some c.uid || x.chain = some c.lead))).foldl (fun s x => s.oweOnce (.streamBlockPush x.wb)) s2

/-- The chains of a core that may be dispatched, in the order of R70: by heat grant, ties to the earlier MCHE. -/
def candidates (s : State) (isl core : Nat) : List Chain :=
  s.yard.filter (fun c => c.isl = isl && c.core = core && c.st = .hasHeat && firstOfTeam s c && (roundOf s c).isSome)

/-- A chain's heat was granted before another's, ties to the earlier MCHE (R70). -/
def Chain.before (c d : Chain) : Bool := decide (c.order < d.order) || (c.order = d.order && decide (c.mche < d.mche))

/-- The candidate of the earliest grant. -/
def earliest (cs : List Chain) : Option Chain :=
  cs.foldl (fun o c => match o with
    | none => some c
    | some d => if c.before d then some c else some d) none

/-- The rounds of an island that could be dispatched. -/
def roundsOf (s : State) (isl : Nat) : List (List Chain) :=
  (s.yard.filter (fun c => c.isl = isl && c.st = .hasHeat && firstOfTeam s c)).filterMap (fun c => (roundOf s c).map (fun r => r.1))

/-- The earliest grant of a round. -/
def roundOrder (ds : List Chain) : Nat := ((ds.map (fun d => d.order)).min?).getD 0

/-- A round goes before another in the yards that both wait in: on every core that they share by the order of grants (R70); where their cores disagree on
that order, the one with the earliest grant of all (DESIGN CHOICE, log 40). -/
def roundBefore (a b : List Chain) : Bool :=
  let ps := a.flatMap (fun x => (b.filter (fun y => y.core = x.core && y.uid ≠ x.uid)).map (fun y => x.before y))
  ps.any (fun q => q) && (ps.all (fun q => q) || decide (roundOrder a < roundOrder b))

/-- A round's turn has come on every core of it: no other goes before it; where each waits for another, the one with the earliest grant goes. -/
def roundTurn (s : State) (isl : Nat) (ds : List Chain) : Bool :=
  let rs := roundsOf s isl
  let first := fun (r : List Chain) => rs.all (fun q => !roundBefore q r)
  first ds || (rs.all (fun r => !first r) && rs.all (fun r => decide (roundOrder ds ≤ roundOrder r)))

/-- CHAIN_DISPATCH: the yard of a core offers its next chain to a free Anvil, with the headers of its streams there. -/
def execChainDispatch (s : State) : Result :=
  goOn (match s.ev with
    | .chainDispatch isl core =>
      let s0 := oweWakes (anvilTimeline s isl core) (yardWaiters s isl core)
      match earliest ((candidates s0 isl core).filter (fun c => ((roundOf s0 c).map (fun r => roundTurn s0 isl r.1)).getD false)) with
      | none => s0
      | some c =>
        match roundOf s0 c with
        | none => s0
        | some (ds, bad) =>
          if ds.all (fun d => anvilFree s0 d.isl d.core && chainClear s0 d) then
            match takeStreams s0 ds with
            | none => s0
            | some s1 => dispatchRound s1 ds bad
          else s0
    | _ => s)

/-- The chains that waited for the accesses of some agents are looked at again (R106). -/
def yardClear (s : State) (ts : List Thread) : State :=
  ((ts.map (fun t => (t.id.isl, t.id.core))).eraseDups).foldl (fun s p =>
    if s.yard.any (fun c => c.isl = p.1 && c.core = p.2 && c.st = .hasHeat) then s.oweOnce (.chainDispatch p.1 p.2) else s) s

/-! ### k-blocks (R146-R148, R155, R309, KBLOCK_APPLY) -/

/-- An element of an operand as an exact value, by SFMT (R121, R135, R140). -/
def elemFp (f : Nat) (x : Word32) : Fp :=
  let int := fun (v : Int) => Fp.fin (v < 0) v.natAbs 0
  if f = 0 then int (sextNat x.toNat 8) else if f = 1 then int (sextNat x.toNat 4) else if f = 2 then ts8Fp x.toNat
  else if f = 3 then e4m3.decode x.toNat else if f = 4 then e5m2.decode x.toNat else if f = 5 then bf16.decode x.toNat
  else if f = 6 then fp16.decode x.toNat else fp32.decode x.toNat

/-- An element of an integer chain: INT8, INT4, or TS8 in 64ths. -/
def elemInt (f : Nat) (x : Word32) : Int := if f = 0 then sextNat x.toNat 8 else if f = 1 then sextNat x.toNat 4 else ts8Value x.toNat

/-- The exact sum of the products of two rows of 32 elements (R146). -/
def dotFp (fa fb : Nat) (a b : List Word32) : Fp :=
  (List.zipWith (fun x y => (fpMul (elemFp fa x) (elemFp fb y)).1) a b).foldl (fun acc p => (fpSum rne acc p).1) (.fin false 0 0)

/-- The same of an integer chain, in units of its slot format: q × d (R309). -/
def dotInt (fa fb : Nat) (a b : List Word32) : Int := (List.zipWith (fun x y => elemInt fa x * elemInt fb y) a b).foldl (· + ·) 0

/-- Whether a value is finite. -/
def Fp.isFin : Fp → Bool
  | .nan => false
  | .inf _ => false
  | .fin _ _ _ => true

/-- A float step: the new slot and its status (R146, R309). -/
def stepFloat (acc : BitVec 56) (d : Fp) (scales : Option (Word32 × Word32)) : BitVec 56 × BitVec 4 :=
  let t := match scales with
    | none => d
    | some (a, b) => (fpMul d (fp32.decode (fMul fp32 rne a.toNat b.toNat).1)).1
  let x := e11m44.decode acc.toNat
  let r := (deliver e11m44 rne (fpSum rne x t)).1
  let fin := x.isFin && d.isFin && (match scales with
    | none => true
    | some (a, b) => (fp32.decode a.toNat).isFin && (fp32.decode b.toNat).isFin)
  (BitVec.ofNat 56 r, match e11m44.decode r with
    | .nan => msNan
    | .inf _ => if fin then msOvf else 0
    | .fin _ _ _ => 0)

/-- An integer step: the new slot and its status (R143, R146). -/
def stepInt (acc : BitVec 56) (d : Int) : BitVec 56 × BitVec 4 :=
  let v := acc.toInt + d
  (BitVec.ofInt 56 v, if (BitVec.ofInt 56 v).toInt = v then 0 else msWrap)

/-- A chain accumulates in E11M44 (R145, R307). -/
def MmaRec.isFloat (r : MmaRec) : Bool := decide (3 ≤ r.fmt) || r.scaled

/-- The MMA of k-block b, and the block's number in it (R309). -/
def blockMma : List MmaRec → Nat → Option (MmaRec × Nat)
  | [], _ => none
  | r :: rs, b => if b < r.count then some (r, b) else blockMma rs (b - r.count)

/-- Row i of a block of 32 elements a row. -/
def Block.row (b : Block) (i : Nat) : List Word32 := (b.elems.drop (32 * i)).take 32

/-- The blocks that a slot takes in successive steps, by its free order: in each step one of the blocks then at hand that it has not taken
(R148, R155). Under `.ord` the only one at hand is the next. -/
def slotBlocks (f : Nat → Nat) (atHand : List Nat) : List Nat :=
  atHand.foldl (fun took p =>
    let left := (List.range p).filter (fun b => !took.contains b)
    match left[f took.length % left.length]? with
    | none => took
    | some b => took ++ [b]) []

/-- The block that a slot takes in a step of a chain. -/
def blockAt (c : Chain) (step elem : Nat) : Nat := ((slotBlocks (Config.freeOrder c.uid elem) c.applied)[step]?).getD step

/-- The slots that a step updates, with the block each takes: (row, column, block, MMA, block of the MMA). -/
def stepSlots (c : Chain) (step : Nat) : List (Nat × Nat × Nat × MmaRec × Nat) :=
  (List.range c.m).flatMap (fun r => (List.range c.n).filterMap (fun j =>
    let b := blockAt c step (r * c.n + j)
    match blockMma c.mmas b with
    | none => none
    | some (e, i) => if e.active.getLsbD (r % e.width) then some (r, j, b, e, i) else none))

/-- A slot's new value in a step. -/
def slotStep (s : State) (c : Chain) (as bs : List Block) (slot : Nat) (x : Nat × Nat × Nat × MmaRec × Nat) : BitVec 56 × BitVec 4 :=
  let (r, j, b, e, i) := x
  let fs := pairFmts e.fmt
  let acc := s.cbSlot c.isl c.core slot
  match as.find? (fun y => y.num = b), bs.find? (fun y => y.num = b) with
  | some p, some q =>
    if e.isFloat then
      stepFloat acc (dotFp fs.1 fs.2 (p.row r) (q.row j))
        (if e.scaled then some (((e.scales.getD i []).getD r 0), q.scales.getD j 0) else none)
    else stepInt acc (dotInt fs.1 fs.2 (p.row r) (q.row j))
  | none, _ => (acc, 0)
  | some _, none => (acc, 0)

/-- The energy of a MAC of a pair of formats, in femtojoules (R402). -/
def macEnergy (f : Nat) : Nat := if f = 0 then 70 else if f ≤ 2 then 35 else if f ≤ 6 then 80 else if f ≤ 8 then 150 else 60

/-- A step of a running chain with some blocks at hand: a marked slot stops the chain, else every slot of the step takes a block (R420). -/
def applyStep (s : State) (c0 : Chain) (as bs : List Block) (atHand : Nat) : State :=
  let c := { c0 with applied := c0.applied ++ [atHand] }
  let p0 := chainSlot s c
  let xs := stepSlots c c0.applied.length
  let at_ := fun (x : Nat × Nat × Nat × MmaRec × Nat) => p0 + x.1 * c.n + x.2.1
  match xs.find? (fun x => slotBad s c.isl c.core (at_ x)) with
  | some x => chainStop s c0 causeData (BitVec.ofNat 64 (c.base + x.1 * c.n + x.2.1))
  | none =>
    let ws := xs.map (fun x => (at_ x, slotStep s c as bs (at_ x) x))
    let st := ws.foldl (fun a w => a ||| w.2.2) c.status
    let c1 := { c with status := st }
    let s0 := storeUsed (charge (s.setChain c1) c.isl c.ctx ((xs.map (fun x => 32 * macEnergy x.2.2.2.1.fmt)).sum)) c.isl c.ctx (16 * xs.length)
    let s1 := putSlots s0 c.isl c.core (ws.map (fun w => (w.1, w.2.1)))
    if c1.applied.length = c.k / 32 then chainEnd s1 c1 st else s1

/-- Blocks that every chain of a stream has applied to every slot leave the FIFO. -/
def consume (s : State) (x : Stream) : State :=
  let us := streamUsers s x
  if us.isEmpty then s else s.setStream { x with blocks := x.blocks.filter (fun b => !us.all (fun c => decide (b.num < c.done))) }

/-- A chain applies its blocks in any order. -/
def Chain.free (c : Chain) : Bool := c.any && ((c.mmas.head?.map MmaRec.isFloat).getD false)

/-- A block that a chain can apply, or has applied: both FIFOs hold it (R155). -/
def holds (c : Chain) (a b : Stream) (n : Nat) : Bool :=
  decide (n < c.done) || (a.blocks.any (fun y => y.num = n && y.bad.isNone) && b.blocks.any (fun y => y.num = n && y.bad.isNone))

/-- How many blocks, from block 0 on, a running chain has or has had at hand. -/
def heldBlocks (c : Chain) (a b : Stream) : Nat := ((List.range (c.k / 32)).takeWhile (holds c a b)).length

/-- The blocks at hand in a chain's next step: all that both FIFOs hold, or under `.ord` those up to the next one; none if the next step has
no block yet (R148, R155). -/
def stepHand (c : Chain) (a b : Stream) : Option Nat :=
  let t := c.applied.length
  if heldBlocks c a b ≤ t then none else some (if c.free then heldBlocks c a b else t + 1)

/-- The chain has applied every block before one that a stream never delivers: it stops there (R420). -/
def stepStops (c : Chain) (a b : Stream) : Option (BitVec 16) :=
  ((a.blocks ++ b.blocks).find? (fun y => y.bad.isSome && y.num = c.applied.length)).bind (fun y => y.bad)

/-- KBLOCK_APPLY: a core's running chain applies a block in its step b. -/
def execKblockApply (s : State) : Result :=
  goOn (match s.ev with
    | .kblockApply isl core b =>
      (match s.yard.find? (fun c => c.isl = isl && c.core = core && c.st = .running) with
      | none => s
      | some c =>
        match chainAB s c with
        | none => s
        | some (x, y) =>
          match stepStops c x y with
          | some cause => chainStop s c cause 0
          | none =>
            match stepHand c x y with
            | none => s
            | some p =>
              if b ≠ c.applied.length then s
              else
                let s1 := applyStep s c x.blocks y.blocks p
                match s1.chain? c.uid with
                | none => s1
                | some c1 => (consume (consume s1 x) y).oweOnce (.kblockApply isl core c1.applied.length))
    | _ => s)

end Sys2Proof.Machine
end

