-- ==== Sys2Proof/Machine/Image.lean ====
section
/-!
DEFINITION. The bytes of save images in the save area of a context (R389, R390). What the spec does not lay out within a section is a free value.
-/
namespace Sys2Proof.Machine

/-! ### Bytes of a layout: those that the spec states, and those that it leaves open -/

/-- A number in n bytes. -/
def known (n v : Nat) : List (Option Byte) := (leBytes n v).map some

/-- n bytes that the spec does not lay out. -/
def unlaid (n : Nat) : List (Option Byte) := List.replicate n none

/-! ### The save area (R385, R389) -/

/-- The ranges of KiB that the images of a context take in the save area of an island. -/
def areaUsed (s : State) (isl ctx : Nat) : List (Nat × Nat) :=
  (s.images.filter (fun i => i.isl = isl && i.ctx = ctx)).map (fun i => (i.spot, i.kib))

/-- Where images of some sizes in KiB go in the save area, each at the lowest range that is free; none where one has no room (R389). -/
def placeImages (cap : Nat) (used : List (Nat × Nat)) : List Nat → Option (List (Nat × Nat))
  | [] => some []
  | n :: ns =>
    match lowRange cap used n with
    | none => none
    | some r => (placeImages cap (r :: used) ns).map (fun rs => r :: rs)

/-- Where images of some sizes in KiB go in a context's save area on an island. -/
def areaPlan (s : State) (isl ctx : Nat) (ns : List Nat) : Option (List (Nat × Nat)) :=
  placeImages (1024 * ((s.ctx? isl ctx).map (fun c => c.savsz)).getD 0) (areaUsed s isl ctx) ns

/-- The virtual address of a KiB of the save area. -/
def areaVa (s : State) (isl ctx kib : Nat) : Nat := ((s.ctx? isl ctx).map (fun c => c.savbase.toNat)).getD 0 + 1024 * kib

/-- Every KiB of some ranges of the save area translates (R385). -/
def areaMapped (s : State) (isl ctx : Nat) (rs : List (Nat × Nat)) : Bool :=
  rs.all (fun r => (List.range r.2).all (fun k => (peek s isl ctx (areaVa s isl ctx (r.1 + k))).isSome))

/-! ### The team block (R389) -/

/-- The three loop counters, then their end addresses. A counter that is not in use reads 0 (R50). -/
def loopBytes (ls : List Loop) : List (Option Byte) :=
  (List.range 3).flatMap (fun k => match ls.find? (fun l => l.lc = k) with
    | none => known 4 0 ++ unlaid 1 ++ known 3 0
    | some l => known 4 l.count.toNat ++ known 4 (l.len - 1))
  ++ (List.range 3).flatMap (fun k => match ls.find? (fun l => l.lc = k) with
    | none => unlaid 8
    | some l => known 8 l.last.toNat)

/-- The pending deferred causes: eight numbers, their eight codes, then the lost count (R153). -/
def deferredBytes (a : Anv) : List (Option Byte) :=
  (List.range 8).flatMap (fun k => match a.deferred[k]? with
    | none => unlaid 8
    | some d => known 8 d.num)
  ++ (List.range 8).flatMap (fun k => match a.deferred[k]? with
    | none => unlaid 2
    | some d => known 2 d.cause.toNat)
  ++ known 8 a.lost

/-- A predicate by lane, bit l for LID l. -/
def Thread.predNat (t : Thread) (p : Nat) : Nat := ((List.range 64).map (fun l => if l < t.id.width ∧ t.rdP p l then 2 ^ l else 0)).sum

/-- A team block, 1,024 bytes. -/
def teamBlock (t : Thread) : List (Option Byte) :=
  (List.range 64).flatMap (fun k => known 8 (t.rdS k).toNat)
  ++ known 8 t.sc.pc.toNat
  ++ (match t.sc.pc1 with
    | none => unlaid 8
    | some a => known 8 a.toNat)
  ++ loopBytes t.sc.loops
  ++ unlaid 88
  ++ (List.range 64).flatMap (fun l => known 1 (t.rdDc l).toNat)
  ++ (List.range 7).flatMap (fun p => known 8 (t.predNat (p + 1)))
  ++ (List.range 64).flatMap (fun l => known 1 (t.rdFlags l).toNat)
  ++ unlaid 88
  ++ deferredBytes t.an

/-- The vector registers of a team: register r of LID l at 4 × (r × W + l). -/
def vectorBytes (t : Thread) : List (Option Byte) :=
  (List.range t.id.vregs).flatMap (fun r => (List.range t.id.width).flatMap (fun l => known 4 (t.rdV r l).toNat))

/-! ### The reply table (R390) -/

/-- The bit of a frame's lane in a mask: its LID at the launch; a scalar member has lane 0. -/
def replyBit (t : Thread) (f : Frame) : Nat := if f.kind ≤ 1 then (f.lane + t.id.launchPos - 4 * t.id.hitch) % 64 else 0

/-- The lanes of an operation that are awaited. -/
def awaitedMask (s : State) (t : Thread) (op : Nat) : Nat :=
  (s.frames.filter (fun f => f.op = op && f.wb.isNone)).foldl (fun m f => m ||| 2 ^ replyBit t f) 0

/-- What an operation brings: 0 RLD.w, 1 RLD.d, 2 RLD.q, 3 RATOM, 4 no data; and its first destination register. -/
def replyKind (s : State) (op : Nat) : Nat × Nat :=
  match s.frames.find? (fun f => f.op = op && f.wb.isNone) with
  | none => (4, 0)
  | some f =>
    if f.kind = 0 then (if f.size = 4 then 0 else if f.size = 8 then 1 else 2, f.dst)
    else if f.kind = 2 ∧ f.redop = 0 then (3, f.dst) else (4, 0)

/-- The reply table of teams at a save: one entry for each remote word operation that a team counts. -/
def repliesOf (s : State) (ts : List Thread) : List Reply :=
  ts.zipIdx.flatMap (fun q => (q.1.fl.ops.filter (fun o => o.cls = .rm)).map (fun o =>
    { op := o.id, block := q.2, kind := (replyKind s o.id).1, dst := (replyKind s o.id).2 }))

/-- The team of a block of an image, unless its launch has ended. -/
def Image.team? (i : Image) (s : State) (k : Nat) : Option Thread := (i.rows[k]?).bind (fun r => (s.thread? r.1).filter Thread.live)

/-- The mask of an entry now. -/
def Reply.mask (s : State) (i : Image) (r : Reply) : Nat := ((i.team? s r.block).map (fun t => awaitedMask s t r.op)).getD 0

/-- An entry of the reply table, 16 bytes; byte 2 of an entry without data is not laid out. A reply for a launch that has ended changes nothing (R342). -/
def replyBytes (s : State) (i : Image) (r : Reply) : List (Option Byte) :=
  match i.team? s r.block with
  | none => unlaid 16
  | some t => known 1 r.block ++ known 1 r.kind ++ (if r.kind = 4 then unlaid 1 else known 1 r.dst) ++ known 5 0 ++ known 8 (awaitedMask s t r.op)

/-! ### The image (R389) -/

/-- The live teams of some coaches of a core, in slot order. -/
def teamsOf (s : State) (isl core : Nat) (cs : List Nat) : List Thread :=
  (List.range 64).flatMap (fun k =>
    s.threads.filter (fun t => t.live && t.id.isl = isl && t.id.core = core && t.id.slot = k && cs.contains t.id.coach))

/-- The bytes of a team's vector registers in an image. -/
def vectorRoom (t : Thread) : Nat := 4 * t.id.vregs * t.id.width

/-- The team blocks of an image as laid out: each team with the bytes of its vector registers. -/
def rowsOf (ts : List Thread) : List (Nat × Nat) := ts.map (fun t => (t.id.uid, vectorRoom t))

/-- The stores of an image as laid out: each coach with its KiB of SP, AB, WB and CB. -/
def partsOf (cs : List Coach) : List (Nat × Nat × Nat × Nat × Nat) := cs.map (fun c => (c.uid, c.sp.2, c.ab.2, c.wb.2, c.cb.2))

/-- The KiB of a coach's stores in an image: SP, AB and WB; CB follows for all coaches. -/
def partKib (p : Nat × Nat × Nat × Nat × Nat) : Nat := p.2.1 + p.2.2.1 + p.2.2.2.1

/-- The KiB of the stores in an image. -/
def partsKib (ps : List (Nat × Nat × Nat × Nat × Nat)) : Nat := (ps.map (fun p => partKib p + p.2.2.2.2)).sum

/-- The bytes of an image by its sections, from the sums of R389: teams, vector registers, KiB of the stores and entries of the reply table;
a core's image has the Carter's sections as well. -/
def imageSize (rows : List (Nat × Nat)) (kibs replies : Nat) (core : Bool) : Nat :=
  64 + 1024 * rows.length + (rows.map (fun r => r.2)).sum + 1024 * kibs + 32 * 64 + 64 * 64 + 16 * replies
    + (if core then 1024 + 32 + 64 * 72 else 0)

/-- Entries of the reply table that teams need. -/
def replyCount (ts : List Thread) : Nat := (ts.map (fun t => (t.fl.ops.filter (fun o => o.cls = .rm)).length)).sum

/-- The KiB of an image of coaches of a core. -/
def kibOf (s : State) (isl core : Nat) (cs : List Coach) (whole : Bool) : Nat :=
  let ts := teamsOf s isl core (cs.map (fun c => c.uid))
  ceilDiv (imageSize (rowsOf ts) (partsKib (partsOf cs)) (replyCount ts) whole) 1024

/-- The image that keeps the stores of a coach laid out in an image: itself, or one of the parts of a core's image. -/
def partImage (s : State) (i : Image) (u : Nat) : Option Image :=
  if i.coach = 0 then s.images.find? (fun x => x.isl = i.isl && x.core = i.core && x.ctx = i.ctx && x.kind = 2 && x.coach = u)
  else if i.coach = u then some i else none

/-- The saved bytes of a range of a coach's stores; a coach that has gone leaves its place as it was. -/
def savedBytes (s : State) (i : Image) (u space : Nat) (range : Coach → Nat × Nat) (kib : Nat) : List (Option Byte) :=
  match s.coaches.find? (fun c => c.uid = u), partImage s i u with
  | some c, some x =>
    (List.range (1024 * kib)).map (fun k => some (spGet x.stores (storeKey i.isl i.core space (1024 * (range c).1 + k))))
  | none, _ => unlaid (1024 * kib)
  | some _, none => unlaid (1024 * kib)

/-- The sections that a core's image alone has: the Carter's block, the pending-launch queue, and the inbox with its tags (R34, R115). -/
def carterBytes (s : State) (i : Image) : List (Option Byte) :=
  let es := s.launchQ.filter (fun e => e.isl = i.isl && e.core = i.core)
  let ms := ((s.carters.find? (fun c => c.isl = i.isl && c.core = i.core)).map (fun c => c.inbox)).getD []
  unlaid 1024
  ++ (List.range 4).flatMap (fun k => match es[k]? with
    | none => unlaid 8
    | some e => known 8 e.addr.toNat)
  ++ (List.range 64).flatMap (fun k => match ms[k]? with
    | none => unlaid 72
    | some m => (List.range 8).flatMap (fun j => known 8 (m.words.getD j 0).toNat) ++ known 8 m.tag.toNat)

/-- The header of an image, 64 bytes. -/
def headerBytes (s : State) (i : Image) : List (Option Byte) :=
  let sum := fun (f : Nat × Nat × Nat × Nat × Nat → Nat) => (i.parts.map f).sum
  known 1 1 ++ known 1 0 ++ known 1 i.kind ++ known 1 0 ++ known 2 i.ctx ++ known 1 i.isl ++ known 1 i.core
  ++ (match s.coaches.find? (fun c => c.uid = i.coach && i.coach ≠ 0) with
    | none => unlaid 1
    | some c => known 1 c.hitch)
  ++ known 1 i.rows.length ++ known 1 i.replies.length ++ known 5 0
  ++ known 2 (sum (fun p => p.2.1)) ++ known 2 (sum (fun p => p.2.2.1)) ++ known 2 (sum (fun p => p.2.2.2.1)) ++ known 2 (sum (fun p => p.2.2.2.2))
  ++ known 8 (imageSize i.rows (partsKib i.parts) i.replies.length (i.coach = 0))
  ++ known 1 (i.replies.filter (fun r => r.mask s i ≠ 0)).length ++ known 7 0 ++ known 8 i.time ++ known 16 0

/-- A section of the team blocks: what it holds for each team that is left, and the place of one that has gone as it was. -/
def rowBytes (s : State) (i : Image) (f : Thread → List (Option Byte)) (room : Nat × Nat → Nat) : List (Option Byte) :=
  i.rows.zipIdx.flatMap (fun r => match i.team? s r.2 with
    | none => unlaid (room r.1)
    | some t => f t)

/-- The bytes of an image as they stand: what the spec lays out, and what it leaves open. -/
def imageBytes (s : State) (i : Image) : List (Option Byte) :=
  headerBytes s i
  ++ rowBytes s i teamBlock (fun _ => 1024)
  ++ rowBytes s i vectorBytes (fun r => r.2)
  ++ i.parts.flatMap (fun p => savedBytes s i p.1 1 Coach.sp p.2.1 ++ savedBytes s i p.1 2 Coach.ab p.2.2.1 ++ savedBytes s i p.1 3 Coach.wb p.2.2.2.1)
  ++ i.parts.flatMap (fun p => savedBytes s i p.1 4 Coach.cb p.2.2.2.2)
  ++ unlaid (32 * 64)
  ++ unlaid (64 * 64)
  ++ i.replies.flatMap (replyBytes s i)
  ++ (if i.coach = 0 then carterBytes s i else [])

/-- The cells of an image: each byte at its physical address, KiB by KiB; what the spec does not lay out is free. -/
def imageCells (s : State) (i : Image) : List (Nat × Byte) :=
  let bs := (imageBytes s i).zipIdx.map (fun b => b.1.getD (Config.freeByte (i.seed + b.2)))
  (List.range i.kib).flatMap (fun k => match peek s i.isl i.ctx (areaVa s i.isl i.ctx (i.spot + k)) with
    | none => []
    | some pa => cellsFrom pa ((bs.drop (1024 * k)).take 1024))

/-- A, and by a write D, set in the pages of an image by the walks of its accesses (R91). -/
def markImage (s : State) (i : Image) (wr : Bool) : State :=
  ((List.range i.kib).filter (fun k => k = 0 || areaVa s i.isl i.ctx (i.spot + k) % 4096 = 0)).foldl
    (fun s k => markAD s i.isl i.ctx (areaVa s i.isl i.ctx (i.spot + k)) wr) s

/-- An image written to its place in the save area. -/
def writeImage (s : State) (i : Image) : State := l2Put (l2Used (markImage s i true) i.isl i.ctx (imageCells s i).length) i.isl (imageCells s i)

/-! ### An image read back (R391) -/

/-- The bytes of an image as its save area now holds them. -/
def readImage (s : State) (i : Image) : List Byte :=
  (List.range i.kib).flatMap (fun k => match peek s i.isl i.ctx (areaVa s i.isl i.ctx (i.spot + k)) with
    | none => []
    | some pa => s.physBytes i.isl pa 1024)

/-- The image in the save area that holds a coach: its own, or that of its core (R389). -/
def imageOf (s : State) (c : Coach) : Option Image :=
  s.images.find? (fun i => i.isl = c.isl && i.core = c.core && i.ctx = c.ctx
    && ((i.kind = 1 && i.coach = c.uid) || (i.kind = 2 && i.coach = 0)))

/-- The number in n bytes of a block. -/
def fieldAt (bs : List Byte) (o n : Nat) : Nat := leNat ((bs.drop o).take n)

/-- A loop counter as a team block holds it. -/
def Loop.fromBlock (b : List Byte) (l : Loop) : Loop :=
  { l with count := BitVec.ofNat 32 (fieldAt b (0x210 + 8 * l.lc) 4), len := fieldAt b (0x214 + 8 * l.lc) 1 + 1
           last := BitVec.ofNat 64 (fieldAt b (0x228 + 8 * l.lc) 8) }

/-- A team as its block holds it, in what the spec lays out; the rest stands as it was saved. -/
def Thread.fromBlock (b : List Byte) (t : Thread) : Thread :=
  let lanes := List.range t.id.width
  let t1 := (List.range 64).foldl (fun u k => u.wrS k (BitVec.ofNat 64 (fieldAt b (8 * k) 8))) t
  let t2 := { t1 with sc := { t1.sc with
    pc := BitVec.ofNat 64 (fieldAt b 0x200 8), pc1 := t1.sc.pc1.map (fun _ => BitVec.ofNat 64 (fieldAt b 0x208 8))
    loops := t1.sc.loops.map (Loop.fromBlock b) } }
  let t3 := t2.wrDcs (fun l => BitVec.ofNat 8 (fieldAt b (0x298 + l) 1)) lanes
  let t4 := (List.range 7).foldl (fun u p => u.wrPreds (p + 1) (fun l => bitOf (fieldAt b (0x2D8 + 8 * p) 8) l) lanes) t3
  let t5 := lanes.foldl (fun (u : Thread) l => { u with ln := { u.ln with flags := spSet u.ln.flags l (BitVec.ofNat 5 (fieldAt b (0x310 + l) 1)) } }) t4
  { t5 with an := { t5.an with
    lost := fieldAt b (0x3A8 + 80) 8
    deferred := t5.an.deferred.zipIdx.map (fun d =>
      { d.1 with num := fieldAt b (0x3A8 + 8 * d.2) 8, cause := BitVec.ofNat 16 (fieldAt b (0x3A8 + 64 + 2 * d.2) 2) }) } }

/-- A team's vector registers as an image holds them from an offset on. -/
def Thread.fromVectors (bs : List Byte) (o : Nat) (t : Thread) : Thread :=
  (List.range t.id.vregs).foldl (fun u r =>
    u.wrLanes r (fun l => BitVec.ofNat 32 (fieldAt bs (o + 4 * (r * t.id.width + l)) 4)) (List.range t.id.width)) t

/-- A team of an image as the image holds it. -/
def Thread.fromImage (bs : List Byte) (i : Image) (t : Thread) : Thread :=
  let k := (i.rows.takeWhile (fun r => r.1 ≠ t.id.uid)).length
  (t.fromBlock ((bs.drop (64 + 1024 * k)).take 1024)).fromVectors bs (64 + 1024 * i.rows.length + ((i.rows.take k).map (fun r => r.2)).sum)

/-- The cells of a store's allocation that an image holds from an offset on. -/
def storeCells (bs : List Byte) (c : Coach) (space o : Nat) (a : Nat × Nat) : List (Nat × Byte) :=
  cellsFrom (storeKey c.isl c.core space (1024 * a.1)) ((bs.drop o).take (1024 * a.2))

/-- A coach's stores as its image holds them: SP, AB and WB of every coach of the image in turn, then CB. -/
def coachCells (i : Image) (bs : List Byte) (c : Coach) : List (Nat × Byte) :=
  let before := i.parts.takeWhile (fun p => p.1 ≠ c.uid)
  let o := 64 + 1024 * i.rows.length + (i.rows.map (fun r => r.2)).sum
  let a := o + 1024 * (before.map partKib).sum
  let b := o + 1024 * ((i.parts.map partKib).sum + (before.map (fun p => p.2.2.2.2)).sum)
  storeCells bs c 1 a c.sp ++ storeCells bs c 2 (a + 1024 * c.sp.2) c.ab ++ storeCells bs c 3 (a + 1024 * (c.sp.2 + c.ab.2)) c.wb
    ++ storeCells bs c 4 b c.cb

/-- VMAJ of an image in the save area (R389). -/
def imageMajor (s : State) (i : Image) : Nat := fieldAt (readImage s i) 0 1

/-- A reserved field of an image's header is not zero (R8, R389). -/
def imageReserved (s : State) (i : Image) : Bool :=
  let b := readImage s i
  decide (fieldAt b 3 1 ≠ 0 ∨ fieldAt b 11 5 ≠ 0 ∨ fieldAt b 33 7 ≠ 0 ∨ fieldAt b 48 16 ≠ 0)

/-- The bytes of an image that an event has changed, by their offsets (R390). -/
def changedBytes (old s : State) (i : Image) : List (Nat × Byte) :=
  (((imageBytes old i).zip (imageBytes s i)).zipIdx).filterMap (fun b => match b.1.2 with
    | none => none
    | some x => if b.1.1 = some x then none else some (b.2, x))

/-- Where the changed bytes of an image lie. -/
def changedCells (s : State) (i : Image) (bs : List (Nat × Byte)) : List (Nat × Byte) :=
  bs.filterMap (fun b => (peek s i.isl i.ctx (areaVa s i.isl i.ctx i.spot + b.1)).map (fun pa => (pa, b.2)))

/-- What an event has changed of an image is written: the data of a reply, the bit of its lane, and PEND (R390). A save area that stops translating ends
the context (R385). -/
def updateImage (old s : State) (i : Image) : State :=
  let bs := changedBytes old s i
  let cs := changedCells s i bs
  if !s.images.any (fun j => j.isl = i.isl && j.ctx = i.ctx) then s
  else if cs.length < bs.length then regionLost s i.isl i.ctx
  else
    let pages := (bs.map (fun b => (areaVa s i.isl i.ctx i.spot + b.1) / 4096)).eraseDups
    let s1 := pages.foldl (fun s p => markAD s i.isl i.ctx (4096 * p) true) s
    l2Put (l2Used s1 i.isl i.ctx cs.length) i.isl cs

/-- The images whose reply table lists an operation follow an event (R390). -/
def updateImages (old s : State) (op : Nat) : State :=
  (s.images.filter (fun i => i.replies.any (fun r => r.op = op))).foldl (updateImage old) s

end Sys2Proof.Machine
end

