-- ==== Sys2Proof/Machine/Remote.lean ====
section
/-!
DEFINITION. Remote word operations (majors 0x3D and 0x3E; R162-R172, R318-R324), the rotor and its frames (R164, R172), the ingress of the
target (R170, R404), and replies and timeouts (R167, R171).
-/
namespace Sys2Proof.Machine

/-! ### Issue (R162, R163, R320) -/

/-- One remote access checked at issue: the island word, the alignment, the end of the address space, and the control block, which a hub
core reaches 8 bytes at a time (R320, R399). -/
def probeRemote (s : State) (w a n : Nat) : Probe :=
  let t := s.cur
  let va := BitVec.ofNat 64 a
  if !islandWordOk s t.mIsl t.id.ctx w then .bad causeAbsent va
  else if a % n ≠ 0 then .bad causeMisalign va
  else if 2 ^ 64 < a + n then .bad causeUnmapped va
  else if t.id.ctx = 0 && ctrlHit a && n ≠ 8 then .bad causeUnmapped va
  else .ok a 0

/-- A precise trap of a remote member, or what it does (R180, R320); `word` gives the island word of a lane. -/
def afterRemote (s : State) (ps : List (Nat × Probe)) (word : Nat → Nat) (vec : Bool) (atype : Nat) (eff : State → State) : State :=
  match pickCause ps with
  | some (c, a, m) =>
    takeTrap s { cause := c, xaddr := a, lanes := if vec then m else 0, atype := atype, space := 5, risl := word (lowLane m) % 2 ^ 16 }
  | none => eff s

/-- A frame of the running agent, with what every kind of operation shares. -/
def wordFrame (s : State) (uid op : Nat) (w a n kind : Nat) : Frame :=
  let t := s.cur
  { uid := uid, seq := op, isl := t.mIsl, core := t.id.core, ctx := t.id.ctx, agent := t.id.uid, op := op, lane := 0, dst := 0
    panel := w / 256 % 256, tgt := w % 256, va := BitVec.ofNat 64 a, kind := kind, size := n, aop := 0, redop := 0, data := [], cmp := 0
    ord := false, rel := false, acq := false, wb := none, elem := 0, parts := [], die := 0, phase := 0, sentOn := none, relay := false
    admitted := false, home := Config.panel, retried := 0
    sentAt := s.cycle, launch := t.id.launch, xpc := t.sc.pc, insn := t.sc.insn }

/-- One frame for each lane leaves. -/
def sendLanes (f : State → Nat → Frame) (s : State) : List Nat → State
  | [] => s
  | l :: ls =>
    let q := s.take
    sendLanes f (sendFrame q.2 { f s l with uid := q.1 }) ls

/-- RLD and RST (R319-R321). -/
def remoteElems (load : Bool) (z : BitVec 3) (d a : BitVec 7) (o : BitVec 1) (b : BitVec 6) (p : BitVec 3) (s : State) : State :=
  let t := s.cur
  let ls := t.activeLanes p.toNat
  let n := elemBytes z
  let va := laneAddr s a b
  let word := fun (l : Nat) => (t.rdV (a.toNat + 1) l).toNat
  if ls = [] then s.retire
  else if !remoteGate s then stall s
  else
    afterRemote s (ls.map (fun l => (l, probeRemote s (word l) (va l) n))) word true (if load then 4 else 5) (fun s =>
      let x := beginOp s .rm ls.length
      let s1 := sendLanes (fun s l =>
        { wordFrame s 0 x.2 (word l) (va l) n (if load then 0 else 1) with
          lane := 4 * t.id.hitch + l, dst := d.toNat, data := if load then [] else t.rdElem d.toNat z l, ord := o = 1 }) x.1 ls
      let regs := (List.range (elemRegs z)).map (fun i => d.toNat + i)
      (if load then s1.updCur (fun t => { t with fl := { t.fl with pendV := regs ++ t.fl.pendV } }) else s1).retire)

/-- The even register that a field of half its number names (R211). -/
def pairReg (a : BitVec 6) : BitVec 7 := a.zeroExtend 7 <<< 1

def execRldW (d : BitVec 7) (a : BitVec 6) (o : BitVec 1) (b : BitVec 6) (p : BitVec 3) (s : State) : Result :=
  goOn (remoteElems true 2 d (pairReg a) o b p s)
def execRldD (d : BitVec 7) (a : BitVec 6) (o : BitVec 1) (b : BitVec 6) (p : BitVec 3) (s : State) : Result :=
  goOn (remoteElems true 3 d (pairReg a) o b p s)
def execRldQ (d : BitVec 7) (a : BitVec 6) (o : BitVec 1) (b : BitVec 6) (p : BitVec 3) (s : State) : Result :=
  goOn (remoteElems true 4 d (pairReg a) o b p s)
def execRstW (d : BitVec 7) (a : BitVec 6) (o : BitVec 1) (b : BitVec 6) (p : BitVec 3) (s : State) : Result :=
  goOn (remoteElems false 2 d (pairReg a) o b p s)
def execRstD (d : BitVec 7) (a : BitVec 6) (o : BitVec 1) (b : BitVec 6) (p : BitVec 3) (s : State) : Result :=
  goOn (remoteElems false 3 d (pairReg a) o b p s)
def execRstQ (d : BitVec 7) (a : BitVec 6) (o : BitVec 1) (b : BitVec 6) (p : BitVec 3) (s : State) : Result :=
  goOn (remoteElems false 4 d (pairReg a) o b p s)

/-- RATOM and RNOTIFY: one word named by an even pair of registers (R322, R323). -/
def remoteWord (a : BitVec 6) (f : Frame → Frame) (kind : Nat) (pend : List Nat) (s : State) : State :=
  let va := (s.rdS a).toNat
  let word := (s.cur.rdS (a.toNat + 1)).toNat
  if !remoteGate s then stall s
  else
    afterRemote s [(0, probeRemote s word va 8)] (fun _ => word) false 6 (fun s =>
      let x := beginOp s .rm 1
      let q := x.1.take
      let s1 := sendFrame q.2 (f (wordFrame s q.1 x.2 word va 8 kind))
      (s1.updCur (fun t => { t with fl := { t.fl with pendS := pend ++ t.fl.pendS } })).retire)

def execRatom (o : BitVec 4) (r : BitVec 2) (d a b : BitVec 6) (s : State) : Result :=
  goOn (remoteWord a (fun f => { f with
    dst := d.toNat, aop := o.toNat, data := leBytes 8 (s.rdS b).toNat, cmp := s.rdS d, rel := hasRel r, acq := hasAcq r }) 2 [d.toNat] s)

def execRnotify (a b : BitVec 6) (q r : BitVec 1) (s : State) : Result :=
  goOn (remoteWord a (fun f => { f with data := leBytes 8 (s.rdS b).toNat, ord := q = 1, rel := r = 1 }) 3 [] s)

/-- RFENCE: the later remote operations of the agent wait for the earlier ones; nothing else does (R324). -/
def execRfence (s : State) : Result := goOn (s.updCur (fun t => { t with fl := { t.fl with rfence := s.fresh } })).retire

/-! ### The rotor (R164, R172, R418) -/

/-- A frame by its handle. -/
def State.frame? (s : State) (u : Nat) : Option Frame := s.frames.find? (fun f => f.uid = u)

/-- A frame written. -/
def State.setFrameOp (s : State) (f : Frame) : State := { s with frames := s.frames.map (fun g => if g.uid = f.uid then f else g) }

/-- A frame counted on a plane of an island. -/
def countSent (s : State) (isl plane : Nat) : State :=
  if isl = hubIsl then s
  else s.updIsland isl (fun i => { i with
    linkSent := spSet i.linkSent plane (spGet i.linkSent plane + 1), winSent := spSet i.winSent plane (spGet i.winSent plane + 1) })

/-- The islands between which a frame now travels: to its target, or as a reply back. The hub's number stands for another panel's island. -/
def Frame.ends (f : Frame) : Nat × Nat :=
  let a := if f.home = Config.panel then f.isl else hubIsl
  let b := if f.panel = Config.panel then f.tgt else hubIsl
  if f.phase = 1 then (b, a) else (a, b)

/-- The islands that may relay a frame: populated and in service, and neither end of its way (R164). -/
def relays (s : State) (f : Frame) : List Nat :=
  (List.range Config.nisl).filter (fun i => islandServes s i && i ≠ f.ends.1 && i ≠ f.ends.2)

/-- A frame leaves on a plane, directly or through a relay, as the optical engine chooses (R164; log 7). A frame to its own island meets the
ingress at once (R318). -/
def sendOut (s : State) (f : Frame) (plane : Nat) : State :=
  if f.tgt = f.isl ∧ f.panel = Config.panel ∧ f.home = Config.panel then s.setFrameOp { f with sentOn := some plane }
  else
    let q := s.take
    (sendUsed (countSent q.2 f.ends.1 plane) f.ends.1 f.ctx).setFrameOp { f with sentOn := some plane, relay := Config.freeChoice q.1 % 2 = 1 && !(relays s f).isEmpty }

/-- ROTOR_SLOT: the frames that wait for a slot on a plane leave. Which of them have their route there is the engine's choice. -/
def execRotorSlot (s : State) : Result :=
  goOn (match s.ev with
    | .rotorSlot p =>
      (s.frames.filter (fun f => f.phase ≠ 2 && f.sentOn.isNone && decide (p < 8))).foldl
        (fun s f => if Config.freeChoice (s.fresh + f.uid) % 2 = 0 then sendOut s f p else s) s
    | _ => s)

/-- The step that takes a frame at the end of its way. -/
def Frame.arrival (f : Frame) : Event := if f.phase = 1 then .remoteReply f.uid else .frameReceive f.uid

/-- RELAY_FORWARD: a relay, which the engine has chosen, sends a held frame on. -/
def execRelayForward (s : State) : Result :=
  goOn (match s.ev with
    | .relayForward u =>
      (match s.frame? u with
      | none => s
      | some f => if f.relay && f.phase ≠ 2 then
          let q := s.take
          let rs := relays s f
          let via := (rs[Config.freeChoice q.1 % rs.length]?).getD hubIsl
          ((countSent q.2 via (Config.freeChoice (q.1 + 1) % 8)).setFrameOp { f with relay := false }).oweOnce f.arrival
        else s)
    | _ => s)

/-- FRAME_RETRY: a frame that fails its check is sent again from the retry buffer, and is counted (R172, R418). One whose tag has checked is not. -/
def execFrameRetry (s : State) : Result :=
  goOn (match s.ev with
    | .frameRetry u =>
      (match s.frame? u, (s.frame? u).bind (fun f => f.sentOn) with
      | some f, some p =>
        if f.phase = 2 ∨ (f.phase = 0 ∧ f.admitted) then s
        else
          let s1 := s.setFrameOp { f with retried := f.retried + 1 }
          if f.ends.1 = hubIsl then s1
          else (sendUsed s1 f.ends.1 f.ctx).updIsland f.ends.1 (fun i => { i with
            linkRetry := spSet i.linkRetry p (spGet i.linkRetry p + 1), winRetry := spSet i.winRetry p (spGet i.winRetry p + 1) })
      | some _, none => s
      | none, _ => s)
    | _ => s)

/-! ### The target (R110-R112, R168-R171, R404) -/

/-- A translation at the ingress MMU: PIN and RE, and W for a write (R170). Nothing there is resumable. A walk that reads a line known to be bad gives
DATA_ERROR (R413), but to a write REMOTE_XLATE (R170 has it for reads and atomics alone; DESIGN CHOICE, log 40). -/
def ingress (s : State) (isl ctx va : Nat) (wr : Bool) : State × Xl :=
  if ctx = 0 then (s, if va < Config.islandBytes ∨ ctrlHit va then .ok va 0 else .fault causeXlate)
  else
    match tlbFind s isl 130 ctx va with
    | some e =>
      if !e.pin || !e.re || (wr && !e.w) then (s, .fault causeXlate) else tlbUse s e (if wr then .write else .read) va
    | none =>
      match s.ctx? isl ctx with
      | none => (s, .fault causeXlate)
      | some c =>
        let s0 := walkUsed s isl ctx va
        match walkCtx s c va with
        | .absent => (s0, .fault causeXlate)
        | .malformed => (s0, .fault causeXlate)
        | .bad => (s0, .fault causeData)
        | .notPresent => (s0, .fault causeXlate)
        | .leaf pb sz vb e p =>
          if !bitOf p 5 || !bitOf p 4 || (wr && !bitOf p 2) then (s0, .fault causeXlate)
          else
            let ent : TlbEntry :=
              { isl := isl, unit := 130, ctx := ctx, vbase := vb, size := sz, pbase := pb, entryKey := e, w := bitOf p 2, x := bitOf p 3,
                re := bitOf p 4, pin := bitOf p 5, mt := bitsOf p 10 9, d := bitOf p 8 || wr }
            (tlbPut (setAD s0 isl ctx e wr) ent, .ok (pb + (va - vb)) (bitsOf p 10 9))

/-- The bytes of an access at the ingress: where each lies, or the first address that fails, with its cause. -/
def ingressBytes (isl ctx : Nat) (wr : Bool) (s : State) (va : Nat) : Nat → State × Option (BitVec 16 × Nat) × List Nat
  | 0 => (s, none, [])
  | n + 1 =>
    let a := va % 2 ^ 64
    match ingress s isl ctx a wr with
    | (s1, .fault c) => (s1, some (c, a), [])
    | (s1, .notPresent) => (s1, some (causeXlate, a), [])
    | (s1, .ok pa _) =>
      let r := ingressBytes isl ctx wr s1 (va + 1) n
      (r.1, r.2.1, pa :: r.2.2)

/-- Another party's earlier operation that a frame must follow: unperformed, of the same agent, to the same island, earlier in program
order (R111). A waybill is one operation. -/
def before (s : State) (f g : Frame) : Bool :=
  let same := g.agent = f.agent || ((s.thread? f.agent).map (fun t => t.holds g.op)).getD false
  same && g.panel = f.panel && g.tgt = f.tgt && g.phase = 0 && decide (g.seq < f.seq)

/-- An earlier waybill of the same Carter with elements still to leave for the same island. -/
def wbBefore (s : State) (f : Frame) (putOnly : Bool) : Bool :=
  let carter := ((s.thread? f.agent).map (fun t => decide (t.id.kind = .carter))).getD false
  carter && s.waybills.any (fun w =>
    let x := parseWb w.raw
    w.isl = f.isl && w.core = f.core && w.ctx = f.ctx && decide (w.seq < f.seq) && w.unsent && x.risl = f.tgt && x.rpan = f.panel
      && (!putOnly || x.dstsp = 5))

/-- A frame may be performed: `.ord` waits for every earlier operation, a release for every earlier write (R111, R112). -/
def mayPerform (s : State) (f : Frame) : Bool :=
  !(f.ord && f.kind ≠ 4 && (s.frames.any (before s f) || wbBefore s f false))
    && !(f.rel && (s.frames.any (fun g => before s f g && g.kind ≠ 0) || wbBefore s f true))

/-- The frames that waited for an operation of their agent look again. -/
def wakeFrames (s : State) (f : Frame) : State :=
  (s.frames.filter (fun g => g.phase = 0 && (g.ord || g.rel) && g.kind ≠ 4 && decide (f.seq < g.seq) && g.isl = f.isl && g.tgt = f.tgt)).foldl
    (fun s g => s.oweOnce (.frameReceive g.uid)) s

/-- The team that a frame's fatal error names: its issuer, or for a Carter's the team of its last tag (R188, R189). -/
def frameTeam (s : State) (f : Frame) : Option Nat :=
  match s.thread? f.agent with
  | none => none
  | some t => match t.id.kind with
    | .team => some t.id.uid
    | .carter => (namedTeam s t.id.isl t.id.core).map (fun m => m.poster)
    | .hub => none

/-- The bytes landed of the bulk copy that a frame belongs to, also after its waybill has gone (R171). -/
def Frame.landedBy (f : Frame) (s : State) : Nat :=
  match f.wb.bind (fun u => s.waybill? u) with
  | some w => landedBytes s w
  | none => ((s.frame? f.uid).getD f).landed

/-- The address that the record of a frame's failure holds: the first target address, or for a tile its entry's (R171, R184). -/
def Frame.xaddr (f : Frame) : Word64 := (f.parts.head?.map (fun p => p.2)).getD f.va

/-- The record of a frame's fatal error (R171, R184). -/
def frameRecord (s : State) (f : Frame) (cause : BitVec 16) (va : Word64) : FaultRec :=
  let atype := if f.wb.isSome then 7 else if f.kind = 0 then 4 else if f.kind = 1 then 5 else if f.kind = 4 then 8 else 6
  let insn := if f.wb.isSome then BitVec.ofNat 32 (f.landedBy s) else f.insn
  let x : Fx :=
    { cause := cause, xaddr := va, lanes := 0, atype := atype, space := 5, risl := f.tgt + 256 * f.panel }
  match s.thread? f.agent with
  | none => { ctxRecord cause f.isl f.ctx with core := f.core, xpc := f.xpc, xaddr := va, insn := insn, atype := atype, space := 5, risl := x.risl }
  | some t => match t.id.kind with
    | .team => recOf t { x with lanes := if f.kind ≤ 1 then laneMask [f.lane - 4 * t.id.hitch] else 0 } 3 0 f.xpc insn
    | .carter => carterRec s t x 3 0 f.xpc insn
    | .hub => recOf t x 3 0 f.xpc insn

/-- A remote operation fails for good: a fatal context error, logged at both ends, after an earlier one of its context too (R171, R188, R342). Of an
operation of another panel only the record at its target is written here. -/
def remoteFail (s : State) (f : Frame) (cause : BitVec 16) (va : Word64) : State :=
  let s1 := { s with frames := s.frames.filter (fun g => g.uid ≠ f.uid) }
  let s2 := if f.home ≠ Config.panel then
      (writeFault s1 f.tgt f.ctx { frameRecord s1 { f with agent := 0, wb := none } cause va with flags := flFar, isl := f.tgt }).1
    else fatalError s1 (frameRecord s f cause va) (if f.tgt = f.isl ∨ f.panel ≠ Config.panel then [] else [f.tgt]) (frameTeam s f)
  wakeFrames (settleLaunch s2 f.launch) f

/-- Bytes that a frame lands of a waybill that has gone: the frames that are left of it count them (R171). -/
def lateLanded (s : State) (f : Frame) (n : Nat) : State :=
  if f.wb.isNone || f.kind = 0 || (f.wb.bind (fun u => s.waybill? u)).isSome then s
  else { s with frames := s.frames.map (fun (g : Frame) => if g.wb = f.wb then { g with landed := g.landed + n } else g) }

/-- A frame performed: its acknowledgement or reply returns, as a frame, in a step of its own. -/
def performed (s : State) (f : Frame) (data : List Byte) : State :=
  let s1 := (lateLanded (s.setFrameOp { f with phase := 1, data := data, sentOn := none, relay := false }) f (f.size * f.parts.length)).owe
    (.remoteReply f.uid)
  wakeFrames (settleLaunch s1 f.launch) f

/-- The new value of the word or element that an atomic, a notify or a reduction writes (R116, R278, R323). -/
def frameNew (f : Frame) (old : List Byte) : List Byte :=
  let x := leNat old
  if f.kind = 3 then leBytes 8 (x + leNat f.data)
  else if f.redop ≠ 0 then leBytes f.size (reduceNew f.redop x (leNat f.data))
  else leBytes 8 (atomicNew f.aop (BitVec.ofNat 64 x) (BitVec.ofNat 64 (leNat f.data)) f.cmp).toNat

/-- An access to the control block of the target (R399): the answer, or none while it waits. -/
def frameCtrl (s : State) (f : Frame) : State :=
  let off := f.va.toNat - ctrlBase
  let wr := f.kind ≠ 0
  let x := if f.kind = 0 then (s, (0 : Word64)) else if f.kind = 1 then (s, BitVec.ofNat 64 (leNat f.data))
    else
      let r := ctrlRead s f.tgt off
      (r.1, BitVec.ofNat 64 (leNat (frameNew f (leBytes 8 r.2.toNat))))
  if ctrlWaits s f.tgt off wr x.2 then waitStep s (.frameReceive f.uid)
  else if f.kind = 0 then
    let r := ctrlRead s f.tgt off
    performed r.1 f (leBytes 8 r.2.toNat)
  else
    let old := if f.kind = 2 then leBytes 8 (ctrlRead s f.tgt off).2.toNat else []
    let r := ctrlWrite x.1 f.tgt off x.2
    if r.2 then performed r.1 f old else waitStep r.1 (.frameReceive f.uid)

/-- The accesses of a frame at its target, one part after another (R110, R168-R170): the cause and the address that fail, the parts performed,
and the bytes read. -/
def performParts (f : Frame) (s : State) (data : List Byte) : List (Nat × Word64) → State × Option (BitVec 16 × Word64) × List (Nat × Word64) × List Byte
  | [] => (s, none, [], [])
  | p :: ps =>
    let q := ingressBytes f.tgt f.ctx (f.kind ≠ 0) s p.2.toNat f.size
    match q.2.1 with
    | some x => (q.1, some (if f.kind = 1 then causeXlate else x.1, BitVec.ofNat 64 x.2), [], [])
    | none =>
      let pas := q.2.2
      if f.kind ≠ 1 && pas.any (fun pa => lineBad q.1 f.tgt (pa / 128)) then (q.1, some (causeData, p.2), [], [])
      else
        let old := pas.map (fun pa => q.1.physGet f.tgt pa)
        let g := { f with data := data.take f.size }
        let q1 := l2Used q.1 f.tgt f.ctx ((if f.kind = 0 ∨ f.kind = 1 then 1 else 2) * f.size)
        let s1 := if f.kind = 0 then q1 else l2Put q1 f.tgt (pas.zip (if f.kind = 1 then g.data else frameNew g old))
        let r := performParts f s1 (data.drop f.size) ps
        (r.1, r.2.1, p :: r.2.2.1, old ++ r.2.2.2)

/-- A frame whose tag has checked and that the ingress admits is performed at its island. What landed before a failure stays, and is counted
(R171). -/
def performFrame (s : State) (f : Frame) : State :=
  if f.ctx = 0 ∧ ctrlHit f.va.toNat then frameCtrl s f
  else
    match performParts f s f.data (if f.wb.isSome then f.parts else [(0, f.va)]) with
    | (s1, some x, done, _) => remoteFail (lateLanded (s1.setFrameOp { f with phase := 1, parts := done }) f (f.size * done.length)) f x.1 x.2
    | (s1, none, _, old) => performed s1 f old

/-- The ingress admits a frame (R404): bit 63 of the mask stands for other panels. The hub is no island, and its frames are not tested. -/
def admits (s : State) (f : Frame) : Bool :=
  let m := (s.island f.tgt).fwmask
  if f.home = Config.panel then f.isl = hubIsl || m.getLsbD f.isl else m.getLsbD 63

/-- The ingress of the issuer's island admits the frame of an acknowledgement or a reply (R404). -/
def admitsReply (s : State) (f : Frame) : Bool :=
  let m := (s.island f.isl).fwmask
  f.home ≠ Config.panel || f.isl = hubIsl || (if f.panel = Config.panel then f.tgt = hubIsl || m.getLsbD f.tgt else m.getLsbD 63)

/-! ### Replies and timeouts (R167, R171, R390) -/

/-- A lane's reply in its registers. -/
def Thread.wrReply (t : Thread) (f : Frame) : Thread :=
  (List.range (f.size / 4)).foldl (fun t i => t.wrPhys (f.dst + i) f.lane (BitVec.ofNat 32 (leNat ((f.data.drop (4 * i)).take 4)))) t

/-- A swapped-out coach for which a reply arrived may be ready to be restored (R390). -/
def oweRestores (s : State) (op : Nat) : State :=
  (s.threads.filter (fun t => t.sch.life = .swapped && t.holds op)).foldl (fun s t => s.oweOnce (.coachRestore t.id.coach)) s

/-- The acknowledgement of some elements of a waybill, or what was read for them, one after another (R169). -/
def landParts (get : Bool) (u size : Nat) (s : State) (data : List Byte) : List (Nat × Word64) → State
  | [] => s
  | p :: ps =>
    let s1 := match s.waybill? u with
      | none => s
      | some w => if get then getLand s w p.1 (data.take size) else elemLanded s u p.1
    landParts get u size s1 (data.drop size) ps

/-- A reply at the end of its way (R167): its data goes where the operation wants it, and a save image that awaits it follows (R390). -/
def deliverReply (s : State) (f : Frame) : State :=
  let gone := { s with frames := s.frames.filter (fun g => g.uid ≠ f.uid) }
  if f.home ≠ Config.panel then gone
  else
    let s1 := oweRestores gone f.op
    match f.wb with
    | some u => landParts (f.kind = 0) u f.size s1 f.data f.parts
    | none => updateImages s (
      if f.kind = 0 then
        opDeliver s1 f.op ((List.range (f.size / 4)).map (fun i => f.dst + i)) [] (fun t => t.wrReply f)
      else if f.kind = 2 then
        opDeliver s1 f.op [] [f.dst] (fun t => t.wrS f.dst (BitVec.ofNat 64 (leNat f.data)))
      else opPart s1 f.op) f.op

/-- REMOTE_REPLY: the acknowledgement or reply leaves the target as a frame, and returns (R167, R172), unless the firewall of the issuer's island drops it
(R404). -/
def execRemoteReply (s : State) : Result :=
  goOn (match s.ev with
    | .remoteReply u =>
      (match s.frame? u with
      | none => s
      | some f =>
        if f.phase ≠ 1 then s
        else
          let s1 := if f.sentOn.isNone then
              let q := s.take
              sendOut q.2 f (Config.freeChoice q.1 % 8)
            else s
          match s1.frame? u with
          | none => s1
          | some g =>
            if g.relay then s1.oweOnce (.relayForward u)
            else if !admitsReply s1 g then remoteFail s1 g causeDenied g.xaddr
            else deliverReply s1 g)
    | _ => s)

/-- REMOTE_TIMEOUT: an operation that has not been performed 1 ms after its issue, or whose reply a saved team still awaits then (R171, R192,
R342, R390). -/
def execRemoteTimeout (s : State) : Result :=
  goOn (match s.ev with
    | .remoteTimeout u =>
      (match s.frame? u with
      | none => s
      | some f => if frameLate s f then remoteFail s f causeTimeout f.xaddr else s)
    | _ => s)

/-- REPORT_ONLY_TIMEOUT: a handler in report-only mode that has not ended in 1 ms is ended, and the context with it (R188). -/
def execReportOnlyTimeout (s : State) : Result :=
  goOn (match s.ev with
    | .reportOnlyTimeout u =>
      (match s.ctxs.find? (fun c => c.report.any (fun r => decide (r.1 = u ∧ r.2.1 + msCycles ≤ s.cycle))) with
      | none => s
      | some c => endContext s c.ctx (((c.report.find? (fun r => r.1 = u)).map (fun r => r.2.2)).getD 0) c.isl)
    | _ => s)

/-! ### TOPO (R327) -/

/-- The topology entry of a virtual island. -/
def topoOf (s : State) (v : Nat) : Option Topo := s.panel.topo.find? (fun e => decide (e.site < 48) && e.visl = v)

/-- The phase of an agent's own node. -/
def ownPhase (s : State) (t : Thread) : Nat :=
  match t.id.kind with
  | .hub => 48
  | .team => ((topoOf s t.id.isl).map (fun e => e.phase)).getD 0
  | .carter => ((topoOf s t.id.isl).map (fun e => e.phase)).getD 0

/-- The island view word. -/
def viewWord (s : State) (t : Thread) (v : Nat) : Word64 :=
  let st := if v < Config.nisl then ((topoOf s v).map (fun e => e.state)).getD 0 else 0
  let inPart := match s.ctx? t.id.isl t.id.ctx with
    | none => st = 1 || st = 2
    | some c => if t.id.ctx = 0 then st = 1 || st = 2 else c.islmask.getLsbD v
  let direct := st ≠ 0 && !(t.id.kind ≠ .hub && t.id.isl = v)
  let pair := Config.pairing (ownPhase s t) (((topoOf s v).map (fun e => e.phase)).getD 0)
  BitVec.ofNat 64 (v + st * 2 ^ 8 + b2n inPart * 2 ^ 11 + (if direct then pair / 8 % 7 * 2 ^ 16 + pair % 8 * 2 ^ 19 + 2 ^ 22 else 0)
    + Config.nisl * 2 ^ 32 + Config.panel * 2 ^ 40)

def execTopo (d a : BitVec 6) (s : State) : Result := goOn ((s.wrS d (viewWord s s.cur ((s.rdS a).toNat % 256))).retire)

end Sys2Proof.Machine
end

