-- ==== Sys2Proof/Machine/Bellows.lean ====
section
/-!
DEFINITION. Collectives: the tile table, the firing of its entries, the Bellows and its tiles (R173-R177, R191, R325, R326), and the
reception of frames (R172), among them tiles.
-/
namespace Sys2Proof.Machine

/-! ### Tile-table entries (R173) -/

/-- The fields of an entry. -/
structure TileForm where
  src : Nat
  dst : Nat
  size : Nat
  tag : Nat
  pk : Bool
  die : Nat
  tlx : Nat
  oper : Nat
  grp : Nat
  root : Nat
  mask : Word64
  reserved : Bool
  deriving DecidableEq, Repr

/-- An entry read. -/
def parseTile (bs : List Byte) : TileForm :=
  let n := leNat bs
  let g := fun hi lo => bitsOf n hi lo
  { src := g 63 0, dst := g 127 64, size := g 143 128, tag := g 159 144, pk := bitOf n 160, die := g 161 161, tlx := g 163 162,
    oper := g 167 164, grp := g 175 168, root := g 183 176, mask := BitVec.ofNat 64 (g 255 192), reserved := g 191 184 ≠ 0 }

/-- The key of an entry (R174, R175). -/
def TileForm.keyBits (f : TileForm) : Word64 := if f.pk then f.mask else BitVec.ofNat 64 f.grp

/-- The bytes of an entry in a context's tile table; none where the region no longer translates. -/
def entryBytes (s : State) (isl ctx e : Nat) : Option (List Byte) :=
  match s.ctx? isl ctx with
  | none => none
  | some c => (peek s isl ctx (c.ttbase.toNat + 32 * e)).map (fun pa => s.physBytes isl pa 32)

/-- The virtual address of an entry. -/
def entryVa (s : State) (isl ctx e : Nat) : Word64 := ((s.ctx? isl ctx).map (fun c => c.ttbase)).getD 0 + BitVec.ofNat 64 (32 * e)

/-- The line of an entry is known to be bad (R413). -/
def entryBad (s : State) (isl ctx e : Nat) : Bool :=
  ((peek s isl ctx (entryVa s isl ctx e).toNat).map (fun pa => lineBad s isl (pa / 128))).getD false

/-- The Bellows reads an entry: the walk sets A, and its bytes move at the L2 (R91, R402). -/
def entryRead (s : State) (isl ctx e : Nat) : State := l2Used (markAD s isl ctx (entryVa s isl ctx e).toNat false) isl ctx 32

/-- The virtual address of a ready word (R173). -/
def readyVa (s : State) (isl ctx e : Nat) : Word64 :=
  ((s.ctx? isl ctx).map (fun c => c.ttbase)).getD 0 + BitVec.ofNat 64 (readyOff + 8 * e)

/-- The islands of a mask. -/
def maskIslands (m : Word64) : List Nat := (List.range 64).filter (fun i => m.getLsbD i)

/-- The peers of an entry: the islands of its list, or those that host teams of its group (R173). -/
def tilePeers (s : State) (ctx : Nat) (f : TileForm) : List Nat :=
  if f.pk then maskIslands f.mask
  else (List.range 64).filter (fun i => s.groups.any (fun g => g.isl = i && g.ctx = ctx && g.entry = f.grp && !(groupMembers s g).isEmpty))

/-- An entry is valid for an island: its fields, this island among its peers, and every peer one that the context may reach (R173-R175). -/
def tileOk (s : State) (isl ctx : Nat) (f : TileForm) : Bool :=
  let ps := tilePeers s ctx f
  !f.reserved && decide (1 ≤ f.size) && decide (f.size ≤ 16384) && decide (f.oper ≤ 9) && ps.contains isl
    && (f.oper ≠ 0 || ps.contains f.root) && ps.all (fun p => islandWordOk s isl ctx (p + 256 * Config.panel))

/-! ### The end of a firing (R107, R176, R191) -/

/-- A Bellows timeline looked at: raised to the largest n such that operations 1 to n have ended. -/
def bellowsTimeline (s : State) (isl ctx die tlx : Nat) : State :=
  let t := s.timeline isl ctx (128 + die) (8 + tlx)
  let opens := (s.firings.filter (fun f => f.isl = isl && f.ctx = ctx && f.die = die && f.tlx = tlx && f.opn ≠ 0)).map (fun f => f.opn)
  let n := raisedTo t.given opens
  if t.raised < n then timelineRaise s t n else s

/-- A write of the Bellows to a ready word, which never fires the entry (R174). -/
def readySet (s : State) (isl ctx e : Nat) (v : Word64) : State :=
  match peek s isl ctx (readyVa s isl ctx e).toNat with
  | none => regionLost s isl ctx
  | some pa => l2Base (l2Used (markAD s isl ctx (readyVa s isl ctx e).toNat true) isl ctx 8) isl (cellsFrom pa (leBytes 8 v.toNat))

/-- A firing by its handle, written. -/
def State.setFiring (s : State) (f : Firing) : State := { s with firings := s.firings.map (fun g => if g.uid = f.uid then f else g) }

/-- A tile under the key of a firing. -/
def Firing.owns (f : Firing) (t : Tile) : Bool := t.isl = f.isl && t.ctx = f.ctx && t.pk = f.pk && t.keyBits = f.keyBits && t.tag = f.tag

/-- The earliest tile of a peer under a firing's key: a later one belongs to that peer's next firing, and is held (R177). -/
def tileFrom (s : State) (f : Firing) (p : Nat) : Option Tile :=
  (s.tiles.filter (fun t => f.owns t && t.sender = p)).foldl (fun o t => match o with
    | none => some t
    | some u => if t.seq < u.seq then some t else some u) none

/-- A tile has arrived whole. -/
def Tile.whole (t : Tile) : Bool := t.got = t.total

/-- The tiles that a firing takes: of each peer its earliest one. -/
def firingTiles (s : State) (f : Firing) : List Tile := f.peers.filterMap (tileFrom s f)

/-- The heat of a firing, or its request, goes back. -/
def firingHeat (s : State) (f : Firing) : State :=
  if 2 ≤ f.st then heatReturn s f.isl 1 else if f.st = 1 then heatCancel s f.isl 2 f.uid else s

/-- A firing ends: its ready word, its heat, the tiles that it has taken, its timeline. What is not whole stays under the key, and the next firing of
the key takes it as its peer's tile (DESIGN CHOICE, log 40). -/
def endFiring (s : State) (f : Firing) (v : Word64) : State :=
  let used := fun (t : Tile) => t.whole && (firingTiles s f).any (fun u => f.owns t && u.sender = t.sender && u.seq = t.seq)
  let s1 := firingHeat { s with firings := s.firings.filter (fun g => g.uid ≠ f.uid), tiles := s.tiles.filter (fun t => !used t) } f
  bellowsTimeline (readySet s1 f.isl f.ctx f.entry v) f.isl f.ctx f.die f.tlx

/-- The collective's fault path (R191): a record with BEL set, then the firing ends with the cause in its ready word. -/
def collFault (s : State) (f : Firing) (cause : BitVec 16) : State :=
  let r : FaultRec :=
    { ctxRecord cause f.isl f.ctx with
      cls := if causeClass cause = 0 then 2 else causeClass cause, flags := flBel, xaddr := entryVa s f.isl f.ctx f.entry, atype := 8 }
  endFiring (writeFault s f.isl f.ctx r).1 f (0x8000000000000000 + cause.zeroExtend 64)

/-! ### Firing (R174, R325) -/

/-- A key is live: a checked firing of the context on the island holds it. -/
def keyLive (s : State) (isl ctx : Nat) (f : TileForm) (but : Nat) : Bool :=
  s.firings.any (fun g => g.uid ≠ but && g.isl = isl && g.ctx = ctx && decide (1 ≤ g.st) && g.pk = f.pk && g.keyBits = f.keyBits && g.tag = f.tag)

/-- A firing with the fields of its entry, numbered on its timeline. The tiles held under its key are its Bellows' (R173, R177). -/
def fillFiring (s : State) (g : Firing) (f : TileForm) : State × Firing :=
  let t := s.timeline g.isl g.ctx (128 + f.die) (8 + f.tlx)
  let g1 : Firing :=
    { g with
      die := f.die, tlx := f.tlx, opn := t.given + 1, pk := f.pk, keyBits := f.keyBits, tag := f.tag, oper := f.oper, size := f.size
      src := BitVec.ofNat 64 f.src, dst := BitVec.ofNat 64 f.dst, root := f.root, peers := tilePeers s g.ctx f }
  let s1 := (s.setTimeline { t with given := t.given + 1 }).setFiring g1
  ({ s1 with tiles := s1.tiles.map (fun t => if g1.owns t then { t with die := f.die } else t) }, g1)

/-- A firing with its entry read: checked, then waiting for its heat unit (R174, R401). -/
def checkFiring (s : State) (g : Firing) (f : TileForm) : State :=
  let q := fillFiring s g f
  if tileOk s g.isl g.ctx f then
    heatRequest (q.1.setFiring { q.2 with st := 1 }) g.isl { kind := 2, who := g.uid, units := 1, prio := 0 }
  else collFault q.1 q.2 causeTile

/-- A firing whose entry cannot be read ends by the fault path (R179, R413). -/
def entryFault (s : State) (g : Firing) : State :=
  let q := fillFiring s g (parseTile [])
  let r : Firing := { q.2 with tag := 2 ^ 16 }
  collFault (q.1.setFiring r) r causeData

/-- TREADY (R325). -/
def treadyWith (d : BitVec 6) (i : Nat) (s : State) : State :=
  let t := s.cur
  let give := fun (s : State) (n : Nat) => (s.wrS d (BitVec.ofNat 64 n)).retire
  if !t.accessesDone then stall s
  else
    let s1 := releaseAll s t.mIsl t.id.core t.id.ctx scopeI
    if 4095 < i then give s1 3
    else if (s1.firing? t.id.isl t.id.ctx i).isSome then give s1 2
    else
      scalarAccess s1 (readyVa s1 t.id.isl t.id.ctx i).toNat 8 .write 2 (fun s2 pa _ =>
        let s3 := entryRead (l2Base (l2Used (dropLine s2 t.mIsl t.id.core (pa / 128)) t.mIsl t.id.ctx 8) t.id.isl (cellsFrom pa (leBytes 8 1)))
          t.id.isl t.id.ctx i
        match entryBytes s3 t.id.isl t.id.ctx i with
        | none => regionLost s3 t.id.isl t.id.ctx
        | some bs =>
          let f := parseTile bs
          let q := s3.take
          let g := newFiring q.1 t.id.isl t.id.ctx i
          let s4 := { q.2 with firings := q.2.firings ++ [g] }
          if entryBad s3 t.id.isl t.id.ctx i then give (entryFault s4 g) 0
          else if keyLive s3 t.id.isl t.id.ctx f 0 then give s3 1
          else give (checkFiring s4 g f) 0)

def execTready (d a : BitVec 6) (s : State) : Result := goOn (treadyWith d (s.rdS a).toNat s)

/-! ### Sending (R175, BELLOWS_SEND) -/

/-- n bytes read by the Bellows through its die's translations, from the L2. -/
def bellowsRead (isl die ctx : Nat) (s : State) (va : Nat) : Nat → State × Option Probe × List Byte
  | 0 => (s, none, [])
  | n + 1 =>
    let a := BitVec.ofNat 64 va
    if 2 ^ 64 ≤ va then (s, some (.bad causeUnmapped a), [])
    else match translate s isl (128 + die) ctx va .read with
      | (s1, .fault c) => (s1, some (.bad c a), [])
      | (s1, .notPresent) => (s1, some (.page a), [])
      | (s1, .ok pa _) =>
        if lineBad s1 isl (pa / 128) then (s1, some (.bad causeData a), [])
        else
          let r := bellowsRead isl die ctx s1 (va + 1) n
          (r.1, r.2.1, s1.physGet isl pa :: r.2.2)

/-- Where n bytes lie for a write of the Bellows. -/
def bellowsTargets (isl die ctx : Nat) (s : State) (va : Nat) : Nat → State × Option Probe × List Nat
  | 0 => (s, none, [])
  | n + 1 =>
    let a := BitVec.ofNat 64 va
    if 2 ^ 64 ≤ va then (s, some (.bad causeUnmapped a), [])
    else match translate s isl (128 + die) ctx va .write with
      | (s1, .fault c) => (s1, some (.bad c a), [])
      | (s1, .notPresent) => (s1, some (.page a), [])
      | (s1, .ok pa _) =>
        let r := bellowsTargets isl die ctx s1 (va + 1) n
        (r.1, r.2.1, pa :: r.2.2)

/-- What a failed access does to a firing: its fault path, or a pause until the page is present (R94, R177). -/
def bellowsStop (s : State) (f : Firing) : Probe → State
  | .bad c _ => collFault s f c
  | .page v => postPageFault s f.isl f.ctx v 8
  | .ok _ _ => s

/-- How many bytes of a tile an island contributes to a firing: none for OP 0, where only ROOT sends (R175). -/
def Firing.gives (f : Firing) : Nat := if f.oper = 0 ∧ f.root ≠ f.isl then 0 else 128 * f.size

/-- The frame of some bytes of a tile for one peer (R172). -/
def tileFrame (s : State) (f : Firing) (uid p at_ : Nat) (bs : List Byte) : Frame :=
  { uid := uid, seq := f.uid, isl := f.isl, core := 0xFF, ctx := f.ctx, agent := 0, op := 0, lane := 0, dst := f.size, panel := Config.panel,
    tgt := p, va := f.keyBits, kind := 4, size := f.gives, aop := f.oper, redop := 0, data := bs, cmp := BitVec.ofNat 64 f.tag, ord := f.pk,
    rel := false, acq := false, wb := none, elem := at_, parts := [(0, entryVa s f.isl f.ctx f.entry)], die := f.die, phase := 0, sentOn := none, relay := false
    admitted := false, home := Config.panel, retried := 0, sentAt := s.cycle, launch := 0, xpc := 0, insn := 0 }

/-- A tile cut into the bytes of its frames, with their places; one empty frame for a tile without bytes. -/
def tileParts (bs : List Byte) : List (Nat × List Byte) :=
  (List.range (max 1 ((bs.length + framePayload - 1) / framePayload))).map (fun i =>
    (i * framePayload, (bs.drop (i * framePayload)).take framePayload))

/-- The frames of a tile leave for its peers. -/
def sendTiles (f : Firing) (s : State) : List (Nat × Nat × List Byte) → State
  | [] => s
  | x :: xs =>
    let q := s.take
    sendTiles f (sendFrame q.2 (tileFrame q.2 f q.1 x.1 x.2.1 x.2.2)) xs

/-- A firing with its heat reads SRC, where it contributes a tile, and sends it to each other peer (R175). A peer without a contribution sends
a frame without bytes, which tells its OP and SIZE (DEDUCED, log 40). -/
def bellowsSend (s : State) (f : Firing) : State :=
  let r := bellowsRead f.isl f.die f.ctx (l2Used s f.isl f.ctx f.gives) f.src.toNat f.gives
  match r.2.1 with
  | some p => bellowsStop r.1 f p
  | none =>
    let own : Tile :=
      { isl := f.isl, ctx := f.ctx, die := f.die, pk := f.pk, keyBits := f.keyBits, tag := f.tag, sender := f.isl, seq := f.uid, oper := f.oper
        size := f.size, total := f.gives, got := f.gives, spill := false, spot := 0, fault := none, bytes := r.2.2 }
    let s1 := { (r.1.setFiring { f with sent := true }) with tiles := r.1.tiles ++ [own] }
    let outs := (f.peers.filter (fun p => p ≠ f.isl)).flatMap (fun p => (tileParts r.2.2).map (fun x => (p, x)))
    (sendTiles f s1 outs).oweOnce (.collectiveComplete f.isl f.ctx f.entry)

/-- BELLOWS_SEND: a firing that a write has brought about is checked; one that has its heat sends its tile. -/
def execBellowsSend (s : State) : Result :=
  goOn (match s.ev with
    | .bellowsSend isl ctx e =>
      (match s.firing? isl ctx e with
      | none => s
      | some g =>
        if g.st = 0 then
          (match entryBytes s isl ctx e with
          | none => regionLost s isl ctx
          | some bs =>
            let s1 := entryRead s isl ctx e
            let f := parseTile bs
            if entryBad s isl ctx e then entryFault s1 g
            else if keyLive s1 isl ctx f g.uid then
              let q := fillFiring s1 g f
              let r : Firing := { q.2 with tag := 2 ^ 16 }
              collFault (q.1.setFiring r) r causeTagBusy
            else checkFiring s1 g f)
        else if g.st = 2 && !g.sent then bellowsSend s g
        else s)
    | _ => s)

/-! ### Combining (R175, R176, COLLECTIVE_COMPLETE) -/

/-- Elements of a tile, of w bytes each. -/
def tileElems (w : Nat) (bs : List Byte) : List Nat := (List.range (bs.length / w)).map (fun i => leNat ((bs.drop (w * i)).take w))

/-- A step of a fold on FP32 numbers: sum by RNE, min, max; a NaN gives the canonical NaN (R175). -/
def foldFp (k a b : Nat) : Nat :=
  if fp32.isNan a || fp32.isNan b then fp32.nan
  else if k = 1 then (fSum fp32 rne a b).1 else (fPick fp32 (k = 3) true a b).1

/-- A step of a fold on INT32 numbers: wrapping sum, min, max (R175). -/
def foldInt (k a b : Nat) : Nat :=
  let x : Word32 := BitVec.ofNat 32 a
  let y : Word32 := BitVec.ofNat 32 b
  (if k = 1 then x + y else if k = 2 then (if y.slt x then y else x) else if x.slt y then y else x).toNat

/-- The fold of one element's contributions, lowest virtual island first (R175). -/
def foldElem (oper : Nat) (xs : List Nat) : Nat :=
  match xs with
  | [] => 0
  | x :: r =>
    if oper ≤ 3 then r.foldl (foldFp oper) (if fp32.isNan x then fp32.nan else x)
    else if oper ≤ 6 then
      let wide := fun (y : Nat) => (narrow fp32 rne false (bf16.decode y)).1
      (narrow bf16 rne false (fp32.decode (r.foldl (fun a y => foldFp (oper - 3) a (wide y)) (wide x)))).1
    else r.foldl (foldInt (oper - 6)) x

/-- The bytes of an element under an operator. -/
def operBytes (oper : Nat) : Nat := if 4 ≤ oper ∧ oper ≤ 6 then 2 else 4

/-- A frame of an earlier tile of the same peer under the same key is still under way. -/
def tileBehind (s : State) (f : Firing) (t : Tile) : Bool :=
  s.frames.any (fun g => g.kind = 4 && g.phase ≠ 1 && g.panel = Config.panel && g.tgt = f.isl && g.ctx = f.ctx && g.isl = t.sender && g.ord = f.pk
    && g.va = f.keyBits && g.cmp.toNat = f.tag && decide (g.seq < t.seq))

/-- The result of a firing whose tiles are at hand (R175). -/
def combine (f : Firing) (ts : List Tile) : List Byte :=
  if f.oper = 0 then ((ts.find? (fun t => t.sender = f.root)).map (fun t => t.bytes)).getD []
  else
    let w := operBytes f.oper
    let es := ts.map (fun t => tileElems w t.bytes)
    (List.range (128 * f.size / w)).flatMap (fun i => leBytes w (foldElem f.oper (es.map (fun e => e.getD i 0))))

/-- The address of a place in a context's spill region. -/
def spillVa (s : State) (isl ctx spot : Nat) : Nat := ((s.ctx? isl ctx).map (fun c => c.splbase.toNat)).getD 0 + spot

/-- The tiles of a firing with their bytes: those of the spill region are read from it (R177). -/
def readSpills (f : Firing) (s : State) : List Tile → State × Option Probe × List Tile
  | [] => (s, none, [])
  | t :: ts =>
    let q := if t.spill then bellowsRead f.isl f.die f.ctx (l2Used s f.isl f.ctx t.total) (spillVa s f.isl f.ctx t.spot) t.total else (s, none, t.bytes)
    match q.2.1 with
    | some p => (q.1, some p, [])
    | none =>
      let r := readSpills f q.1 ts
      (r.1, r.2.1, { t with bytes := q.2.2 } :: r.2.2)

/-- A firing that holds every tile writes DST, gives its heat back, writes 0 to its ready word and raises its timeline (R176). -/
def finishFiring (s : State) (f : Firing) (ts : List Tile) : State :=
  let bs := combine f ts
  let q := bellowsTargets f.isl f.die f.ctx s f.dst.toNat bs.length
  match q.2.1 with
  | some p => bellowsStop q.1 f p
  | none =>
    let t := q.1.timeline f.isl f.ctx (128 + f.die) (8 + f.tlx)
    let s1 := q.1.setTimeline { t with dests := q.2.2.map (fun pa => (f.opn, pa, 1)) ++ t.dests }
    endFiring (l2Base (l2Used s1 f.isl f.ctx bs.length) f.isl (q.2.2.zip bs)) f 0

/-- COLLECTIVE_COMPLETE: a firing looks at its tiles. One whose sender disagrees on OP or SIZE, or whose spill page has failed, ends it by the
fault path; with one of every peer it is combined (R175-R177). -/
def execCollectiveComplete (s : State) : Result :=
  goOn (match s.ev with
    | .collectiveComplete isl ctx e =>
      (match s.firing? isl ctx e with
      | none => s
      | some f =>
        let ts := firingTiles s f
        if f.st < 2 || !f.sent then s
        else if ts.any (fun t => t.oper ≠ f.oper || t.size ≠ f.size) then collFault s f causeColl
        else match ts.findSome? (fun t => t.fault) with
          | some c => collFault s f c
          | none =>
            if ts.length = f.peers.length ∧ ts.all (fun t => t.whole && !tileBehind s f t) then
              let g : Firing := { f with st := 3 }
              let q := readSpills g s ts
              (match q.2.1 with
              | some p => bellowsStop q.1 f p
              | none => finishFiring (q.1.setFiring g) g q.2.2)
            else s)
    | _ => s)

/-! ### Tiles that arrive (R177) -/

/-- Bytes of staging SRAM that tiles of other islands hold on a die (R173). -/
def stagedBytes (s : State) (isl die : Nat) (p : Tile → Bool) : Nat :=
  ((s.tiles.filter (fun t => t.isl = isl && t.die = die && !t.spill && t.sender ≠ isl && p t)).map (fun t => t.total)).sum

/-- The lowest place in a context's spill region with room for n bytes beside the tiles it holds (DESIGN CHOICE, log 24). -/
def spillSpot (s : State) (isl ctx n : Nat) : Nat :=
  let ts := s.tiles.filter (fun t => t.isl = isl && t.ctx = ctx && t.spill)
  let ends := ts.map (fun t => t.spot + t.total)
  ((0 :: ends).filter (fun k => ts.all (fun t => decide (k + n ≤ t.spot) || decide (t.spot + t.total ≤ k)))).foldl min (ends.foldl max 0)

/-- The firings of an island that may use a tile look again. -/
def tileLook (s : State) (t : Tile) : State :=
  (s.firings.filter (fun f => f.owns t)).foldl (fun s f => s.oweOnce (.collectiveComplete f.isl f.ctx f.entry)) s

/-- The tile that a frame belongs to, if some of it has arrived. -/
def tileOf (s : State) (f : Frame) : Option Tile :=
  s.tiles.find? (fun t => t.isl = f.tgt && t.ctx = f.ctx && t.pk = f.ord && t.keyBits = f.va && t.tag = f.cmp.toNat && t.sender = f.isl && t.seq = f.seq)

/-- The die whose Bellows stages a tile: that of the live firing of its key; before one, the sender's number (R173, R177; DESIGN CHOICE, log 40). -/
def tileDie (s : State) (f : Frame) : Nat :=
  ((s.firings.find? (fun g => g.isl = f.tgt && g.ctx = f.ctx && decide (1 ≤ g.st) && g.pk = f.ord && g.keyBits = f.va && g.tag = f.cmp.toNat)).map
    (fun g => g.die)).getD f.die

/-- The place of a tile of which nothing has arrived: in staging or, when that is full, in the spill region (R177). -/
def newTile (s : State) (f : Frame) : Tile :=
  let die := tileDie s f
  let spill := decide (2 ^ 21 < stagedBytes s f.tgt die (fun _ => true) + f.size)
  { isl := f.tgt, ctx := f.ctx, die := die, pk := f.ord, keyBits := f.va, tag := f.cmp.toNat, sender := f.isl, seq := f.seq, oper := f.aop
    size := f.dst, total := f.size, got := 0, spill := spill, spot := spillSpot s f.tgt f.ctx f.size, fault := none
    bytes := if spill then [] else List.replicate f.size 0 }

/-- A tile with a frame's bytes, which staging holds, or with the failure of their page. -/
def Tile.take (t : Tile) (f : Frame) (fault : Option (BitVec 16)) : Tile :=
  { t with
    got := t.got + f.data.length, fault := if t.fault.isSome then t.fault else fault
    bytes := if t.spill then [] else t.bytes.take f.elem ++ f.data ++ t.bytes.drop (f.elem + f.data.length) }

/-- Bytes of a tile land under its key (R177). Those of a spilled tile are written to the spill region: an absent page parks them, and any other failure
goes to the fault path of the collective that takes the tile (R385). -/
def tileArrive (s : State) (f : Frame) : State :=
  let t := (tileOf s f).getD (newTile s f)
  let rest := s.tiles.filter (fun u => !(u.isl = t.isl && u.ctx = t.ctx && u.pk = t.pk && u.keyBits = t.keyBits && u.tag = t.tag
    && u.sender = t.sender && u.seq = t.seq))
  let land := fun (s : State) (c : Option (BitVec 16)) => performed (tileLook { s with tiles := rest ++ [t.take f c] } t) f []
  if !t.spill then land s none
  else match s.ctx? f.tgt f.ctx with
    | none => remoteFail s f causeXlate f.xaddr
    | some c =>
      if c.splsz * 2 ^ 20 < t.spot + t.total then land s (some causeUnmapped)
      else
        let q := bellowsTargets f.tgt t.die f.ctx s (spillVa s f.tgt f.ctx (t.spot + f.elem)) f.data.length
        match q.2.1 with
        | none => land (l2Base (l2Used q.1 f.tgt f.ctx f.data.length) f.tgt (q.2.2.zip f.data)) none
        | some (.page v) => postPageFault (q.1.setFrameOp { f with phase := 2 }) f.tgt f.ctx v 8
        | some (.bad b _) => land q.1 (some b)
        | some (.ok _ _) => s

/-! ### The reception of frames (R172, FRAME_RECEIVE) -/

/-- What becomes of an operation at another panel, whose memory is no part of this model: it is performed with some answer, or it fails there in one
of the ways of R170 (log 25). -/
def performFar (s : State) (f : Frame) : State :=
  let q := s.take
  let n := f.size * max 1 f.parts.length
  let k := Config.freeChoice q.1 % 4
  if k = 1 then remoteFail q.2 f causeXlate f.xaddr
  else if k = 2 then remoteFail q.2 f causeDenied f.xaddr
  else if k = 3 ∧ f.kind ≠ 1 then remoteFail q.2 f causeData f.xaddr
  else performed { q.2 with fresh := q.2.fresh + n } f ((List.range n).map (fun i => Config.freeByte (q.2.fresh + i)))

/-- A frame that has left its engine and met no relay any more: once its tag has checked, the firewall looks at it, once (R404). -/
def receiveFrame (s : State) (f : Frame) : State :=
  if f.panel ≠ Config.panel then (if mayPerform s f then performFar s f else s)
  else if !f.admitted && !admits s f then remoteFail s f causeDenied f.xaddr
  else
    let g := { f with admitted := true }
    let s1 := s.setFrameOp g
    if f.kind = 4 then tileArrive s1 g
    else if mayPerform s1 g then performFrame s1 g
    else s1

/-- FRAME_RECEIVE: a whole frame whose tag checks is performed once, or dropped by the firewall; one that comes after its millisecond is a
remote timeout (R171, R342). -/
def execFrameReceive (s : State) : Result :=
  goOn (match s.ev with
    | .frameReceive u =>
      (match s.frame? u with
      | none => s
      | some f =>
        if f.phase = 1 then s
        else if f.phase = 2 then tileArrive (s.setFrameOp { f with phase := 0 }) { f with phase := 0 }
        else if frameLate s f then remoteFail s f causeTimeout f.xaddr
        else
          let s1 := if f.sentOn.isNone then
              let q := s.take
              sendOut q.2 f (Config.freeChoice q.1 % 8)
            else s
          match s1.frame? u with
          | none => s1
          | some g => if g.relay then s1.oweOnce (.relayForward u) else receiveFrame s1 g)
    | _ => s)

/-! ### CLQRY (R326) -/

/-- The figure that k selects. -/
def clFigure (s : State) (isl ctx i k : Nat) : Nat :=
  let f := s.firing? isl ctx i
  if k = 0 then (f.map (fun f => max 1 f.st)).getD 0
  else if k = 1 then (f.map (fun f => ((firingTiles s f).filter (fun t => t.sender ≠ isl && t.whole && t.total ≠ 0)).length)).getD 0
  else if k = 2 then (f.map (fun f => f.peers.length)).getD 0
  else
    let die := match f, entryBytes s isl ctx i with
      | some g, _ => g.die
      | none, some bs => (parseTile bs).die
      | none, none => 0
    stagedBytes s isl die (fun t => t.ctx = ctx) / 1024

def execClqry (d a k : BitVec 6) (s : State) : Result :=
  let i := (s.rdS a).toNat
  let t := s.cur
  goOn ((s.wrS d (if 4095 < i then BitVec.allOnes 64 else BitVec.ofNat 64 (clFigure s t.id.isl t.id.ctx i k.toNat))).retire)

end Sys2Proof.Machine
end

