-- ==== Sys2Proof/WellFormed.lean ====
section
/-!
DEFINITION. Which instructions are well formed: the checks of R219 steps 3 to 5 that depend on the word alone.
-/
namespace Sys2Proof

/-- R219 step 3: fields that must be zero because another field of the word leaves them unused (R261, R262, R290, R305, R306). -/
def Instr.zerosOk : Instr → Bool
  | .mchb _ _ _ c g => c == 1 || g == 0
  | .mma _ v e _ _ s _ => s == 1 || (v == 0 && e == 0)
  | .vred d a t o _ => (t == 0 || d.toNat < 64) && (o != 13 || a == 0)
  | .vscani _ a o _ => o != 13 || a == 0
  | .vscanx _ a o _ => o != 13 || a == 0
  | .waitge _ b f _ _ => f != 2 || b == 0
  | .nop | .trap _ | .brk _ | .tret | .tkill | .tskip | .mfsr _ _ | .mtsr _ _ | .halt | .sadd _ _ _ | .ssub _ _ _ | .smul _ _ _
  | .smulh _ _ _ | .smulhu _ _ _ | .sdiv _ _ _ | .sdivu _ _ _ | .srem _ _ _ | .sremu _ _ _ | .sand _ _ _ | .sor _ _ _
  | .sxor _ _ _ | .sshl _ _ _ | .sshr _ _ _ | .ssra _ _ _ | .smin _ _ _ | .smax _ _ _ | .sminu _ _ _ | .smaxu _ _ _ | .sclz _ _
  | .spopc _ _ | .saddi _ _ _ | .sshli _ _ _ | .sshri _ _ _ | .ssrai _ _ _ | .slui _ _ | .scmp _ _ _ _ | .scmpi _ _ _ _
  | .sldW _ _ _ | .sldD _ _ _ | .sstW _ _ _ | .sstD _ _ _ | .br _ _ _ | .call _ | .jmpr _ | .callr _ | .ret | .cand _ _ _
  | .cor _ _ _ | .cxor _ _ _ | .cnot _ _ | .looph _ _ | .loophi _ _ | .lbrk | .vif _ | .velse | .vendif | .vloop | .vbrk _ _
  | .vcont _ _ | .endvl _ | .exit | .exitS _ | .yield | .yieldc _ _ _ | .split _ | .fuse _ _ _ | .lease _ | .leasem
  | .leaseq _ _ | .gbar _ _ _ | .garrive _ _ _ _ | .gwait _ _ _ _ | .gqry _ _ _ | .vadd _ _ _ _ | .vsub _ _ _ _
  | .vadds _ _ _ _ | .vsubs _ _ _ _ | .vmul _ _ _ _ | .vmulh _ _ _ _ | .vmulhu _ _ _ _ | .vmad _ _ _ _ | .vand _ _ _ _
  | .vor _ _ _ _ | .vxor _ _ _ _ | .vandn _ _ _ _ | .vshl _ _ _ _ | .vshr _ _ _ _ | .vsra _ _ _ _ | .vrot _ _ _ _
  | .vmin _ _ _ _ | .vmax _ _ _ _ | .vminu _ _ _ _ | .vmaxu _ _ _ _ | .vaddus _ _ _ _ | .vsubus _ _ _ _ | .vabsd _ _ _ _
  | .vavg _ _ _ _ | .vceq _ _ _ _ | .vcne _ _ _ _ | .vclt _ _ _ _ | .vcle _ _ _ _ | .vcltu _ _ _ _ | .vcleu _ _ _ _
  | .vctst _ _ _ _ | .vaddh2 _ _ _ _ | .vaddb4 _ _ _ _ | .vmulh2 _ _ _ _ | .vdot4 _ _ _ _ | .vsel _ _ _ _ | .vclz _ _ _
  | .vpopc _ _ _ | .vbrev _ _ _ | .vaddi _ _ _ _ | .vshli _ _ _ _ | .vshri _ _ _ _ | .vsrai _ _ _ _ | .vmovi _ _ _
  | .vmovhi _ _ _ | .vcmpi _ _ _ _ _ | .fadd _ _ _ _ | .fsub _ _ _ _ | .fmul _ _ _ _ | .fmac _ _ _ _ | .fmin _ _ _ _
  | .fmax _ _ _ _ | .fminm _ _ _ _ | .fmaxm _ _ _ _ | .fceq _ _ _ _ | .fclt _ _ _ _ | .fcle _ _ _ _ | .fcun _ _ _ _
  | .fdiv _ _ _ _ | .fsqrt _ _ _ | .frsq _ _ _ | .frcp _ _ _ | .fexp2 _ _ _ | .flog2 _ _ _ | .fsinpi _ _ _ | .fcospi _ _ _
  | .fma _ _ _ _ _ | .fms _ _ _ _ _ | .fnma _ _ _ _ _ | .fnms _ _ _ _ _ | .hadd2 _ _ _ _ | .hmul2 _ _ _ _ | .hfmac2 _ _ _ _
  | .hmax2 _ _ _ _ | .badd2 _ _ _ _ | .bmul2 _ _ _ _ | .bfmac2 _ _ _ _ | .bmax2 _ _ _ _ | .cvt _ _ _ _ _ | .fclass _ _ _
  | .frint _ _ _ | .fscalb _ _ _ _ | .fgetexp _ _ _ | .pand _ _ _ | .por _ _ _ | .pxor _ _ _ | .pandn _ _ _ | .pnot _ _
  | .pflag _ _ | .flclr _ | .flrd _ | .mfacc _ _ _ _ _ | .mtacc _ _ _ _ | .mfaccz _ _ _ _ _ | .shfli _ _ _ _ | .shflu _ _ _ _
  | .shfld _ _ _ _ | .shflx _ _ _ _ | .vall _ _ _ _ | .vany _ _ _ _ | .vbal _ _ _ | .vcnt _ _ _ | .vbcast _ _ _ | .vextr _ _ _
  | .vinsr _ _ _ | .vcprs _ _ _ | .vlane _ _ | .vtid _ | .lds _ _ _ _ _ | .sts _ _ _ _ _ | .lda _ _ _ _ _ | .sta _ _ _ _ _
  | .ldg _ _ _ _ _ | .stg _ _ _ _ _ | .atom _ _ _ _ _ | .fence _ _ | .acq _ _ _ | .rel _ _ _ | .bind _ _ _ | .unbind _
  | .cinv _ _ | .cwbWriteback _ _ | .satom _ _ _ _ _ | .wait _ _ _ _ _ | .cpost _ | .waitgec _ _ _ _ _ | .launch _
  | .launchnb _ _ | .armcnt _ _ _ | .disarm _ _ | .cntrd _ _ _ | .heat _ _ | .cool _ | .cwbWaybill _ _ | .cwbr _ _ | .cstra _ _
  | .cstrb _ _ | .cinbox _ | .cdone | .ctladv _ _ | .cwaitq _ _ | .mche _ | .mzacc _ _ | .mcap _ | .mstat _ _ | .rldW _ _ _ _ _
  | .rldD _ _ _ _ _ | .rldQ _ _ _ _ _ | .rstW _ _ _ _ _ | .rstD _ _ _ _ _ | .rstQ _ _ _ _ _ | .ratom _ _ _ _ _
  | .rnotify _ _ _ _ | .rfence | .tready _ _ | .clqry _ _ _ | .topo _ _ | .himm _ | .hmod _ _ _ | .hsched _ _ _ | .hnop _
  | .hintKindNoop _ _ | .accessComplete | .atomicPerform | .writeArrival | .counterCarterMessage | .tlbInvalidationAck
  | .islandTaskPush | .pendingLaunchForward | .coachPlacement | .teamAdmission | .leaseWindowEnd | .teamForced | .teamWake
  | .fuseTimeout | .swapOut | .coachRestore | .quantumBoundary | .successorPush | .taskCompletion | .joinDecrement | .heatGrant
  | .waybillElementLand | .waybillComplete | .streamBlockPush | .chainDispatch | .kblockApply | .frameReceive | .frameRetry
  | .relayForward | .rotorSlot | .remoteReply | .remoteTimeout | .reportOnlyTimeout | .bellowsSend | .collectiveComplete
  | .hcpselWrite | .queueEnable | .queueDisable | .doorbell | .cmdNop | .cmdLaunch | .cmdWrite | .cmdCopy | .cmdMctset
  | .cmdKill | .launchDispatch | .ctxCreate | .ctxDestroy | .ctxSuspend | .ctxResume | .inval | .pfDone | .topoRead
  | .topoFence | .topoRemap | .hearthBudgetWrite | .fwmaskWrite | .corectxWrite | .keyZeroise | .fareqAssign | .fareqQuarantine
  | .scrubStart | .scrubUnit | .islandReset | .islandResetEnd | .discard | .hubWake | .registerWrite | .energyWindow
  | .correctedError | .uncorrectableError | .temperatureCrossing | .linkWindowEnd | .fwLoad | .fwVerifyComplete | .hubReset
  | .spdmRequest | .powerOn | .illegalInsn | .instructionFetchFault | .invalidCommand | .invalidMailboxRequest
  | .edgePortLinkUp | .powerLoss => true

/-- R219 step 4: every code field holds a code that its table lists. -/
def Instr.codesOk : Instr → Bool
  | .mfsr _ r => r.toNat ≤ 26
  | .mtsr _ r => r.toNat ≤ 26
  | .scmp _ c _ _ => c.toNat ≤ 5
  | .scmpi _ c _ _ => c.toNat ≤ 5
  | .vcmpi _ c _ _ _ => c.toNat ≤ 5
  | .yieldc _ _ t => t.toNat ≤ 4 || (8 ≤ t.toNat && t.toNat ≤ 11)
  | .fuse _ w _ => w.toNat ≤ 4
  | .leaseq _ k => k.toNat ≤ 4
  | .gbar _ s _ => s == 1 || s == 2
  | .garrive _ _ s o => (s == 1 || s == 2) && (o == 0 || o == 2)
  | .gwait _ _ s o => (s == 1 || s == 2) && (o == 0 || o == 1)
  | .gqry _ _ k => k.toNat ≤ 3
  | .cvt _ _ k _ m => k.toNat ≤ 11 || (k.toNat ≤ 17 && m == 0)
  | .pflag _ f => f.toNat ≤ 4
  | .vall _ _ k s => k == 0 || s.toNat ≤ 4
  | .vany _ _ k s => k == 0 || s.toNat ≤ 4
  | .vbal _ k s => k == 0 || s.toNat ≤ 4
  | .vcnt _ k s => k == 0 || s.toNat ≤ 4
  | .mfacc _ _ k _ _ => k.toNat ≤ 12
  | .mtacc _ k _ _ => k.toNat ≤ 12
  | .mfaccz _ _ k _ _ => k.toNat ≤ 12
  | .vred _ _ _ o _ => o.toNat ≤ 13
  | .vscani _ _ o _ => o.toNat ≤ 13
  | .vscanx _ _ o _ => o.toNat ≤ 13
  | .lds _ _ _ _ z => z.toNat ≤ 6
  | .lda _ _ _ _ z => z.toNat ≤ 6
  | .ldg _ _ _ _ z => z.toNat ≤ 6
  | .sts _ _ _ _ z => z.toNat ≤ 4
  | .sta _ _ _ _ z => z.toNat ≤ 4
  | .stg _ _ _ _ z => z.toNat ≤ 4
  | .atom _ _ _ o _ => o.toNat ≤ 10
  | .satom o _ _ _ _ => o.toNat ≤ 9
  | .ratom o _ _ _ _ => o.toNat ≤ 9
  | .fence s o => o != 0 && s != 3
  | .acq _ _ s => s != 3
  | .rel _ _ s => s != 3
  | .waitge _ _ f s _ => f != 3 && s != 3
  | .waitgec _ _ f s _ => f.toNat ≤ 1 && s != 3
  | .cntrd _ k _ => k.toNat ≤ 3
  | .cwaitq _ k => k.toNat ≤ 4
  | .clqry _ _ k => k.toNat ≤ 3
  | .hmod c _ _ => c.toNat ≤ 3
  | .hintKindNoop kind _ => 4 ≤ kind.toNat
  | .mma f _ _ _ _ _ _ => f.toNat ≤ 9
  | .nop | .trap _ | .brk _ | .tret | .tkill | .tskip | .halt | .sadd _ _ _ | .ssub _ _ _ | .smul _ _ _ | .smulh _ _ _
  | .smulhu _ _ _ | .sdiv _ _ _ | .sdivu _ _ _ | .srem _ _ _ | .sremu _ _ _ | .sand _ _ _ | .sor _ _ _ | .sxor _ _ _
  | .sshl _ _ _ | .sshr _ _ _ | .ssra _ _ _ | .smin _ _ _ | .smax _ _ _ | .sminu _ _ _ | .smaxu _ _ _ | .sclz _ _ | .spopc _ _
  | .saddi _ _ _ | .sshli _ _ _ | .sshri _ _ _ | .ssrai _ _ _ | .slui _ _ | .sldW _ _ _ | .sldD _ _ _ | .sstW _ _ _
  | .sstD _ _ _ | .br _ _ _ | .call _ | .jmpr _ | .callr _ | .ret | .cand _ _ _ | .cor _ _ _ | .cxor _ _ _ | .cnot _ _
  | .looph _ _ | .loophi _ _ | .lbrk | .vif _ | .velse | .vendif | .vloop | .vbrk _ _ | .vcont _ _ | .endvl _ | .exit
  | .exitS _ | .yield | .split _ | .lease _ | .leasem | .vadd _ _ _ _ | .vsub _ _ _ _ | .vadds _ _ _ _ | .vsubs _ _ _ _
  | .vmul _ _ _ _ | .vmulh _ _ _ _ | .vmulhu _ _ _ _ | .vmad _ _ _ _ | .vand _ _ _ _ | .vor _ _ _ _ | .vxor _ _ _ _
  | .vandn _ _ _ _ | .vshl _ _ _ _ | .vshr _ _ _ _ | .vsra _ _ _ _ | .vrot _ _ _ _ | .vmin _ _ _ _ | .vmax _ _ _ _
  | .vminu _ _ _ _ | .vmaxu _ _ _ _ | .vaddus _ _ _ _ | .vsubus _ _ _ _ | .vabsd _ _ _ _ | .vavg _ _ _ _ | .vceq _ _ _ _
  | .vcne _ _ _ _ | .vclt _ _ _ _ | .vcle _ _ _ _ | .vcltu _ _ _ _ | .vcleu _ _ _ _ | .vctst _ _ _ _ | .vaddh2 _ _ _ _
  | .vaddb4 _ _ _ _ | .vmulh2 _ _ _ _ | .vdot4 _ _ _ _ | .vsel _ _ _ _ | .vclz _ _ _ | .vpopc _ _ _ | .vbrev _ _ _
  | .vaddi _ _ _ _ | .vshli _ _ _ _ | .vshri _ _ _ _ | .vsrai _ _ _ _ | .vmovi _ _ _ | .vmovhi _ _ _ | .fadd _ _ _ _
  | .fsub _ _ _ _ | .fmul _ _ _ _ | .fmac _ _ _ _ | .fmin _ _ _ _ | .fmax _ _ _ _ | .fminm _ _ _ _ | .fmaxm _ _ _ _
  | .fceq _ _ _ _ | .fclt _ _ _ _ | .fcle _ _ _ _ | .fcun _ _ _ _ | .fdiv _ _ _ _ | .fsqrt _ _ _ | .frsq _ _ _ | .frcp _ _ _
  | .fexp2 _ _ _ | .flog2 _ _ _ | .fsinpi _ _ _ | .fcospi _ _ _ | .fma _ _ _ _ _ | .fms _ _ _ _ _ | .fnma _ _ _ _ _
  | .fnms _ _ _ _ _ | .hadd2 _ _ _ _ | .hmul2 _ _ _ _ | .hfmac2 _ _ _ _ | .hmax2 _ _ _ _ | .badd2 _ _ _ _ | .bmul2 _ _ _ _
  | .bfmac2 _ _ _ _ | .bmax2 _ _ _ _ | .fclass _ _ _ | .frint _ _ _ | .fscalb _ _ _ _ | .fgetexp _ _ _ | .pand _ _ _
  | .por _ _ _ | .pxor _ _ _ | .pandn _ _ _ | .pnot _ _ | .flclr _ | .flrd _ | .shfli _ _ _ _ | .shflu _ _ _ _ | .shfld _ _ _ _
  | .shflx _ _ _ _ | .vbcast _ _ _ | .vextr _ _ _ | .vinsr _ _ _ | .vcprs _ _ _ | .vlane _ _ | .vtid _ | .bind _ _ _
  | .unbind _ | .cinv _ _ | .cwbWriteback _ _ | .wait _ _ _ _ _ | .cpost _ | .launch _ | .launchnb _ _ | .armcnt _ _ _
  | .disarm _ _ | .heat _ _ | .cool _ | .cwbWaybill _ _ | .cwbr _ _ | .cstra _ _ | .cstrb _ _ | .cinbox _ | .cdone
  | .ctladv _ _ | .mchb _ _ _ _ _ | .mche _ | .mzacc _ _ | .mcap _ | .mstat _ _ | .rldW _ _ _ _ _ | .rldD _ _ _ _ _
  | .rldQ _ _ _ _ _ | .rstW _ _ _ _ _ | .rstD _ _ _ _ _ | .rstQ _ _ _ _ _ | .rnotify _ _ _ _ | .rfence | .tready _ _
  | .topo _ _ | .himm _ | .hsched _ _ _ | .hnop _ | .accessComplete | .atomicPerform | .writeArrival | .counterCarterMessage
  | .tlbInvalidationAck | .islandTaskPush | .pendingLaunchForward | .coachPlacement | .teamAdmission | .leaseWindowEnd
  | .teamForced | .teamWake | .fuseTimeout | .swapOut | .coachRestore | .quantumBoundary | .successorPush | .taskCompletion
  | .joinDecrement | .heatGrant | .waybillElementLand | .waybillComplete | .streamBlockPush | .chainDispatch | .kblockApply
  | .frameReceive | .frameRetry | .relayForward | .rotorSlot | .remoteReply | .remoteTimeout | .reportOnlyTimeout
  | .bellowsSend | .collectiveComplete | .hcpselWrite | .queueEnable | .queueDisable | .doorbell | .cmdNop | .cmdLaunch
  | .cmdWrite | .cmdCopy | .cmdMctset | .cmdKill | .launchDispatch | .ctxCreate | .ctxDestroy | .ctxSuspend | .ctxResume
  | .inval | .pfDone | .topoRead | .topoFence | .topoRemap | .hearthBudgetWrite | .fwmaskWrite | .corectxWrite | .keyZeroise
  | .fareqAssign | .fareqQuarantine | .scrubStart | .scrubUnit | .islandReset | .islandResetEnd | .discard | .hubWake
  | .registerWrite | .energyWindow | .correctedError | .uncorrectableError | .temperatureCrossing | .linkWindowEnd | .fwLoad
  | .fwVerifyComplete | .hubReset | .spdmRequest | .powerOn | .illegalInsn | .instructionFetchFault | .invalidCommand
  | .invalidMailboxRequest | .edgePortLinkUp | .powerLoss => true

/-- R219 step 5: the first register of a pair is even, of a quad a multiple of 4, of a group of eight a multiple of 8 (R209, R288). -/
def Instr.regsOk : Instr → Bool
  | .lds d _ _ _ z => (z != 3 || d.toNat % 2 == 0) && (z != 4 || d.toNat % 4 == 0)
  | .sts d _ _ _ z => (z != 3 || d.toNat % 2 == 0) && (z != 4 || d.toNat % 4 == 0)
  | .lda d _ _ _ z => (z != 3 || d.toNat % 2 == 0) && (z != 4 || d.toNat % 4 == 0)
  | .sta d _ _ _ z => (z != 3 || d.toNat % 2 == 0) && (z != 4 || d.toNat % 4 == 0)
  | .ldg d _ _ _ z => (z != 3 || d.toNat % 2 == 0) && (z != 4 || d.toNat % 4 == 0)
  | .stg d _ _ _ z => (z != 3 || d.toNat % 2 == 0) && (z != 4 || d.toNat % 4 == 0)
  | .atom d _ _ o _ => o != 9 || d.toNat % 2 == 0
  | .bind _ a _ => a.toNat % 2 == 0
  | .mchb _ b _ _ _ => b.toNat % 2 == 0
  | .cpost a => a.toNat % 8 == 0
  | .cwbr _ a => a.toNat % 8 == 0
  | .cinbox d => d.toNat % 8 == 0
  | .rldD d _ _ _ _ => d.toNat % 2 == 0
  | .rstD d _ _ _ _ => d.toNat % 2 == 0
  | .rldQ d _ _ _ _ => d.toNat % 4 == 0
  | .rstQ d _ _ _ _ => d.toNat % 4 == 0
  | .ratom _ _ _ a _ => a.toNat % 2 == 0
  | .rnotify a _ _ _ => a.toNat % 2 == 0
  | .nop | .trap _ | .brk _ | .tret | .tkill | .tskip | .mfsr _ _ | .mtsr _ _ | .halt | .sadd _ _ _ | .ssub _ _ _ | .smul _ _ _
  | .smulh _ _ _ | .smulhu _ _ _ | .sdiv _ _ _ | .sdivu _ _ _ | .srem _ _ _ | .sremu _ _ _ | .sand _ _ _ | .sor _ _ _
  | .sxor _ _ _ | .sshl _ _ _ | .sshr _ _ _ | .ssra _ _ _ | .smin _ _ _ | .smax _ _ _ | .sminu _ _ _ | .smaxu _ _ _ | .sclz _ _
  | .spopc _ _ | .saddi _ _ _ | .sshli _ _ _ | .sshri _ _ _ | .ssrai _ _ _ | .slui _ _ | .scmp _ _ _ _ | .scmpi _ _ _ _
  | .sldW _ _ _ | .sldD _ _ _ | .sstW _ _ _ | .sstD _ _ _ | .br _ _ _ | .call _ | .jmpr _ | .callr _ | .ret | .cand _ _ _
  | .cor _ _ _ | .cxor _ _ _ | .cnot _ _ | .looph _ _ | .loophi _ _ | .lbrk | .vif _ | .velse | .vendif | .vloop | .vbrk _ _
  | .vcont _ _ | .endvl _ | .exit | .exitS _ | .yield | .yieldc _ _ _ | .split _ | .fuse _ _ _ | .lease _ | .leasem
  | .leaseq _ _ | .gbar _ _ _ | .garrive _ _ _ _ | .gwait _ _ _ _ | .gqry _ _ _ | .vadd _ _ _ _ | .vsub _ _ _ _
  | .vadds _ _ _ _ | .vsubs _ _ _ _ | .vmul _ _ _ _ | .vmulh _ _ _ _ | .vmulhu _ _ _ _ | .vmad _ _ _ _ | .vand _ _ _ _
  | .vor _ _ _ _ | .vxor _ _ _ _ | .vandn _ _ _ _ | .vshl _ _ _ _ | .vshr _ _ _ _ | .vsra _ _ _ _ | .vrot _ _ _ _
  | .vmin _ _ _ _ | .vmax _ _ _ _ | .vminu _ _ _ _ | .vmaxu _ _ _ _ | .vaddus _ _ _ _ | .vsubus _ _ _ _ | .vabsd _ _ _ _
  | .vavg _ _ _ _ | .vceq _ _ _ _ | .vcne _ _ _ _ | .vclt _ _ _ _ | .vcle _ _ _ _ | .vcltu _ _ _ _ | .vcleu _ _ _ _
  | .vctst _ _ _ _ | .vaddh2 _ _ _ _ | .vaddb4 _ _ _ _ | .vmulh2 _ _ _ _ | .vdot4 _ _ _ _ | .vsel _ _ _ _ | .vclz _ _ _
  | .vpopc _ _ _ | .vbrev _ _ _ | .vaddi _ _ _ _ | .vshli _ _ _ _ | .vshri _ _ _ _ | .vsrai _ _ _ _ | .vmovi _ _ _
  | .vmovhi _ _ _ | .vcmpi _ _ _ _ _ | .fadd _ _ _ _ | .fsub _ _ _ _ | .fmul _ _ _ _ | .fmac _ _ _ _ | .fmin _ _ _ _
  | .fmax _ _ _ _ | .fminm _ _ _ _ | .fmaxm _ _ _ _ | .fceq _ _ _ _ | .fclt _ _ _ _ | .fcle _ _ _ _ | .fcun _ _ _ _
  | .fdiv _ _ _ _ | .fsqrt _ _ _ | .frsq _ _ _ | .frcp _ _ _ | .fexp2 _ _ _ | .flog2 _ _ _ | .fsinpi _ _ _ | .fcospi _ _ _
  | .fma _ _ _ _ _ | .fms _ _ _ _ _ | .fnma _ _ _ _ _ | .fnms _ _ _ _ _ | .hadd2 _ _ _ _ | .hmul2 _ _ _ _ | .hfmac2 _ _ _ _
  | .hmax2 _ _ _ _ | .badd2 _ _ _ _ | .bmul2 _ _ _ _ | .bfmac2 _ _ _ _ | .bmax2 _ _ _ _ | .cvt _ _ _ _ _ | .fclass _ _ _
  | .frint _ _ _ | .fscalb _ _ _ _ | .fgetexp _ _ _ | .pand _ _ _ | .por _ _ _ | .pxor _ _ _ | .pandn _ _ _ | .pnot _ _
  | .pflag _ _ | .flclr _ | .flrd _ | .mfacc _ _ _ _ _ | .mtacc _ _ _ _ | .mfaccz _ _ _ _ _ | .shfli _ _ _ _ | .shflu _ _ _ _
  | .shfld _ _ _ _ | .shflx _ _ _ _ | .vall _ _ _ _ | .vany _ _ _ _ | .vbal _ _ _ | .vcnt _ _ _ | .vred _ _ _ _ _
  | .vscani _ _ _ _ | .vscanx _ _ _ _ | .vbcast _ _ _ | .vextr _ _ _ | .vinsr _ _ _ | .vcprs _ _ _ | .vlane _ _ | .vtid _
  | .fence _ _ | .acq _ _ _ | .rel _ _ _ | .unbind _ | .cinv _ _ | .cwbWriteback _ _ | .satom _ _ _ _ _ | .wait _ _ _ _ _
  | .waitge _ _ _ _ _ | .waitgec _ _ _ _ _ | .launch _ | .launchnb _ _ | .armcnt _ _ _ | .disarm _ _ | .cntrd _ _ _ | .heat _ _
  | .cool _ | .cwbWaybill _ _ | .cstra _ _ | .cstrb _ _ | .cdone | .ctladv _ _ | .cwaitq _ _ | .mche _ | .mzacc _ _ | .mcap _
  | .mstat _ _ | .mma _ _ _ _ _ _ _ | .rldW _ _ _ _ _ | .rstW _ _ _ _ _ | .rfence | .tready _ _ | .clqry _ _ _ | .topo _ _
  | .himm _ | .hmod _ _ _ | .hsched _ _ _ | .hnop _ | .hintKindNoop _ _ | .accessComplete | .atomicPerform | .writeArrival
  | .counterCarterMessage | .tlbInvalidationAck | .islandTaskPush | .pendingLaunchForward | .coachPlacement | .teamAdmission
  | .leaseWindowEnd | .teamForced | .teamWake | .fuseTimeout | .swapOut | .coachRestore | .quantumBoundary | .successorPush
  | .taskCompletion | .joinDecrement | .heatGrant | .waybillElementLand | .waybillComplete | .streamBlockPush | .chainDispatch
  | .kblockApply | .frameReceive | .frameRetry | .relayForward | .rotorSlot | .remoteReply | .remoteTimeout
  | .reportOnlyTimeout | .bellowsSend | .collectiveComplete | .hcpselWrite | .queueEnable | .queueDisable | .doorbell | .cmdNop
  | .cmdLaunch | .cmdWrite | .cmdCopy | .cmdMctset | .cmdKill | .launchDispatch | .ctxCreate | .ctxDestroy | .ctxSuspend
  | .ctxResume | .inval | .pfDone | .topoRead | .topoFence | .topoRemap | .hearthBudgetWrite | .fwmaskWrite | .corectxWrite
  | .keyZeroise | .fareqAssign | .fareqQuarantine | .scrubStart | .scrubUnit | .islandReset | .islandResetEnd | .discard
  | .hubWake | .registerWrite | .energyWindow | .correctedError | .uncorrectableError | .temperatureCrossing | .linkWindowEnd
  | .fwLoad | .fwVerifyComplete | .hubReset | .spdmRequest | .powerOn | .illegalInsn | .instructionFetchFault | .invalidCommand
  | .invalidMailboxRequest | .edgePortLinkUp | .powerLoss => true

/-- A well-formed instruction. -/
def Instr.wf (i : Instr) : Bool := i.zerosOk && i.codesOk && i.regsOk

end Sys2Proof
end

