-- ==== Sys2Proof/Decode.lean ====
section
/-!
DEFINITION. Decoding an instruction word (R208, R209, R211, R216, R219), and the encoder written from the same tables.

Decoding follows the order of R219: the major, the member, the reserved bits, the code fields, the registers; the first check
that fails names the refusal. Two checks need the running agent and are made by the step: the vector-register allocation
(step 5) and the agent's own set of members (step 6).
-/
namespace Sys2Proof

/-- Why a word is not an instruction: the step of R219 that fails, or fewer than four bytes. -/
inductive DecodeError where
  /-- R219 step 1: a major of 0x0F or 0x1F. -/
  | major
  /-- R219 step 2: a member that R211 or R216 does not list. -/
  | member
  /-- R219 step 3: a non-zero reserved range or unused field, or another kind than the member's field takes. -/
  | reservedBits
  /-- R219 step 4: a code that its table marks invalid. -/
  | codeField
  /-- R219 step 5: a misaligned pair, quad or group of registers. -/
  | registers
  /-- Fewer than the four bytes of a word. -/
  | short
  deriving DecidableEq, Repr

/-- Bits lo+n-1 down to lo of a word, as a number (R4). -/
def field (w lo n : Nat) : Nat := w / 2 ^ lo % 2 ^ n

/-- The same bits as an operand. -/
def bv (w lo n : Nat) : BitVec n := BitVec.ofNat n (field w lo n)

/-- The checks of R219 after the member is known, in their order. -/
def accept (zeros : Bool) (i : Instr) : Except DecodeError Instr :=
  if !(zeros && i.zerosOk) then .error .reservedBits
  else if !i.codesOk then .error .codeField
  else if !i.regsOk then .error .registers
  else .ok i

/-- A member with a code that is part of the member's own table and no field of it: step 4 of R219 refuses a code out of range. -/
def acceptCode (zeros code : Bool) (i : Instr) : Except DecodeError Instr :=
  if zeros && i.zerosOk && !code then .error .codeField else accept zeros i

/-- Major 0x00 (R216): NOP, TRAP, BRK, TRET, TKILL, TSKIP, MFSR, MTSR, HALT. -/
def decode00 (w : Nat) : Except DecodeError Instr :=
  if field w 18 8 = 0 then accept (field w 0 18 == 0) (.nop)
  else if field w 18 8 = 1 then accept (field w 6 12 == 0) (.trap (bv w 0 6))
  else if field w 18 8 = 2 then accept (field w 6 12 == 0) (.brk (bv w 0 6))
  else if field w 18 8 = 3 then accept (field w 0 18 == 0) (.tret)
  else if field w 18 8 = 4 then accept (field w 0 18 == 0) (.tkill)
  else if field w 18 8 = 5 then accept (field w 0 18 == 0) (.tskip)
  else if field w 18 8 = 6 then accept (field w 6 6 == 0) (.mfsr (bv w 12 6) (bv w 0 6))
  else if field w 18 8 = 7 then accept (field w 6 6 == 0) (.mtsr (bv w 12 6) (bv w 0 6))
  else if field w 18 8 = 8 then accept (field w 0 18 == 0) (.halt)
  else .error .member

/-- Major 0x01 (R216): SADD, SSUB, SMUL, SMULH, SMULHU, SDIV, SDIVU, SREM, SREMU, SAND, SOR, SXOR, SSHL, SSHR, SSRA, SMIN, SMAX, SMINU, SMAXU, SCLZ, SPOPC. -/
def decode01 (w : Nat) : Except DecodeError Instr :=
  if field w 0 8 = 0 then accept (true) (.sadd (bv w 20 6) (bv w 14 6) (bv w 8 6))
  else if field w 0 8 = 1 then accept (true) (.ssub (bv w 20 6) (bv w 14 6) (bv w 8 6))
  else if field w 0 8 = 2 then accept (true) (.smul (bv w 20 6) (bv w 14 6) (bv w 8 6))
  else if field w 0 8 = 3 then accept (true) (.smulh (bv w 20 6) (bv w 14 6) (bv w 8 6))
  else if field w 0 8 = 4 then accept (true) (.smulhu (bv w 20 6) (bv w 14 6) (bv w 8 6))
  else if field w 0 8 = 5 then accept (true) (.sdiv (bv w 20 6) (bv w 14 6) (bv w 8 6))
  else if field w 0 8 = 6 then accept (true) (.sdivu (bv w 20 6) (bv w 14 6) (bv w 8 6))
  else if field w 0 8 = 7 then accept (true) (.srem (bv w 20 6) (bv w 14 6) (bv w 8 6))
  else if field w 0 8 = 8 then accept (true) (.sremu (bv w 20 6) (bv w 14 6) (bv w 8 6))
  else if field w 0 8 = 9 then accept (true) (.sand (bv w 20 6) (bv w 14 6) (bv w 8 6))
  else if field w 0 8 = 10 then accept (true) (.sor (bv w 20 6) (bv w 14 6) (bv w 8 6))
  else if field w 0 8 = 11 then accept (true) (.sxor (bv w 20 6) (bv w 14 6) (bv w 8 6))
  else if field w 0 8 = 12 then accept (true) (.sshl (bv w 20 6) (bv w 14 6) (bv w 8 6))
  else if field w 0 8 = 13 then accept (true) (.sshr (bv w 20 6) (bv w 14 6) (bv w 8 6))
  else if field w 0 8 = 14 then accept (true) (.ssra (bv w 20 6) (bv w 14 6) (bv w 8 6))
  else if field w 0 8 = 15 then accept (true) (.smin (bv w 20 6) (bv w 14 6) (bv w 8 6))
  else if field w 0 8 = 16 then accept (true) (.smax (bv w 20 6) (bv w 14 6) (bv w 8 6))
  else if field w 0 8 = 17 then accept (true) (.sminu (bv w 20 6) (bv w 14 6) (bv w 8 6))
  else if field w 0 8 = 18 then accept (true) (.smaxu (bv w 20 6) (bv w 14 6) (bv w 8 6))
  else if field w 0 8 = 19 then accept (field w 8 6 == 0) (.sclz (bv w 20 6) (bv w 14 6))
  else if field w 0 8 = 20 then accept (field w 8 6 == 0) (.spopc (bv w 20 6) (bv w 14 6))
  else .error .member

/-- Major 0x02 (R216): SADDI. -/
def decode02 (w : Nat) : Except DecodeError Instr :=
  accept (true) (.saddi (bv w 20 6) (bv w 14 6) (bv w 0 14))

/-- Major 0x03 (R216): SSHLI, SSHRI, SSRAI. -/
def decode03 (w : Nat) : Except DecodeError Instr :=
  if field w 12 2 = 0 then accept (field w 6 6 == 0) (.sshli (bv w 20 6) (bv w 14 6) (bv w 0 6))
  else if field w 12 2 = 1 then accept (field w 6 6 == 0) (.sshri (bv w 20 6) (bv w 14 6) (bv w 0 6))
  else if field w 12 2 = 2 then accept (field w 6 6 == 0) (.ssrai (bv w 20 6) (bv w 14 6) (bv w 0 6))
  else .error .member

/-- Major 0x04 (R216): SLUI. -/
def decode04 (w : Nat) : Except DecodeError Instr :=
  accept (true) (.slui (bv w 20 6) (bv w 0 20))

/-- Major 0x05 (R216): SCMP. -/
def decode05 (w : Nat) : Except DecodeError Instr :=
  if 6 ≤ field w 20 3 then .error .member else accept (field w 0 8 == 0) (.scmp (bv w 23 3) (bv w 20 3) (bv w 14 6) (bv w 8 6))

/-- Major 0x06 (R216): SCMPI. -/
def decode06 (w : Nat) : Except DecodeError Instr :=
  if 6 ≤ field w 20 3 then .error .member else accept (true) (.scmpi (bv w 23 3) (bv w 20 3) (bv w 14 6) (bv w 0 14))

/-- Major 0x07 (R216): SLD_W, SLD_D, SST_W, SST_D. -/
def decode07 (w : Nat) : Except DecodeError Instr :=
  if field w 12 2 = 0 then accept (true) (.sldW (bv w 20 6) (bv w 14 6) (bv w 0 12))
  else if field w 12 2 = 1 then accept (true) (.sldD (bv w 20 6) (bv w 14 6) (bv w 0 12))
  else if field w 12 2 = 2 then accept (true) (.sstW (bv w 20 6) (bv w 14 6) (bv w 0 12))
  else if field w 12 2 = 3 then accept (true) (.sstD (bv w 20 6) (bv w 14 6) (bv w 0 12))
  else .error .member

/-- Major 0x08 (R216): BR. -/
def decode08 (w : Nat) : Except DecodeError Instr :=
  accept (true) (.br (bv w 23 3) (bv w 22 1) (bv w 0 22))

/-- Major 0x09 (R216): CALL. -/
def decode09 (w : Nat) : Except DecodeError Instr :=
  accept (true) (.call (bv w 0 26))

/-- Major 0x0A (R216): JMPR, CALLR, RET, CAND, COR, CXOR, CNOT. -/
def decode0A (w : Nat) : Except DecodeError Instr :=
  if field w 18 8 = 0 then accept (field w 0 12 == 0) (.jmpr (bv w 12 6))
  else if field w 18 8 = 1 then accept (field w 0 12 == 0) (.callr (bv w 12 6))
  else if field w 18 8 = 2 then accept (field w 0 18 == 0) (.ret)
  else if field w 18 8 = 3 then accept (field w 3 3 == 1 && field w 9 3 == 1 && field w 15 3 == 1) (.cand (bv w 12 3) (bv w 6 3) (bv w 0 3))
  else if field w 18 8 = 4 then accept (field w 3 3 == 1 && field w 9 3 == 1 && field w 15 3 == 1) (.cor (bv w 12 3) (bv w 6 3) (bv w 0 3))
  else if field w 18 8 = 5 then accept (field w 3 3 == 1 && field w 9 3 == 1 && field w 15 3 == 1) (.cxor (bv w 12 3) (bv w 6 3) (bv w 0 3))
  else if field w 18 8 = 6 then accept (field w 0 6 == 0 && field w 9 3 == 1 && field w 15 3 == 1) (.cnot (bv w 12 3) (bv w 6 3))
  else .error .member

/-- Major 0x0B (R216): LOOPH, LOOPHI, LBRK. -/
def decode0B (w : Nat) : Except DecodeError Instr :=
  if field w 24 2 = 0 then accept (field w 8 10 == 0) (.looph (bv w 18 6) (bv w 0 8))
  else if field w 24 2 = 1 then accept (true) (.loophi (bv w 8 16) (bv w 0 8))
  else if field w 24 2 = 2 then accept (field w 0 24 == 0) (.lbrk)
  else .error .member

/-- Major 0x0C (R216): IF, ELSE, ENDIF, VLOOP, VBRK, VCONT, ENDVL. -/
def decode0C (w : Nat) : Except DecodeError Instr :=
  if field w 18 8 = 0 then accept (field w 0 12 == 0 && field w 15 3 == 0) (.vif (bv w 12 3))
  else if field w 18 8 = 1 then accept (field w 0 18 == 0) (.velse)
  else if field w 18 8 = 2 then accept (field w 0 18 == 0) (.vendif)
  else if field w 18 8 = 3 then accept (field w 0 18 == 0) (.vloop)
  else if field w 18 8 = 4 then accept (field w 0 6 == 0 && field w 15 3 == 0) (.vbrk (bv w 12 3) (bv w 6 6))
  else if field w 18 8 = 5 then accept (field w 0 6 == 0 && field w 15 3 == 0) (.vcont (bv w 12 3) (bv w 6 6))
  else if field w 18 8 = 6 then accept (true) (.endvl (bv w 0 18))
  else .error .member

/-- Major 0x0D (R216): EXIT, EXIT_S, YIELD, YIELDC, SPLIT, FUSE, LEASE, LEASEM, LEASEQ. -/
def decode0D (w : Nat) : Except DecodeError Instr :=
  if field w 18 8 = 0 then accept (field w 0 18 == 0) (.exit)
  else if field w 18 8 = 1 then accept (field w 0 12 == 0) (.exitS (bv w 12 6))
  else if field w 18 8 = 2 then accept (field w 0 18 == 0) (.yield)
  else if field w 18 8 = 3 then accept (true) (.yieldc (bv w 12 6) (bv w 6 6) (bv w 0 6))
  else if field w 18 8 = 4 then accept (field w 6 12 == 0) (.split (bv w 0 6))
  else if field w 18 8 = 5 then acceptCode true (field w 5 1 == 0) (.fuse (bv w 12 6) (bv w 6 6) (bv w 0 5))
  else if field w 18 8 = 6 then accept (field w 0 12 == 0) (.lease (bv w 12 6))
  else if field w 18 8 = 7 then accept (field w 0 18 == 0) (.leasem)
  else if field w 18 8 = 8 then accept (field w 6 6 == 0) (.leaseq (bv w 12 6) (bv w 0 6))
  else .error .member

/-- Major 0x0E (R216): GBAR, GARRIVE, GWAIT, GQRY. -/
def decode0E (w : Nat) : Except DecodeError Instr :=
  if field w 18 8 = 0 then accept (field w 4 2 == 0 && field w 8 10 == 0) (.gbar (bv w 6 2) (bv w 2 2) (bv w 0 2))
  else if field w 18 8 = 1 then accept (field w 4 2 == 0 && field w 8 4 == 0) (.garrive (bv w 12 6) (bv w 6 2) (bv w 2 2) (bv w 0 2))
  else if field w 18 8 = 2 then accept (field w 4 2 == 0 && field w 8 4 == 0) (.gwait (bv w 12 6) (bv w 6 2) (bv w 2 2) (bv w 0 2))
  else if field w 18 8 = 3 then accept (field w 4 2 == 0 && field w 8 4 == 0) (.gqry (bv w 12 6) (bv w 6 2) (bv w 0 4))
  else .error .member

/-- Major 0x10 (R216): VADD, VSUB, VADDS, VSUBS. -/
def decode10 (w : Nat) : Except DecodeError Instr :=
  if field w 0 2 = 0 then accept (true) (.vadd (bv w 19 7) (bv w 12 7) (bv w 5 7) (bv w 2 3))
  else if field w 0 2 = 1 then accept (true) (.vsub (bv w 19 7) (bv w 12 7) (bv w 5 7) (bv w 2 3))
  else if field w 0 2 = 2 then accept (true) (.vadds (bv w 19 7) (bv w 12 7) (bv w 5 7) (bv w 2 3))
  else if field w 0 2 = 3 then accept (true) (.vsubs (bv w 19 7) (bv w 12 7) (bv w 5 7) (bv w 2 3))
  else .error .member

/-- Major 0x11 (R216): VMUL, VMULH, VMULHU, VMAD. -/
def decode11 (w : Nat) : Except DecodeError Instr :=
  if field w 0 2 = 0 then accept (true) (.vmul (bv w 19 7) (bv w 12 7) (bv w 5 7) (bv w 2 3))
  else if field w 0 2 = 1 then accept (true) (.vmulh (bv w 19 7) (bv w 12 7) (bv w 5 7) (bv w 2 3))
  else if field w 0 2 = 2 then accept (true) (.vmulhu (bv w 19 7) (bv w 12 7) (bv w 5 7) (bv w 2 3))
  else if field w 0 2 = 3 then accept (true) (.vmad (bv w 19 7) (bv w 12 7) (bv w 5 7) (bv w 2 3))
  else .error .member

/-- Major 0x12 (R216): VAND, VOR, VXOR, VANDN. -/
def decode12 (w : Nat) : Except DecodeError Instr :=
  if field w 0 2 = 0 then accept (true) (.vand (bv w 19 7) (bv w 12 7) (bv w 5 7) (bv w 2 3))
  else if field w 0 2 = 1 then accept (true) (.vor (bv w 19 7) (bv w 12 7) (bv w 5 7) (bv w 2 3))
  else if field w 0 2 = 2 then accept (true) (.vxor (bv w 19 7) (bv w 12 7) (bv w 5 7) (bv w 2 3))
  else if field w 0 2 = 3 then accept (true) (.vandn (bv w 19 7) (bv w 12 7) (bv w 5 7) (bv w 2 3))
  else .error .member

/-- Major 0x13 (R216): VSHL, VSHR, VSRA, VROT. -/
def decode13 (w : Nat) : Except DecodeError Instr :=
  if field w 0 2 = 0 then accept (true) (.vshl (bv w 19 7) (bv w 12 7) (bv w 5 7) (bv w 2 3))
  else if field w 0 2 = 1 then accept (true) (.vshr (bv w 19 7) (bv w 12 7) (bv w 5 7) (bv w 2 3))
  else if field w 0 2 = 2 then accept (true) (.vsra (bv w 19 7) (bv w 12 7) (bv w 5 7) (bv w 2 3))
  else if field w 0 2 = 3 then accept (true) (.vrot (bv w 19 7) (bv w 12 7) (bv w 5 7) (bv w 2 3))
  else .error .member

/-- Major 0x14 (R216): VMIN, VMAX, VMINU, VMAXU. -/
def decode14 (w : Nat) : Except DecodeError Instr :=
  if field w 0 2 = 0 then accept (true) (.vmin (bv w 19 7) (bv w 12 7) (bv w 5 7) (bv w 2 3))
  else if field w 0 2 = 1 then accept (true) (.vmax (bv w 19 7) (bv w 12 7) (bv w 5 7) (bv w 2 3))
  else if field w 0 2 = 2 then accept (true) (.vminu (bv w 19 7) (bv w 12 7) (bv w 5 7) (bv w 2 3))
  else if field w 0 2 = 3 then accept (true) (.vmaxu (bv w 19 7) (bv w 12 7) (bv w 5 7) (bv w 2 3))
  else .error .member

/-- Major 0x15 (R216): VADDUS, VSUBUS, VABSD, VAVG. -/
def decode15 (w : Nat) : Except DecodeError Instr :=
  if field w 0 2 = 0 then accept (true) (.vaddus (bv w 19 7) (bv w 12 7) (bv w 5 7) (bv w 2 3))
  else if field w 0 2 = 1 then accept (true) (.vsubus (bv w 19 7) (bv w 12 7) (bv w 5 7) (bv w 2 3))
  else if field w 0 2 = 2 then accept (true) (.vabsd (bv w 19 7) (bv w 12 7) (bv w 5 7) (bv w 2 3))
  else if field w 0 2 = 3 then accept (true) (.vavg (bv w 19 7) (bv w 12 7) (bv w 5 7) (bv w 2 3))
  else .error .member

/-- Major 0x16 (R216): VCEQ, VCNE, VCLT, VCLE. -/
def decode16 (w : Nat) : Except DecodeError Instr :=
  if field w 0 2 = 0 then accept (field w 22 4 == 0) (.vceq (bv w 19 3) (bv w 12 7) (bv w 5 7) (bv w 2 3))
  else if field w 0 2 = 1 then accept (field w 22 4 == 0) (.vcne (bv w 19 3) (bv w 12 7) (bv w 5 7) (bv w 2 3))
  else if field w 0 2 = 2 then accept (field w 22 4 == 0) (.vclt (bv w 19 3) (bv w 12 7) (bv w 5 7) (bv w 2 3))
  else if field w 0 2 = 3 then accept (field w 22 4 == 0) (.vcle (bv w 19 3) (bv w 12 7) (bv w 5 7) (bv w 2 3))
  else .error .member

/-- Major 0x17 (R216): VCLTU, VCLEU, VCTST. -/
def decode17 (w : Nat) : Except DecodeError Instr :=
  if field w 0 2 = 0 then accept (field w 22 4 == 0) (.vcltu (bv w 19 3) (bv w 12 7) (bv w 5 7) (bv w 2 3))
  else if field w 0 2 = 1 then accept (field w 22 4 == 0) (.vcleu (bv w 19 3) (bv w 12 7) (bv w 5 7) (bv w 2 3))
  else if field w 0 2 = 2 then accept (field w 22 4 == 0) (.vctst (bv w 19 3) (bv w 12 7) (bv w 5 7) (bv w 2 3))
  else .error .member

/-- Major 0x18 (R216): VADDH2, VADDB4, VMULH2, VDOT4. -/
def decode18 (w : Nat) : Except DecodeError Instr :=
  if field w 0 2 = 0 then accept (true) (.vaddh2 (bv w 19 7) (bv w 12 7) (bv w 5 7) (bv w 2 3))
  else if field w 0 2 = 1 then accept (true) (.vaddb4 (bv w 19 7) (bv w 12 7) (bv w 5 7) (bv w 2 3))
  else if field w 0 2 = 2 then accept (true) (.vmulh2 (bv w 19 7) (bv w 12 7) (bv w 5 7) (bv w 2 3))
  else if field w 0 2 = 3 then accept (true) (.vdot4 (bv w 19 7) (bv w 12 7) (bv w 5 7) (bv w 2 3))
  else .error .member

/-- Major 0x19 (R216): VSEL, VCLZ, VPOPC, VBREV. -/
def decode19 (w : Nat) : Except DecodeError Instr :=
  if field w 0 2 = 0 then accept (true) (.vsel (bv w 19 7) (bv w 12 7) (bv w 5 7) (bv w 2 3))
  else if field w 0 2 = 1 then accept (field w 5 7 == 0) (.vclz (bv w 19 7) (bv w 12 7) (bv w 2 3))
  else if field w 0 2 = 2 then accept (field w 5 7 == 0) (.vpopc (bv w 19 7) (bv w 12 7) (bv w 2 3))
  else if field w 0 2 = 3 then accept (field w 5 7 == 0) (.vbrev (bv w 19 7) (bv w 12 7) (bv w 2 3))
  else .error .member

/-- Major 0x1A (R216): VADDI. -/
def decode1A (w : Nat) : Except DecodeError Instr :=
  accept (true) (.vaddi (bv w 19 7) (bv w 12 7) (bv w 9 3) (bv w 0 9))

/-- Major 0x1B (R216): VSHLI, VSHRI, VSRAI. -/
def decode1B (w : Nat) : Except DecodeError Instr :=
  if field w 7 2 = 0 then accept (field w 5 2 == 0) (.vshli (bv w 19 7) (bv w 12 7) (bv w 9 3) (bv w 0 5))
  else if field w 7 2 = 1 then accept (field w 5 2 == 0) (.vshri (bv w 19 7) (bv w 12 7) (bv w 9 3) (bv w 0 5))
  else if field w 7 2 = 2 then accept (field w 5 2 == 0) (.vsrai (bv w 19 7) (bv w 12 7) (bv w 9 3) (bv w 0 5))
  else .error .member

/-- Major 0x1C (R216): VMOVI. -/
def decode1C (w : Nat) : Except DecodeError Instr :=
  accept (true) (.vmovi (bv w 19 7) (bv w 16 3) (bv w 0 16))

/-- Major 0x1D (R216): VMOVHI. -/
def decode1D (w : Nat) : Except DecodeError Instr :=
  accept (true) (.vmovhi (bv w 19 7) (bv w 16 3) (bv w 0 16))

/-- Major 0x1E (R216): VCMPI. -/
def decode1E (w : Nat) : Except DecodeError Instr :=
  if 6 ≤ field w 20 3 then .error .member else accept (field w 19 1 == 0) (.vcmpi (bv w 23 3) (bv w 20 3) (bv w 12 7) (bv w 9 3) (bv w 0 9))

/-- Major 0x20 (R216): FADD, FSUB, FMUL, FMAC. -/
def decode20 (w : Nat) : Except DecodeError Instr :=
  if field w 0 2 = 0 then accept (true) (.fadd (bv w 19 7) (bv w 12 7) (bv w 5 7) (bv w 2 3))
  else if field w 0 2 = 1 then accept (true) (.fsub (bv w 19 7) (bv w 12 7) (bv w 5 7) (bv w 2 3))
  else if field w 0 2 = 2 then accept (true) (.fmul (bv w 19 7) (bv w 12 7) (bv w 5 7) (bv w 2 3))
  else if field w 0 2 = 3 then accept (true) (.fmac (bv w 19 7) (bv w 12 7) (bv w 5 7) (bv w 2 3))
  else .error .member

/-- Major 0x21 (R216): FMIN, FMAX, FMINM, FMAXM. -/
def decode21 (w : Nat) : Except DecodeError Instr :=
  if field w 0 2 = 0 then accept (true) (.fmin (bv w 19 7) (bv w 12 7) (bv w 5 7) (bv w 2 3))
  else if field w 0 2 = 1 then accept (true) (.fmax (bv w 19 7) (bv w 12 7) (bv w 5 7) (bv w 2 3))
  else if field w 0 2 = 2 then accept (true) (.fminm (bv w 19 7) (bv w 12 7) (bv w 5 7) (bv w 2 3))
  else if field w 0 2 = 3 then accept (true) (.fmaxm (bv w 19 7) (bv w 12 7) (bv w 5 7) (bv w 2 3))
  else .error .member

/-- Major 0x22 (R216): FCEQ, FCLT, FCLE, FCUN. -/
def decode22 (w : Nat) : Except DecodeError Instr :=
  if field w 0 2 = 0 then accept (field w 22 4 == 0) (.fceq (bv w 19 3) (bv w 12 7) (bv w 5 7) (bv w 2 3))
  else if field w 0 2 = 1 then accept (field w 22 4 == 0) (.fclt (bv w 19 3) (bv w 12 7) (bv w 5 7) (bv w 2 3))
  else if field w 0 2 = 2 then accept (field w 22 4 == 0) (.fcle (bv w 19 3) (bv w 12 7) (bv w 5 7) (bv w 2 3))
  else if field w 0 2 = 3 then accept (field w 22 4 == 0) (.fcun (bv w 19 3) (bv w 12 7) (bv w 5 7) (bv w 2 3))
  else .error .member

/-- Major 0x23 (R216): FDIV, FSQRT, FRSQ, FRCP. -/
def decode23 (w : Nat) : Except DecodeError Instr :=
  if field w 0 2 = 0 then accept (true) (.fdiv (bv w 19 7) (bv w 12 7) (bv w 5 7) (bv w 2 3))
  else if field w 0 2 = 1 then accept (field w 5 7 == 0) (.fsqrt (bv w 19 7) (bv w 12 7) (bv w 2 3))
  else if field w 0 2 = 2 then accept (field w 5 7 == 0) (.frsq (bv w 19 7) (bv w 12 7) (bv w 2 3))
  else if field w 0 2 = 3 then accept (field w 5 7 == 0) (.frcp (bv w 19 7) (bv w 12 7) (bv w 2 3))
  else .error .member

/-- Major 0x24 (R216): FEXP2, FLOG2, FSINPI, FCOSPI. -/
def decode24 (w : Nat) : Except DecodeError Instr :=
  if field w 0 2 = 0 then accept (field w 5 7 == 0) (.fexp2 (bv w 19 7) (bv w 12 7) (bv w 2 3))
  else if field w 0 2 = 1 then accept (field w 5 7 == 0) (.flog2 (bv w 19 7) (bv w 12 7) (bv w 2 3))
  else if field w 0 2 = 2 then accept (field w 5 7 == 0) (.fsinpi (bv w 19 7) (bv w 12 7) (bv w 2 3))
  else if field w 0 2 = 3 then accept (field w 5 7 == 0) (.fcospi (bv w 19 7) (bv w 12 7) (bv w 2 3))
  else .error .member

/-- Major 0x25 (R216): FMA, FMS, FNMA, FNMS. -/
def decode25 (w : Nat) : Except DecodeError Instr :=
  if field w 1 2 = 0 then accept (field w 0 1 == 0) (.fma (bv w 21 5) (bv w 16 5) (bv w 11 5) (bv w 6 5) (bv w 3 3))
  else if field w 1 2 = 1 then accept (field w 0 1 == 0) (.fms (bv w 21 5) (bv w 16 5) (bv w 11 5) (bv w 6 5) (bv w 3 3))
  else if field w 1 2 = 2 then accept (field w 0 1 == 0) (.fnma (bv w 21 5) (bv w 16 5) (bv w 11 5) (bv w 6 5) (bv w 3 3))
  else if field w 1 2 = 3 then accept (field w 0 1 == 0) (.fnms (bv w 21 5) (bv w 16 5) (bv w 11 5) (bv w 6 5) (bv w 3 3))
  else .error .member

/-- Major 0x26 (R216): HADD2, HMUL2, HFMAC2, HMAX2. -/
def decode26 (w : Nat) : Except DecodeError Instr :=
  if field w 0 2 = 0 then accept (true) (.hadd2 (bv w 19 7) (bv w 12 7) (bv w 5 7) (bv w 2 3))
  else if field w 0 2 = 1 then accept (true) (.hmul2 (bv w 19 7) (bv w 12 7) (bv w 5 7) (bv w 2 3))
  else if field w 0 2 = 2 then accept (true) (.hfmac2 (bv w 19 7) (bv w 12 7) (bv w 5 7) (bv w 2 3))
  else if field w 0 2 = 3 then accept (true) (.hmax2 (bv w 19 7) (bv w 12 7) (bv w 5 7) (bv w 2 3))
  else .error .member

/-- Major 0x27 (R216): BADD2, BMUL2, BFMAC2, BMAX2. -/
def decode27 (w : Nat) : Except DecodeError Instr :=
  if field w 0 2 = 0 then accept (true) (.badd2 (bv w 19 7) (bv w 12 7) (bv w 5 7) (bv w 2 3))
  else if field w 0 2 = 1 then accept (true) (.bmul2 (bv w 19 7) (bv w 12 7) (bv w 5 7) (bv w 2 3))
  else if field w 0 2 = 2 then accept (true) (.bfmac2 (bv w 19 7) (bv w 12 7) (bv w 5 7) (bv w 2 3))
  else if field w 0 2 = 3 then accept (true) (.bmax2 (bv w 19 7) (bv w 12 7) (bv w 5 7) (bv w 2 3))
  else .error .member

/-- Major 0x28 (R216): CVT. -/
def decode28 (w : Nat) : Except DecodeError Instr :=
  accept (true) (.cvt (bv w 19 7) (bv w 12 7) (bv w 5 7) (bv w 2 3) (bv w 0 2))

/-- Major 0x29 (R216): FCLASS, FRINT, FSCALB, FGETEXP. -/
def decode29 (w : Nat) : Except DecodeError Instr :=
  if field w 0 2 = 0 then accept (field w 5 7 == 0) (.fclass (bv w 19 7) (bv w 12 7) (bv w 2 3))
  else if field w 0 2 = 1 then accept (field w 5 7 == 0) (.frint (bv w 19 7) (bv w 12 7) (bv w 2 3))
  else if field w 0 2 = 2 then accept (true) (.fscalb (bv w 19 7) (bv w 12 7) (bv w 5 7) (bv w 2 3))
  else if field w 0 2 = 3 then accept (field w 5 7 == 0) (.fgetexp (bv w 19 7) (bv w 12 7) (bv w 2 3))
  else .error .member

/-- Major 0x2A (R216): PAND, POR, PXOR, PANDN, PNOT, PFLAG, FLCLR, FLRD. -/
def decode2A (w : Nat) : Except DecodeError Instr :=
  if field w 18 8 = 0 then accept (field w 3 3 == 0 && field w 9 3 == 0 && field w 15 3 == 0) (.pand (bv w 12 3) (bv w 6 3) (bv w 0 3))
  else if field w 18 8 = 1 then accept (field w 3 3 == 0 && field w 9 3 == 0 && field w 15 3 == 0) (.por (bv w 12 3) (bv w 6 3) (bv w 0 3))
  else if field w 18 8 = 2 then accept (field w 3 3 == 0 && field w 9 3 == 0 && field w 15 3 == 0) (.pxor (bv w 12 3) (bv w 6 3) (bv w 0 3))
  else if field w 18 8 = 3 then accept (field w 3 3 == 0 && field w 9 3 == 0 && field w 15 3 == 0) (.pandn (bv w 12 3) (bv w 6 3) (bv w 0 3))
  else if field w 18 8 = 4 then accept (field w 0 6 == 0 && field w 9 3 == 0 && field w 15 3 == 0) (.pnot (bv w 12 3) (bv w 6 3))
  else if field w 18 8 = 5 then accept (field w 0 6 == 0 && field w 9 3 == 2 && field w 15 3 == 0) (.pflag (bv w 12 3) (bv w 6 3))
  else if field w 18 8 = 6 then accept (field w 5 13 == 0) (.flclr (bv w 0 5))
  else if field w 18 8 = 7 then accept (field w 0 12 == 0) (.flrd (bv w 12 6))
  else .error .member

/-- Major 0x2B (R216): MFACC, MTACC, MFACCZ. -/
def decode2B (w : Nat) : Except DecodeError Instr :=
  if field w 0 3 = 0 then accept (true) (.mfacc (bv w 19 7) (bv w 18 1) (bv w 12 6) (bv w 6 6) (bv w 3 3))
  else if field w 0 3 = 1 then acceptCode true (field w 18 1 == 0) (.mtacc (bv w 19 7) (bv w 12 6) (bv w 6 6) (bv w 3 3))
  else if field w 0 3 = 2 then accept (true) (.mfaccz (bv w 19 7) (bv w 18 1) (bv w 12 6) (bv w 6 6) (bv w 3 3))
  else .error .member

/-- Major 0x2C (R216): SHFLI, SHFLU, SHFLD, SHFLX. -/
def decode2C (w : Nat) : Except DecodeError Instr :=
  if field w 0 2 = 0 then accept (true) (.shfli (bv w 19 7) (bv w 12 7) (bv w 5 7) (bv w 2 3))
  else if field w 0 2 = 1 then accept (true) (.shflu (bv w 19 7) (bv w 12 7) (bv w 5 7) (bv w 2 3))
  else if field w 0 2 = 2 then accept (true) (.shfld (bv w 19 7) (bv w 12 7) (bv w 5 7) (bv w 2 3))
  else if field w 0 2 = 3 then accept (true) (.shflx (bv w 19 7) (bv w 12 7) (bv w 5 7) (bv w 2 3))
  else .error .member

/-- Major 0x2D (R216): VALL, VANY, VBAL, VCNT. -/
def decode2D (w : Nat) : Except DecodeError Instr :=
  if field w 18 8 = 0 then accept (field w 0 6 == 0 && field w 9 1 == 0 && field w 11 1 == 0 && field w 16 2 == 0) (.vall (bv w 15 1) (bv w 12 3) (bv w 10 1) (bv w 6 3))
  else if field w 18 8 = 1 then accept (field w 0 6 == 0 && field w 9 1 == 0 && field w 11 1 == 0 && field w 16 2 == 0) (.vany (bv w 15 1) (bv w 12 3) (bv w 10 1) (bv w 6 3))
  else if field w 18 8 = 2 then accept (field w 0 6 == 0 && field w 9 1 == 0 && field w 11 1 == 0) (.vbal (bv w 12 6) (bv w 10 1) (bv w 6 3))
  else if field w 18 8 = 3 then accept (field w 0 6 == 0 && field w 9 1 == 0 && field w 11 1 == 0) (.vcnt (bv w 12 6) (bv w 10 1) (bv w 6 3))
  else .error .member

/-- Major 0x2E (R216): VRED, VSCANI, VSCANX. -/
def decode2E (w : Nat) : Except DecodeError Instr :=
  if field w 0 2 = 0 then accept (true) (.vred (bv w 19 7) (bv w 12 7) (bv w 11 1) (bv w 5 6) (bv w 2 3))
  else if field w 0 2 = 1 then accept (field w 11 1 == 0) (.vscani (bv w 19 7) (bv w 12 7) (bv w 5 6) (bv w 2 3))
  else if field w 0 2 = 2 then accept (field w 11 1 == 0) (.vscanx (bv w 19 7) (bv w 12 7) (bv w 5 6) (bv w 2 3))
  else .error .member

/-- Major 0x2F (R216): VBCAST, VEXTR, VINSR, VCPRS, VLANE, VTID. -/
def decode2F (w : Nat) : Except DecodeError Instr :=
  if field w 18 8 = 0 then accept (true) (.vbcast (bv w 12 6) (bv w 6 6) (bv w 0 6))
  else if field w 18 8 = 1 then accept (true) (.vextr (bv w 12 6) (bv w 6 6) (bv w 0 6))
  else if field w 18 8 = 2 then accept (true) (.vinsr (bv w 12 6) (bv w 6 6) (bv w 0 6))
  else if field w 18 8 = 3 then accept (field w 3 3 == 0) (.vcprs (bv w 12 6) (bv w 6 6) (bv w 0 3))
  else if field w 18 8 = 4 then acceptCode (field w 6 6 == 0) (field w 1 5 == 0) (.vlane (bv w 12 6) (bv w 0 1))
  else if field w 18 8 = 5 then accept (field w 0 12 == 0) (.vtid (bv w 12 6))
  else .error .member

/-- Major 0x30 (R216): LDS. -/
def decode30 (w : Nat) : Except DecodeError Instr :=
  accept (true) (.lds (bv w 19 7) (bv w 12 7) (bv w 6 6) (bv w 3 3) (bv w 0 3))

/-- Major 0x31 (R216): STS. -/
def decode31 (w : Nat) : Except DecodeError Instr :=
  accept (true) (.sts (bv w 19 7) (bv w 12 7) (bv w 6 6) (bv w 3 3) (bv w 0 3))

/-- Major 0x32 (R216): LDA. -/
def decode32 (w : Nat) : Except DecodeError Instr :=
  accept (true) (.lda (bv w 19 7) (bv w 12 7) (bv w 6 6) (bv w 3 3) (bv w 0 3))

/-- Major 0x33 (R216): STA. -/
def decode33 (w : Nat) : Except DecodeError Instr :=
  accept (true) (.sta (bv w 19 7) (bv w 12 7) (bv w 6 6) (bv w 3 3) (bv w 0 3))

/-- Major 0x34 (R216): LDG. -/
def decode34 (w : Nat) : Except DecodeError Instr :=
  accept (true) (.ldg (bv w 19 7) (bv w 12 7) (bv w 6 6) (bv w 3 3) (bv w 0 3))

/-- Major 0x35 (R216): STG. -/
def decode35 (w : Nat) : Except DecodeError Instr :=
  accept (true) (.stg (bv w 19 7) (bv w 12 7) (bv w 6 6) (bv w 3 3) (bv w 0 3))

/-- Major 0x36 (R216): ATOM. -/
def decode36 (w : Nat) : Except DecodeError Instr :=
  accept (true) (.atom (bv w 19 7) (bv w 12 7) (bv w 6 6) (bv w 2 4) (bv w 0 2))

/-- Major 0x37 (R216): FENCE, ACQ, REL, BIND, UNBIND, CINV, CWB_WRITEBACK, SATOM. -/
def decode37 (w : Nat) : Except DecodeError Instr :=
  if field w 18 8 = 0 then accept (field w 4 14 == 0) (.fence (bv w 2 2) (bv w 0 2))
  else if field w 18 8 = 1 then accept (field w 0 2 == 0 && field w 4 2 == 0) (.acq (bv w 12 6) (bv w 6 6) (bv w 2 2))
  else if field w 18 8 = 2 then accept (field w 0 2 == 0 && field w 4 2 == 0) (.rel (bv w 12 6) (bv w 6 6) (bv w 2 2))
  else if field w 18 8 = 3 then accept (true) (.bind (bv w 12 6) (bv w 6 6) (bv w 0 6))
  else if field w 18 8 = 4 then accept (field w 0 6 == 0 && field w 12 6 == 0) (.unbind (bv w 6 6))
  else if field w 18 8 = 5 then accept (field w 12 6 == 0) (.cinv (bv w 6 6) (bv w 0 6))
  else if field w 18 8 = 6 then accept (field w 12 6 == 0) (.cwbWriteback (bv w 6 6) (bv w 0 6))
  else if field w 24 2 = 1 ∧ field w 20 4 < 10 then accept (true) (.satom (bv w 20 4) (bv w 18 2) (bv w 12 6) (bv w 6 6) (bv w 0 6))
  else .error .member

/-- Major 0x38 (R216): WAIT. -/
def decode38 (w : Nat) : Except DecodeError Instr :=
  accept (field w 0 6 == 0) (.wait (bv w 22 4) (bv w 18 4) (bv w 14 4) (bv w 10 4) (bv w 6 4))

/-- Major 0x39 (R216): CPOST, WAITGE, WAITGEC, LAUNCH, LAUNCHNB, ARMCNT, DISARM, CNTRD, HEAT, COOL. -/
def decode39 (w : Nat) : Except DecodeError Instr :=
  if field w 18 8 = 0 then accept (field w 0 12 == 0) (.cpost (bv w 12 6))
  else if field w 18 8 = 1 then accept (field w 1 1 == 0) (.waitge (bv w 12 6) (bv w 6 6) (bv w 4 2) (bv w 2 2) (bv w 0 1))
  else if field w 18 8 = 2 then accept (field w 1 1 == 0) (.waitgec (bv w 12 6) (bv w 6 6) (bv w 4 2) (bv w 2 2) (bv w 0 1))
  else if field w 18 8 = 3 then accept (field w 0 6 == 0 && field w 12 6 == 0) (.launch (bv w 6 6))
  else if field w 18 8 = 4 then accept (field w 0 6 == 0) (.launchnb (bv w 12 6) (bv w 6 6))
  else if field w 18 8 = 5 then accept (true) (.armcnt (bv w 12 6) (bv w 6 6) (bv w 0 6))
  else if field w 18 8 = 6 then accept (field w 6 6 == 0) (.disarm (bv w 12 6) (bv w 0 6))
  else if field w 18 8 = 7 then accept (true) (.cntrd (bv w 12 6) (bv w 6 6) (bv w 0 6))
  else if field w 18 8 = 8 then accept (field w 0 6 == 0) (.heat (bv w 12 6) (bv w 6 6))
  else if field w 18 8 = 9 then accept (field w 0 6 == 0 && field w 12 6 == 0) (.cool (bv w 6 6))
  else .error .member

/-- Major 0x3A (R216): CWB_WAYBILL, CWBR, CSTRA, CSTRB, CINBOX, CDONE, CTLADV, CWAITQ. -/
def decode3A (w : Nat) : Except DecodeError Instr :=
  if field w 18 8 = 0 then accept (field w 0 6 == 0) (.cwbWaybill (bv w 12 6) (bv w 6 6))
  else if field w 18 8 = 1 then accept (field w 0 6 == 0) (.cwbr (bv w 12 6) (bv w 6 6))
  else if field w 18 8 = 2 then accept (field w 0 6 == 0) (.cstra (bv w 12 6) (bv w 6 6))
  else if field w 18 8 = 3 then accept (field w 0 6 == 0) (.cstrb (bv w 12 6) (bv w 6 6))
  else if field w 18 8 = 4 then accept (field w 0 12 == 0) (.cinbox (bv w 12 6))
  else if field w 18 8 = 5 then accept (field w 0 18 == 0) (.cdone)
  else if field w 18 8 = 6 then accept (field w 2 10 == 0) (.ctladv (bv w 12 6) (bv w 0 2))
  else if field w 18 8 = 7 then accept (field w 6 6 == 0) (.cwaitq (bv w 12 6) (bv w 0 6))
  else .error .member

/-- Major 0x3B (R216): MCHB, MCHE, MZACC, MCAP, MSTAT. -/
def decode3B (w : Nat) : Except DecodeError Instr :=
  if field w 18 8 = 0 then accept (field w 0 2 == 0) (.mchb (bv w 12 6) (bv w 6 6) (bv w 5 1) (bv w 4 1) (bv w 2 2))
  else if field w 18 8 = 1 then accept (field w 0 12 == 0) (.mche (bv w 12 6))
  else if field w 18 8 = 2 then accept (field w 0 6 == 0) (.mzacc (bv w 12 6) (bv w 6 6))
  else if field w 18 8 = 3 then accept (field w 0 12 == 0) (.mcap (bv w 12 6))
  else if field w 18 8 = 4 then accept (field w 1 11 == 0) (.mstat (bv w 12 6) (bv w 0 1))
  else .error .member

/-- Major 0x3C (R216): MMA. -/
def decode3C (w : Nat) : Except DecodeError Instr :=
  accept (field w 0 1 == 0) (.mma (bv w 21 5) (bv w 14 7) (bv w 12 2) (bv w 6 6) (bv w 3 3) (bv w 2 1) (bv w 1 1))

/-- Major 0x3D (R216): RLD_W, RLD_D, RLD_Q, RST_W, RST_D, RST_Q. -/
def decode3D (w : Nat) : Except DecodeError Instr :=
  if field w 0 3 = 0 then accept (true) (.rldW (bv w 19 7) (bv w 13 6) (bv w 12 1) (bv w 6 6) (bv w 3 3))
  else if field w 0 3 = 1 then accept (true) (.rldD (bv w 19 7) (bv w 13 6) (bv w 12 1) (bv w 6 6) (bv w 3 3))
  else if field w 0 3 = 2 then accept (true) (.rldQ (bv w 19 7) (bv w 13 6) (bv w 12 1) (bv w 6 6) (bv w 3 3))
  else if field w 0 3 = 3 then accept (true) (.rstW (bv w 19 7) (bv w 13 6) (bv w 12 1) (bv w 6 6) (bv w 3 3))
  else if field w 0 3 = 4 then accept (true) (.rstD (bv w 19 7) (bv w 13 6) (bv w 12 1) (bv w 6 6) (bv w 3 3))
  else if field w 0 3 = 5 then accept (true) (.rstQ (bv w 19 7) (bv w 13 6) (bv w 12 1) (bv w 6 6) (bv w 3 3))
  else .error .member

/-- Major 0x3E (R216): RATOM, RNOTIFY, RFENCE, TREADY, CLQRY, TOPO. -/
def decode3E (w : Nat) : Except DecodeError Instr :=
  if field w 24 2 = 0 ∧ field w 20 4 < 10 then accept (true) (.ratom (bv w 20 4) (bv w 18 2) (bv w 12 6) (bv w 6 6) (bv w 0 6))
  else if field w 18 8 = 64 then accept (field w 0 1 == 0 && field w 2 2 == 0 && field w 5 1 == 0) (.rnotify (bv w 12 6) (bv w 6 6) (bv w 4 1) (bv w 1 1))
  else if field w 18 8 = 65 then accept (field w 0 18 == 0) (.rfence)
  else if field w 18 8 = 66 then accept (field w 0 6 == 0) (.tready (bv w 12 6) (bv w 6 6))
  else if field w 18 8 = 67 then accept (true) (.clqry (bv w 12 6) (bv w 6 6) (bv w 0 6))
  else if field w 18 8 = 68 then accept (field w 0 6 == 0) (.topo (bv w 12 6) (bv w 6 6))
  else .error .member

/-- Major 0x3F (R216): HIMM, HMOD, HSCHED, HNOP. -/
def decode3F (w : Nat) : Except DecodeError Instr :=
  if field w 22 4 = 0 then accept (true) (.himm (bv w 0 22))
  else if field w 22 4 = 1 then accept (field w 10 12 == 0) (.hmod (bv w 6 4) (bv w 3 3) (bv w 0 3))
  else if field w 22 4 = 2 then accept (true) (.hsched (bv w 12 10) (bv w 8 4) (bv w 0 8))
  else if field w 22 4 = 3 then accept (true) (.hnop (bv w 0 22))
  else if 4 ≤ field w 22 4 then accept true (.hintKindNoop (bv w 22 4) (bv w 0 22))
  else .error .member

/-- One instruction word (R219): the major first, then the member, then the word's fields. -/
def decodeWord (w : Nat) : Except DecodeError Instr :=
  if field w 26 6 = 0 then decode00 w
  else if field w 26 6 = 1 then decode01 w
  else if field w 26 6 = 2 then decode02 w
  else if field w 26 6 = 3 then decode03 w
  else if field w 26 6 = 4 then decode04 w
  else if field w 26 6 = 5 then decode05 w
  else if field w 26 6 = 6 then decode06 w
  else if field w 26 6 = 7 then decode07 w
  else if field w 26 6 = 8 then decode08 w
  else if field w 26 6 = 9 then decode09 w
  else if field w 26 6 = 10 then decode0A w
  else if field w 26 6 = 11 then decode0B w
  else if field w 26 6 = 12 then decode0C w
  else if field w 26 6 = 13 then decode0D w
  else if field w 26 6 = 14 then decode0E w
  else if field w 26 6 = 16 then decode10 w
  else if field w 26 6 = 17 then decode11 w
  else if field w 26 6 = 18 then decode12 w
  else if field w 26 6 = 19 then decode13 w
  else if field w 26 6 = 20 then decode14 w
  else if field w 26 6 = 21 then decode15 w
  else if field w 26 6 = 22 then decode16 w
  else if field w 26 6 = 23 then decode17 w
  else if field w 26 6 = 24 then decode18 w
  else if field w 26 6 = 25 then decode19 w
  else if field w 26 6 = 26 then decode1A w
  else if field w 26 6 = 27 then decode1B w
  else if field w 26 6 = 28 then decode1C w
  else if field w 26 6 = 29 then decode1D w
  else if field w 26 6 = 30 then decode1E w
  else if field w 26 6 = 32 then decode20 w
  else if field w 26 6 = 33 then decode21 w
  else if field w 26 6 = 34 then decode22 w
  else if field w 26 6 = 35 then decode23 w
  else if field w 26 6 = 36 then decode24 w
  else if field w 26 6 = 37 then decode25 w
  else if field w 26 6 = 38 then decode26 w
  else if field w 26 6 = 39 then decode27 w
  else if field w 26 6 = 40 then decode28 w
  else if field w 26 6 = 41 then decode29 w
  else if field w 26 6 = 42 then decode2A w
  else if field w 26 6 = 43 then decode2B w
  else if field w 26 6 = 44 then decode2C w
  else if field w 26 6 = 45 then decode2D w
  else if field w 26 6 = 46 then decode2E w
  else if field w 26 6 = 47 then decode2F w
  else if field w 26 6 = 48 then decode30 w
  else if field w 26 6 = 49 then decode31 w
  else if field w 26 6 = 50 then decode32 w
  else if field w 26 6 = 51 then decode33 w
  else if field w 26 6 = 52 then decode34 w
  else if field w 26 6 = 53 then decode35 w
  else if field w 26 6 = 54 then decode36 w
  else if field w 26 6 = 55 then decode37 w
  else if field w 26 6 = 56 then decode38 w
  else if field w 26 6 = 57 then decode39 w
  else if field w 26 6 = 58 then decode3A w
  else if field w 26 6 = 59 then decode3B w
  else if field w 26 6 = 60 then decode3C w
  else if field w 26 6 = 61 then decode3D w
  else if field w 26 6 = 62 then decode3E w
  else if field w 26 6 = 63 then decode3F w
  else .error .major

/-- The word of an instruction, each field at its place under R208 and R211; none for a step that has no word. -/
def encodeWord : Instr → Option Nat
  | .nop => some (0)
  | .trap n => some (262144 + n.toNat)
  | .brk n => some (524288 + n.toNat)
  | .tret => some (786432)
  | .tkill => some (1048576)
  | .tskip => some (1310720)
  | .mfsr d r => some (1572864 + d.toNat * 4096 + r.toNat)
  | .mtsr a r => some (1835008 + a.toNat * 4096 + r.toNat)
  | .halt => some (2097152)
  | .sadd d a b => some (67108864 + d.toNat * 1048576 + a.toNat * 16384 + b.toNat * 256)
  | .ssub d a b => some (67108865 + d.toNat * 1048576 + a.toNat * 16384 + b.toNat * 256)
  | .smul d a b => some (67108866 + d.toNat * 1048576 + a.toNat * 16384 + b.toNat * 256)
  | .smulh d a b => some (67108867 + d.toNat * 1048576 + a.toNat * 16384 + b.toNat * 256)
  | .smulhu d a b => some (67108868 + d.toNat * 1048576 + a.toNat * 16384 + b.toNat * 256)
  | .sdiv d a b => some (67108869 + d.toNat * 1048576 + a.toNat * 16384 + b.toNat * 256)
  | .sdivu d a b => some (67108870 + d.toNat * 1048576 + a.toNat * 16384 + b.toNat * 256)
  | .srem d a b => some (67108871 + d.toNat * 1048576 + a.toNat * 16384 + b.toNat * 256)
  | .sremu d a b => some (67108872 + d.toNat * 1048576 + a.toNat * 16384 + b.toNat * 256)
  | .sand d a b => some (67108873 + d.toNat * 1048576 + a.toNat * 16384 + b.toNat * 256)
  | .sor d a b => some (67108874 + d.toNat * 1048576 + a.toNat * 16384 + b.toNat * 256)
  | .sxor d a b => some (67108875 + d.toNat * 1048576 + a.toNat * 16384 + b.toNat * 256)
  | .sshl d a b => some (67108876 + d.toNat * 1048576 + a.toNat * 16384 + b.toNat * 256)
  | .sshr d a b => some (67108877 + d.toNat * 1048576 + a.toNat * 16384 + b.toNat * 256)
  | .ssra d a b => some (67108878 + d.toNat * 1048576 + a.toNat * 16384 + b.toNat * 256)
  | .smin d a b => some (67108879 + d.toNat * 1048576 + a.toNat * 16384 + b.toNat * 256)
  | .smax d a b => some (67108880 + d.toNat * 1048576 + a.toNat * 16384 + b.toNat * 256)
  | .sminu d a b => some (67108881 + d.toNat * 1048576 + a.toNat * 16384 + b.toNat * 256)
  | .smaxu d a b => some (67108882 + d.toNat * 1048576 + a.toNat * 16384 + b.toNat * 256)
  | .sclz d a => some (67108883 + d.toNat * 1048576 + a.toNat * 16384)
  | .spopc d a => some (67108884 + d.toNat * 1048576 + a.toNat * 16384)
  | .saddi d a i => some (134217728 + d.toNat * 1048576 + a.toNat * 16384 + i.toNat)
  | .sshli d a n => some (201326592 + d.toNat * 1048576 + a.toNat * 16384 + n.toNat)
  | .sshri d a n => some (201330688 + d.toNat * 1048576 + a.toNat * 16384 + n.toNat)
  | .ssrai d a n => some (201334784 + d.toNat * 1048576 + a.toNat * 16384 + n.toNat)
  | .slui d i => some (268435456 + d.toNat * 1048576 + i.toNat)
  | .scmp d c a b => some (335544320 + d.toNat * 8388608 + c.toNat * 1048576 + a.toNat * 16384 + b.toNat * 256)
  | .scmpi d c a i => some (402653184 + d.toNat * 8388608 + c.toNat * 1048576 + a.toNat * 16384 + i.toNat)
  | .sldW d a o => some (469762048 + d.toNat * 1048576 + a.toNat * 16384 + o.toNat)
  | .sldD d a o => some (469766144 + d.toNat * 1048576 + a.toNat * 16384 + o.toNat)
  | .sstW d a o => some (469770240 + d.toNat * 1048576 + a.toNat * 16384 + o.toNat)
  | .sstD d a o => some (469774336 + d.toNat * 1048576 + a.toNat * 16384 + o.toNat)
  | .br c n o => some (536870912 + c.toNat * 8388608 + n.toNat * 4194304 + o.toNat)
  | .call o => some (603979776 + o.toNat)
  | .jmpr a => some (671088640 + a.toNat * 4096)
  | .callr a => some (671350784 + a.toNat * 4096)
  | .ret => some (671612928)
  | .cand d a b => some (671908360 + d.toNat * 4096 + a.toNat * 64 + b.toNat)
  | .cor d a b => some (672170504 + d.toNat * 4096 + a.toNat * 64 + b.toNat)
  | .cxor d a b => some (672432648 + d.toNat * 4096 + a.toNat * 64 + b.toNat)
  | .cnot d a => some (672694784 + d.toNat * 4096 + a.toNat * 64)
  | .looph a l => some (738197504 + a.toNat * 262144 + l.toNat)
  | .loophi n l => some (754974720 + n.toNat * 256 + l.toNat)
  | .lbrk => some (771751936)
  | .vif p => some (805306368 + p.toNat * 4096)
  | .velse => some (805568512)
  | .vendif => some (805830656)
  | .vloop => some (806092800)
  | .vbrk p k => some (806354944 + p.toNat * 4096 + k.toNat * 64)
  | .vcont p k => some (806617088 + p.toNat * 4096 + k.toNat * 64)
  | .endvl d => some (806879232 + d.toNat)
  | .exit => some (872415232)
  | .exitS a => some (872677376 + a.toNat * 4096)
  | .yield => some (872939520)
  | .yieldc a b t => some (873201664 + a.toNat * 4096 + b.toNat * 64 + t.toNat)
  | .split w => some (873463808 + w.toNat)
  | .fuse d w t => some (873725952 + d.toNat * 4096 + w.toNat * 64 + t.toNat)
  | .lease a => some (873988096 + a.toNat * 4096)
  | .leasem => some (874250240)
  | .leaseq d k => some (874512384 + d.toNat * 4096 + k.toNat)
  | .gbar g s o => some (939524096 + g.toNat * 64 + s.toNat * 4 + o.toNat)
  | .garrive d g s o => some (939786240 + d.toNat * 4096 + g.toNat * 64 + s.toNat * 4 + o.toNat)
  | .gwait a g s o => some (940048384 + a.toNat * 4096 + g.toNat * 64 + s.toNat * 4 + o.toNat)
  | .gqry d g k => some (940310528 + d.toNat * 4096 + g.toNat * 64 + k.toNat)
  | .vadd d a b p => some (1073741824 + d.toNat * 524288 + a.toNat * 4096 + b.toNat * 32 + p.toNat * 4)
  | .vsub d a b p => some (1073741825 + d.toNat * 524288 + a.toNat * 4096 + b.toNat * 32 + p.toNat * 4)
  | .vadds d a b p => some (1073741826 + d.toNat * 524288 + a.toNat * 4096 + b.toNat * 32 + p.toNat * 4)
  | .vsubs d a b p => some (1073741827 + d.toNat * 524288 + a.toNat * 4096 + b.toNat * 32 + p.toNat * 4)
  | .vmul d a b p => some (1140850688 + d.toNat * 524288 + a.toNat * 4096 + b.toNat * 32 + p.toNat * 4)
  | .vmulh d a b p => some (1140850689 + d.toNat * 524288 + a.toNat * 4096 + b.toNat * 32 + p.toNat * 4)
  | .vmulhu d a b p => some (1140850690 + d.toNat * 524288 + a.toNat * 4096 + b.toNat * 32 + p.toNat * 4)
  | .vmad d a b p => some (1140850691 + d.toNat * 524288 + a.toNat * 4096 + b.toNat * 32 + p.toNat * 4)
  | .vand d a b p => some (1207959552 + d.toNat * 524288 + a.toNat * 4096 + b.toNat * 32 + p.toNat * 4)
  | .vor d a b p => some (1207959553 + d.toNat * 524288 + a.toNat * 4096 + b.toNat * 32 + p.toNat * 4)
  | .vxor d a b p => some (1207959554 + d.toNat * 524288 + a.toNat * 4096 + b.toNat * 32 + p.toNat * 4)
  | .vandn d a b p => some (1207959555 + d.toNat * 524288 + a.toNat * 4096 + b.toNat * 32 + p.toNat * 4)
  | .vshl d a b p => some (1275068416 + d.toNat * 524288 + a.toNat * 4096 + b.toNat * 32 + p.toNat * 4)
  | .vshr d a b p => some (1275068417 + d.toNat * 524288 + a.toNat * 4096 + b.toNat * 32 + p.toNat * 4)
  | .vsra d a b p => some (1275068418 + d.toNat * 524288 + a.toNat * 4096 + b.toNat * 32 + p.toNat * 4)
  | .vrot d a b p => some (1275068419 + d.toNat * 524288 + a.toNat * 4096 + b.toNat * 32 + p.toNat * 4)
  | .vmin d a b p => some (1342177280 + d.toNat * 524288 + a.toNat * 4096 + b.toNat * 32 + p.toNat * 4)
  | .vmax d a b p => some (1342177281 + d.toNat * 524288 + a.toNat * 4096 + b.toNat * 32 + p.toNat * 4)
  | .vminu d a b p => some (1342177282 + d.toNat * 524288 + a.toNat * 4096 + b.toNat * 32 + p.toNat * 4)
  | .vmaxu d a b p => some (1342177283 + d.toNat * 524288 + a.toNat * 4096 + b.toNat * 32 + p.toNat * 4)
  | .vaddus d a b p => some (1409286144 + d.toNat * 524288 + a.toNat * 4096 + b.toNat * 32 + p.toNat * 4)
  | .vsubus d a b p => some (1409286145 + d.toNat * 524288 + a.toNat * 4096 + b.toNat * 32 + p.toNat * 4)
  | .vabsd d a b p => some (1409286146 + d.toNat * 524288 + a.toNat * 4096 + b.toNat * 32 + p.toNat * 4)
  | .vavg d a b p => some (1409286147 + d.toNat * 524288 + a.toNat * 4096 + b.toNat * 32 + p.toNat * 4)
  | .vceq d a b p => some (1476395008 + d.toNat * 524288 + a.toNat * 4096 + b.toNat * 32 + p.toNat * 4)
  | .vcne d a b p => some (1476395009 + d.toNat * 524288 + a.toNat * 4096 + b.toNat * 32 + p.toNat * 4)
  | .vclt d a b p => some (1476395010 + d.toNat * 524288 + a.toNat * 4096 + b.toNat * 32 + p.toNat * 4)
  | .vcle d a b p => some (1476395011 + d.toNat * 524288 + a.toNat * 4096 + b.toNat * 32 + p.toNat * 4)
  | .vcltu d a b p => some (1543503872 + d.toNat * 524288 + a.toNat * 4096 + b.toNat * 32 + p.toNat * 4)
  | .vcleu d a b p => some (1543503873 + d.toNat * 524288 + a.toNat * 4096 + b.toNat * 32 + p.toNat * 4)
  | .vctst d a b p => some (1543503874 + d.toNat * 524288 + a.toNat * 4096 + b.toNat * 32 + p.toNat * 4)
  | .vaddh2 d a b p => some (1610612736 + d.toNat * 524288 + a.toNat * 4096 + b.toNat * 32 + p.toNat * 4)
  | .vaddb4 d a b p => some (1610612737 + d.toNat * 524288 + a.toNat * 4096 + b.toNat * 32 + p.toNat * 4)
  | .vmulh2 d a b p => some (1610612738 + d.toNat * 524288 + a.toNat * 4096 + b.toNat * 32 + p.toNat * 4)
  | .vdot4 d a b p => some (1610612739 + d.toNat * 524288 + a.toNat * 4096 + b.toNat * 32 + p.toNat * 4)
  | .vsel d a b q => some (1677721600 + d.toNat * 524288 + a.toNat * 4096 + b.toNat * 32 + q.toNat * 4)
  | .vclz d a p => some (1677721601 + d.toNat * 524288 + a.toNat * 4096 + p.toNat * 4)
  | .vpopc d a p => some (1677721602 + d.toNat * 524288 + a.toNat * 4096 + p.toNat * 4)
  | .vbrev d a p => some (1677721603 + d.toNat * 524288 + a.toNat * 4096 + p.toNat * 4)
  | .vaddi d a p i => some (1744830464 + d.toNat * 524288 + a.toNat * 4096 + p.toNat * 512 + i.toNat)
  | .vshli d a p n => some (1811939328 + d.toNat * 524288 + a.toNat * 4096 + p.toNat * 512 + n.toNat)
  | .vshri d a p n => some (1811939456 + d.toNat * 524288 + a.toNat * 4096 + p.toNat * 512 + n.toNat)
  | .vsrai d a p n => some (1811939584 + d.toNat * 524288 + a.toNat * 4096 + p.toNat * 512 + n.toNat)
  | .vmovi d p i => some (1879048192 + d.toNat * 524288 + p.toNat * 65536 + i.toNat)
  | .vmovhi d p i => some (1946157056 + d.toNat * 524288 + p.toNat * 65536 + i.toNat)
  | .vcmpi d c a p i => some (2013265920 + d.toNat * 8388608 + c.toNat * 1048576 + a.toNat * 4096 + p.toNat * 512 + i.toNat)
  | .fadd d a b p => some (2147483648 + d.toNat * 524288 + a.toNat * 4096 + b.toNat * 32 + p.toNat * 4)
  | .fsub d a b p => some (2147483649 + d.toNat * 524288 + a.toNat * 4096 + b.toNat * 32 + p.toNat * 4)
  | .fmul d a b p => some (2147483650 + d.toNat * 524288 + a.toNat * 4096 + b.toNat * 32 + p.toNat * 4)
  | .fmac d a b p => some (2147483651 + d.toNat * 524288 + a.toNat * 4096 + b.toNat * 32 + p.toNat * 4)
  | .fmin d a b p => some (2214592512 + d.toNat * 524288 + a.toNat * 4096 + b.toNat * 32 + p.toNat * 4)
  | .fmax d a b p => some (2214592513 + d.toNat * 524288 + a.toNat * 4096 + b.toNat * 32 + p.toNat * 4)
  | .fminm d a b p => some (2214592514 + d.toNat * 524288 + a.toNat * 4096 + b.toNat * 32 + p.toNat * 4)
  | .fmaxm d a b p => some (2214592515 + d.toNat * 524288 + a.toNat * 4096 + b.toNat * 32 + p.toNat * 4)
  | .fceq d a b p => some (2281701376 + d.toNat * 524288 + a.toNat * 4096 + b.toNat * 32 + p.toNat * 4)
  | .fclt d a b p => some (2281701377 + d.toNat * 524288 + a.toNat * 4096 + b.toNat * 32 + p.toNat * 4)
  | .fcle d a b p => some (2281701378 + d.toNat * 524288 + a.toNat * 4096 + b.toNat * 32 + p.toNat * 4)
  | .fcun d a b p => some (2281701379 + d.toNat * 524288 + a.toNat * 4096 + b.toNat * 32 + p.toNat * 4)
  | .fdiv d a b p => some (2348810240 + d.toNat * 524288 + a.toNat * 4096 + b.toNat * 32 + p.toNat * 4)
  | .fsqrt d a p => some (2348810241 + d.toNat * 524288 + a.toNat * 4096 + p.toNat * 4)
  | .frsq d a p => some (2348810242 + d.toNat * 524288 + a.toNat * 4096 + p.toNat * 4)
  | .frcp d a p => some (2348810243 + d.toNat * 524288 + a.toNat * 4096 + p.toNat * 4)
  | .fexp2 d a p => some (2415919104 + d.toNat * 524288 + a.toNat * 4096 + p.toNat * 4)
  | .flog2 d a p => some (2415919105 + d.toNat * 524288 + a.toNat * 4096 + p.toNat * 4)
  | .fsinpi d a p => some (2415919106 + d.toNat * 524288 + a.toNat * 4096 + p.toNat * 4)
  | .fcospi d a p => some (2415919107 + d.toNat * 524288 + a.toNat * 4096 + p.toNat * 4)
  | .fma d a b c p => some (2483027968 + d.toNat * 2097152 + a.toNat * 65536 + b.toNat * 2048 + c.toNat * 64 + p.toNat * 8)
  | .fms d a b c p => some (2483027970 + d.toNat * 2097152 + a.toNat * 65536 + b.toNat * 2048 + c.toNat * 64 + p.toNat * 8)
  | .fnma d a b c p => some (2483027972 + d.toNat * 2097152 + a.toNat * 65536 + b.toNat * 2048 + c.toNat * 64 + p.toNat * 8)
  | .fnms d a b c p => some (2483027974 + d.toNat * 2097152 + a.toNat * 65536 + b.toNat * 2048 + c.toNat * 64 + p.toNat * 8)
  | .hadd2 d a b p => some (2550136832 + d.toNat * 524288 + a.toNat * 4096 + b.toNat * 32 + p.toNat * 4)
  | .hmul2 d a b p => some (2550136833 + d.toNat * 524288 + a.toNat * 4096 + b.toNat * 32 + p.toNat * 4)
  | .hfmac2 d a b p => some (2550136834 + d.toNat * 524288 + a.toNat * 4096 + b.toNat * 32 + p.toNat * 4)
  | .hmax2 d a b p => some (2550136835 + d.toNat * 524288 + a.toNat * 4096 + b.toNat * 32 + p.toNat * 4)
  | .badd2 d a b p => some (2617245696 + d.toNat * 524288 + a.toNat * 4096 + b.toNat * 32 + p.toNat * 4)
  | .bmul2 d a b p => some (2617245697 + d.toNat * 524288 + a.toNat * 4096 + b.toNat * 32 + p.toNat * 4)
  | .bfmac2 d a b p => some (2617245698 + d.toNat * 524288 + a.toNat * 4096 + b.toNat * 32 + p.toNat * 4)
  | .bmax2 d a b p => some (2617245699 + d.toNat * 524288 + a.toNat * 4096 + b.toNat * 32 + p.toNat * 4)
  | .cvt d a k p m => some (2684354560 + d.toNat * 524288 + a.toNat * 4096 + k.toNat * 32 + p.toNat * 4 + m.toNat)
  | .fclass d a p => some (2751463424 + d.toNat * 524288 + a.toNat * 4096 + p.toNat * 4)
  | .frint d a p => some (2751463425 + d.toNat * 524288 + a.toNat * 4096 + p.toNat * 4)
  | .fscalb d a b p => some (2751463426 + d.toNat * 524288 + a.toNat * 4096 + b.toNat * 32 + p.toNat * 4)
  | .fgetexp d a p => some (2751463427 + d.toNat * 524288 + a.toNat * 4096 + p.toNat * 4)
  | .pand d a b => some (2818572288 + d.toNat * 4096 + a.toNat * 64 + b.toNat)
  | .por d a b => some (2818834432 + d.toNat * 4096 + a.toNat * 64 + b.toNat)
  | .pxor d a b => some (2819096576 + d.toNat * 4096 + a.toNat * 64 + b.toNat)
  | .pandn d a b => some (2819358720 + d.toNat * 4096 + a.toNat * 64 + b.toNat)
  | .pnot d a => some (2819620864 + d.toNat * 4096 + a.toNat * 64)
  | .pflag d f => some (2819884032 + d.toNat * 4096 + f.toNat * 64)
  | .flclr m => some (2820145152 + m.toNat)
  | .flrd d => some (2820407296 + d.toNat * 4096)
  | .mfacc d t k b p => some (2885681152 + d.toNat * 524288 + t.toNat * 262144 + k.toNat * 4096 + b.toNat * 64 + p.toNat * 8)
  | .mtacc d k b p => some (2885681153 + d.toNat * 524288 + k.toNat * 4096 + b.toNat * 64 + p.toNat * 8)
  | .mfaccz d t k b p => some (2885681154 + d.toNat * 524288 + t.toNat * 262144 + k.toNat * 4096 + b.toNat * 64 + p.toNat * 8)
  | .shfli d a b p => some (2952790016 + d.toNat * 524288 + a.toNat * 4096 + b.toNat * 32 + p.toNat * 4)
  | .shflu d a b p => some (2952790017 + d.toNat * 524288 + a.toNat * 4096 + b.toNat * 32 + p.toNat * 4)
  | .shfld d a b p => some (2952790018 + d.toNat * 524288 + a.toNat * 4096 + b.toNat * 32 + p.toNat * 4)
  | .shflx d a b p => some (2952790019 + d.toNat * 524288 + a.toNat * 4096 + b.toNat * 32 + p.toNat * 4)
  | .vall j d k s => some (3019898880 + j.toNat * 32768 + d.toNat * 4096 + k.toNat * 1024 + s.toNat * 64)
  | .vany j d k s => some (3020161024 + j.toNat * 32768 + d.toNat * 4096 + k.toNat * 1024 + s.toNat * 64)
  | .vbal d k s => some (3020423168 + d.toNat * 4096 + k.toNat * 1024 + s.toNat * 64)
  | .vcnt d k s => some (3020685312 + d.toNat * 4096 + k.toNat * 1024 + s.toNat * 64)
  | .vred d a t o p => some (3087007744 + d.toNat * 524288 + a.toNat * 4096 + t.toNat * 2048 + o.toNat * 32 + p.toNat * 4)
  | .vscani d a o p => some (3087007745 + d.toNat * 524288 + a.toNat * 4096 + o.toNat * 32 + p.toNat * 4)
  | .vscanx d a o p => some (3087007746 + d.toNat * 524288 + a.toNat * 4096 + o.toNat * 32 + p.toNat * 4)
  | .vbcast d a b => some (3154116608 + d.toNat * 4096 + a.toNat * 64 + b.toNat)
  | .vextr d a b => some (3154378752 + d.toNat * 4096 + a.toNat * 64 + b.toNat)
  | .vinsr d a b => some (3154640896 + d.toNat * 4096 + a.toNat * 64 + b.toNat)
  | .vcprs d a p => some (3154903040 + d.toNat * 4096 + a.toNat * 64 + p.toNat)
  | .vlane d h => some (3155165184 + d.toNat * 4096 + h.toNat)
  | .vtid d => some (3155427328 + d.toNat * 4096)
  | .lds d a b p z => some (3221225472 + d.toNat * 524288 + a.toNat * 4096 + b.toNat * 64 + p.toNat * 8 + z.toNat)
  | .sts d a b p z => some (3288334336 + d.toNat * 524288 + a.toNat * 4096 + b.toNat * 64 + p.toNat * 8 + z.toNat)
  | .lda d a b p z => some (3355443200 + d.toNat * 524288 + a.toNat * 4096 + b.toNat * 64 + p.toNat * 8 + z.toNat)
  | .sta d a b p z => some (3422552064 + d.toNat * 524288 + a.toNat * 4096 + b.toNat * 64 + p.toNat * 8 + z.toNat)
  | .ldg d a b p z => some (3489660928 + d.toNat * 524288 + a.toNat * 4096 + b.toNat * 64 + p.toNat * 8 + z.toNat)
  | .stg d a b p z => some (3556769792 + d.toNat * 524288 + a.toNat * 4096 + b.toNat * 64 + p.toNat * 8 + z.toNat)
  | .atom d a b o r => some (3623878656 + d.toNat * 524288 + a.toNat * 4096 + b.toNat * 64 + o.toNat * 4 + r.toNat)
  | .fence s o => some (3690987520 + s.toNat * 4 + o.toNat)
  | .acq d a s => some (3691249664 + d.toNat * 4096 + a.toNat * 64 + s.toNat * 4)
  | .rel b a s => some (3691511808 + b.toNat * 4096 + a.toNat * 64 + s.toNat * 4)
  | .bind d a b => some (3691773952 + d.toNat * 4096 + a.toNat * 64 + b.toNat)
  | .unbind a => some (3692036096 + a.toNat * 64)
  | .cinv a b => some (3692298240 + a.toNat * 64 + b.toNat)
  | .cwbWriteback a b => some (3692560384 + a.toNat * 64 + b.toNat)
  | .satom o r d a b => some (3707764736 + o.toNat * 1048576 + r.toNat * 262144 + d.toNat * 4096 + a.toNat * 64 + b.toNat)
  | .wait l s c t r => some (3758096384 + l.toNat * 4194304 + s.toNat * 262144 + c.toNat * 16384 + t.toNat * 1024 + r.toNat * 64)
  | .cpost a => some (3825205248 + a.toNat * 4096)
  | .waitge a b f s o => some (3825467392 + a.toNat * 4096 + b.toNat * 64 + f.toNat * 16 + s.toNat * 4 + o.toNat)
  | .waitgec a b f s o => some (3825729536 + a.toNat * 4096 + b.toNat * 64 + f.toNat * 16 + s.toNat * 4 + o.toNat)
  | .launch a => some (3825991680 + a.toNat * 64)
  | .launchnb d a => some (3826253824 + d.toNat * 4096 + a.toNat * 64)
  | .armcnt d a b => some (3826515968 + d.toNat * 4096 + a.toNat * 64 + b.toNat)
  | .disarm d b => some (3826778112 + d.toNat * 4096 + b.toNat)
  | .cntrd d k b => some (3827040256 + d.toNat * 4096 + k.toNat * 64 + b.toNat)
  | .heat d a => some (3827302400 + d.toNat * 4096 + a.toNat * 64)
  | .cool a => some (3827564544 + a.toNat * 64)
  | .cwbWaybill d a => some (3892314112 + d.toNat * 4096 + a.toNat * 64)
  | .cwbr d a => some (3892576256 + d.toNat * 4096 + a.toNat * 64)
  | .cstra d a => some (3892838400 + d.toNat * 4096 + a.toNat * 64)
  | .cstrb d a => some (3893100544 + d.toNat * 4096 + a.toNat * 64)
  | .cinbox d => some (3893362688 + d.toNat * 4096)
  | .cdone => some (3893624832)
  | .ctladv d t => some (3893886976 + d.toNat * 4096 + t.toNat)
  | .cwaitq d k => some (3894149120 + d.toNat * 4096 + k.toNat)
  | .mchb a b y c g => some (3959422976 + a.toNat * 4096 + b.toNat * 64 + y.toNat * 32 + c.toNat * 16 + g.toNat * 4)
  | .mche d => some (3959685120 + d.toNat * 4096)
  | .mzacc a b => some (3959947264 + a.toNat * 4096 + b.toNat * 64)
  | .mcap d => some (3960209408 + d.toNat * 4096)
  | .mstat d c => some (3960471552 + d.toNat * 4096 + c.toNat)
  | .mma f v e b p s o => some (4026531840 + f.toNat * 2097152 + v.toNat * 16384 + e.toNat * 4096 + b.toNat * 64 + p.toNat * 8 + s.toNat * 4 + o.toNat * 2)
  | .rldW d a o b p => some (4093640704 + d.toNat * 524288 + a.toNat * 8192 + o.toNat * 4096 + b.toNat * 64 + p.toNat * 8)
  | .rldD d a o b p => some (4093640705 + d.toNat * 524288 + a.toNat * 8192 + o.toNat * 4096 + b.toNat * 64 + p.toNat * 8)
  | .rldQ d a o b p => some (4093640706 + d.toNat * 524288 + a.toNat * 8192 + o.toNat * 4096 + b.toNat * 64 + p.toNat * 8)
  | .rstW d a o b p => some (4093640707 + d.toNat * 524288 + a.toNat * 8192 + o.toNat * 4096 + b.toNat * 64 + p.toNat * 8)
  | .rstD d a o b p => some (4093640708 + d.toNat * 524288 + a.toNat * 8192 + o.toNat * 4096 + b.toNat * 64 + p.toNat * 8)
  | .rstQ d a o b p => some (4093640709 + d.toNat * 524288 + a.toNat * 8192 + o.toNat * 4096 + b.toNat * 64 + p.toNat * 8)
  | .ratom o r d a b => some (4160749568 + o.toNat * 1048576 + r.toNat * 262144 + d.toNat * 4096 + a.toNat * 64 + b.toNat)
  | .rnotify a b q r => some (4177526784 + a.toNat * 4096 + b.toNat * 64 + q.toNat * 16 + r.toNat * 2)
  | .rfence => some (4177788928)
  | .tready d a => some (4178051072 + d.toNat * 4096 + a.toNat * 64)
  | .clqry d a k => some (4178313216 + d.toNat * 4096 + a.toNat * 64 + k.toNat)
  | .topo d a => some (4178575360 + d.toNat * 4096 + a.toNat * 64)
  | .himm p => some (4227858432 + p.toNat)
  | .hmod c s r => some (4232052736 + c.toNat * 64 + s.toNat * 8 + r.toNat)
  | .hsched x c n => some (4236247040 + x.toNat * 4096 + c.toNat * 256 + n.toNat)
  | .hnop p => some (4240441344 + p.toNat)
  | .hintKindNoop kind payload => some (4227858432 + kind.toNat * 4194304 + payload.toNat)
  | .accessComplete => none
  | .atomicPerform => none
  | .writeArrival => none
  | .counterCarterMessage => none
  | .tlbInvalidationAck => none
  | .islandTaskPush => none
  | .pendingLaunchForward => none
  | .coachPlacement => none
  | .teamAdmission => none
  | .leaseWindowEnd => none
  | .teamForced => none
  | .teamWake => none
  | .fuseTimeout => none
  | .swapOut => none
  | .coachRestore => none
  | .quantumBoundary => none
  | .successorPush => none
  | .taskCompletion => none
  | .joinDecrement => none
  | .heatGrant => none
  | .waybillElementLand => none
  | .waybillComplete => none
  | .streamBlockPush => none
  | .chainDispatch => none
  | .kblockApply => none
  | .frameReceive => none
  | .frameRetry => none
  | .relayForward => none
  | .rotorSlot => none
  | .remoteReply => none
  | .remoteTimeout => none
  | .reportOnlyTimeout => none
  | .bellowsSend => none
  | .collectiveComplete => none
  | .hcpselWrite => none
  | .queueEnable => none
  | .queueDisable => none
  | .doorbell => none
  | .cmdNop => none
  | .cmdLaunch => none
  | .cmdWrite => none
  | .cmdCopy => none
  | .cmdMctset => none
  | .cmdKill => none
  | .launchDispatch => none
  | .ctxCreate => none
  | .ctxDestroy => none
  | .ctxSuspend => none
  | .ctxResume => none
  | .inval => none
  | .pfDone => none
  | .topoRead => none
  | .topoFence => none
  | .topoRemap => none
  | .hearthBudgetWrite => none
  | .fwmaskWrite => none
  | .corectxWrite => none
  | .keyZeroise => none
  | .fareqAssign => none
  | .fareqQuarantine => none
  | .scrubStart => none
  | .scrubUnit => none
  | .islandReset => none
  | .islandResetEnd => none
  | .discard => none
  | .hubWake => none
  | .registerWrite => none
  | .energyWindow => none
  | .correctedError => none
  | .uncorrectableError => none
  | .temperatureCrossing => none
  | .linkWindowEnd => none
  | .fwLoad => none
  | .fwVerifyComplete => none
  | .hubReset => none
  | .spdmRequest => none
  | .powerOn => none
  | .illegalInsn => none
  | .instructionFetchFault => none
  | .invalidCommand => none
  | .invalidMailboxRequest => none
  | .edgePortLinkUp => none
  | .powerLoss => none

/-- Little-endian bytes of a word (R5, R208). -/
def wordBytes (w : Nat) : List Byte :=
  [BitVec.ofNat 8 w, BitVec.ofNat 8 (w / 256), BitVec.ofNat 8 (w / 65536), BitVec.ofNat 8 (w / 16777216)]

/-- Decodes the instruction at the head of a list of bytes, and gives the bytes that follow it. -/
def decode : List Byte → Except DecodeError (Instr × List Byte)
  | b0 :: b1 :: b2 :: b3 :: rest =>
    match decodeWord (b0.toNat + b1.toNat * 256 + b2.toNat * 65536 + b3.toNat * 16777216) with
    | .ok i => .ok (i, rest)
    | .error e => .error e
  | _ => .error .short

/-- The bytes of an instruction; none for a step that has no word. -/
def encode (i : Instr) : Option (List Byte) := (encodeWord i).map wordBytes

/-- The instruction that the decoder reads from a word whose low `nbits` bits are those of `w` and whose other bits are 0. -/
def decodeTableWord (nbits w : Nat) : Option Instr :=
  match decode (wordBytes (w % 2 ^ nbits)) with
  | .ok (i, _) => some i
  | .error _ => none

end Sys2Proof
end

