-- ==== Sys2Proof/Machine/Fetch.lean ====
section
/-!
DEFINITION. Fetching and decoding the running agent's next instruction (R5, R81, R219, R228), its readiness (R71, R354), and which agent
moves next.
-/
namespace Sys2Proof.Machine

/-- The outcome of a fetch. -/
inductive Fetched where
  | word (w : Word32)
  | bad (p : Probe)
  deriving DecidableEq, Repr

/-- The word at the running agent's pc, read through its L1 (R5, R81). -/
def fetchWord (s : State) : State × Fetched :=
  let t := s.cur
  match probeGlobal s t.sc.pc.toNat 4 .fetch with
  | (s1, .ok pa mt) =>
    if gBad s1 t.mIsl t.id.core pa 4 then (s1, .bad (.bad causeData t.sc.pc))
    else
      let q := codeRead s1 t.mIsl t.id.core t.id.ctx t.sc.pc.toNat pa 4 (typePolicy (mt = 1))
      (q.1, .word (BitVec.ofNat 32 (leNat q.2)))
  | (s1, .bad c v) => (s1, .bad (.bad c v))
  | (s1, .page v) => (s1, .bad (.page v))

/-- What a fetched word is for the running agent: R219 in its order, with the checks of the word alone made by the decoder, then the
allocation (step 5) and the agent (step 6). -/
def decodeFor (t : Thread) (w : Word32) : Option Instr :=
  match decodeWord w.toNat with
  | .error _ => none
  | .ok i => if i.allocOk t.id.vregs && i.agentOk t.id.kind then some i else none

/-- The running agent may issue an instruction: the registers it names have no write pending, no acquire is under way, and the count that it
raises has room (R71, R275, R280, R322); heat that a save took is back (R298). The Carter waits for every old value (R279, R318). YIELD
waits for no acquire and no count (R237). -/
def Thread.ready (t : Thread) (i : Instr) : Bool :=
  i.vregs.all (fun r => !t.fl.pendV.contains r) && i.sregs.all (fun r => !t.fl.pendS.contains r)
  && (t.fl.fenced.isEmpty || i.isYield) && t.an.heatOwed = 0 && (t.id.kind ≠ .carter || t.fl.pendS.isEmpty)
  && match i.raises with
    | none => true
    | some c => decide (t.fl.count c < 65535)

/-- The instruction word latched for XINSN and the records. -/
def State.latch (s : State) (w : Word32) : State := s.updCur (fun t => { t with sc := { t.sc with insn := w } })

/-! ### The vector queue and the two PC slots (R35-R37, R44-R48) -/

/-- The major of a word (R216). -/
def majorOf (w : Word32) : Nat := w.toNat / 2 ^ 26 % 64

/-- The sub-opcode in bits 25:18 of a word of majors 0x0B to 0x0D (R218). -/
def fn8Of (w : Word32) : Nat := w.toNat / 2 ^ 18 % 256

def isIf (w : Word32) : Bool := majorOf w = 0x0C && fn8Of w = 0
def isElse (w : Word32) : Bool := majorOf w = 0x0C && fn8Of w = 1
def isEndif (w : Word32) : Bool := majorOf w = 0x0C && fn8Of w = 2

/-- A cross-lane instruction (R44). -/
def crossLane (w : Word32) : Bool :=
  let m := majorOf w
  m = 0x2B || (decide (0x2C ≤ m) && decide (m ≤ 0x2F)) || m = 0x3B || m = 0x3C || m = 0x0E || (m = 0x0D && (fn8Of w = 4 || fn8Of w = 5))

/-- An instruction that the front end puts into the vector queue: every one that is not a scalar instruction, a uniform branch, a hardware loop or a hint
(R35). Of major 0x0D these are EXIT, EXIT.S, SPLIT and FUSE (R235, R236, R265); of 0x37 all but SATOM (R279, R281); of 0x39 all but HEAT and COOL (R288). -/
def queues (w : Word32) : Bool :=
  let m := majorOf w
  let f := fn8Of w
  m = 0x0C || (m = 0x0D && (decide (f ≤ 1) || f = 4 || f = 5)) || m = 0x0E || (decide (0x10 ≤ m) && decide (m ≤ 0x36)) || (m = 0x37 && decide (f ≤ 6))
    || m = 0x38 || (m = 0x39 && f ≠ 8 && f ≠ 9) || (decide (0x3B ≤ m) && decide (m ≤ 0x3E))

/-- An instruction behind which the front end stops until it has completed: a crossing (R37), one that costs as much as a crossing (R268, R281, R288, R304,
R325), ENDVL (R234), WAIT (R287), and those that end, split or fuse the team (R235, R265). CLQRY and TOPO write a scalar, and count among them (DEDUCED,
log 6). -/
def stops (w : Word32) : Bool :=
  let m := majorOf w
  let f := fn8Of w
  (m = 0x0C && f = 6) || m = 0x0D || m = 0x0E || (m = 0x2B && w.getLsbD 18 && !w.getLsbD 0) || (m = 0x2D && (decide (2 ≤ f) || w.getLsbD 15))
    || (m = 0x2E && w.toNat % 4 = 0 && w.getLsbD 11) || (m = 0x2F && f = 1) || m = 0x37 || m = 0x38 || m = 0x39
    || (m = 0x3B && (f = 1 || f = 3 || f = 4)) || (m = 0x3E && decide (0x42 ≤ f))

/-- An instruction of an arm of two-slot mode that waits for the first stream: a cross-lane one (R46); and one at which the team may park or branch, or which
writes a scalar, of which nothing could be undone if the first stream trapped (R48, R181; DEDUCED, log 6). -/
def joins (w : Word32) : Bool :=
  crossLane w || (stops w && majorOf w ≠ 0x37 && majorOf w ≠ 0x38 && !(majorOf w = 0x39 && fn8Of w = 0))

/-- A scalar instruction, uniform branch, hardware loop or hint that acts on the scalar side alone and takes no trap, which the front end executes ahead of
the vector queue (R35); it executes a jump to a register, which may trap MISALIGN, with the queue empty (R181; log 6). -/
def runsAhead (t : Thread) (w : Word32) : Bool :=
  let m := majorOf w
  w = 0 || (decide (1 ≤ m) && decide (m ≤ 6)) || m = 8 || m = 9 || (m = 0x0A && decide (3 ≤ fn8Of w)) || (m = 0x0B && decide (t.sc.loops.length < 3)) || m = 0x3F

/-- Nothing waits in the vector queue. -/
def Slots.empty (x : Slots) : Bool := x.first.isEmpty && x.second.isEmpty

/-- Nothing waits in the vector queue, and one PC slot is in use. -/
def Slots.quiet (x : Slots) : Bool := x.empty && x.two.isNone

/-- An IF about to be executed, with the conditions of R44 on its lanes. -/
def openIf (t : Thread) (w : Word32) : OpenIf :=
  let p := w.toNat / 2 ^ 12 % 8
  let on := fun (l : Nat) => t.rdP p l
  { even := t.sl.quiet && t.lanes.all (fun l => t.rdDc l = 0 && on l = on (l / 4 * 4)) && t.lanes.any on && t.lanes.any (fun l => !on l)
    thenLanes := t.lanes.filter on, clean := true, before := t.fl.ops.map (fun o => o.id) }

/-- LOOPH or LOOPHI (R216, R231). -/
def beginsLoop (w : Word32) : Bool := majorOf w = 0x0B && decide (w.toNat / 2 ^ 24 % 4 ≤ 1)

/-- The open IFs after the front end has passed an instruction. -/
def ifsAfter (t : Thread) (w : Word32) : List OpenIf :=
  if isIf w then openIf t w :: t.sl.ifs
  else if isEndif w then t.sl.ifs.drop 1
  else if crossLane w || beginsLoop w then t.sl.ifs.map (fun i => { i with clean := false })
  else t.sl.ifs

/-- The front end executes an instruction itself, or at the head of an empty queue; an IF that traps DEPTH_OVERFLOW opens nothing (R41). -/
def State.pass (s : State) (w : Word32) : State :=
  s.updCur (fun t => if isIf w && t.lanes.any (fun l => t.rdDc l = 255) then t else { t with sl := { t.sl with ifs := ifsAfter t w } })

/-- The streams as a trap or a save at an entry leaves them: what the front end has pushed after it in program order is discarded, and pushed again when
the team resumes; what the second stream has issued is not pushed again (R48, R181). -/
def Slots.stopped (x : Slots) (second : Bool) (e : QEntry) : Slots :=
  if second then
    { x with second := [], ifs := e.ifs, two := x.two.map (fun m => { m with inElse := true, seen := m.done }) }
  else { first := [], second := [], ifs := e.ifs, two := x.two.map (fun m => { m with inElse := false, seen := 0 }) }

/-- The depth counters of a stream. -/
def TwoSlot.dc (m : TwoSlot) (second : Bool) : Sparse 8 := if second then m.dcB else m.dcA

/-- The depth counters of a stream written. -/
def TwoSlot.setDc (m : TwoSlot) (second : Bool) (d : Sparse 8) : TwoSlot := if second then { m with dcB := d } else { m with dcA := d }

/-- The depth counters of the team, each lane's those of its stream. -/
def Thread.mergeDc (t : Thread) (mine : BitVec 8 → BitVec 8) : Thread :=
  match t.sl.two with
  | none => t
  | some m => t.wrDcs (fun l => if m.thenLanes.contains l then mine (spGet m.dcA l) else spGet m.dcB l) t.lanes

/-- The front end goes back to the oldest entry of the queue: what it has executed ahead is discarded (R181). -/
def Thread.flush (t0 : Thread) : Thread :=
  let t := t0.mergeDc (fun d => d)
  match t.sl.first with
  | e :: _ => { t with sc := { e.sc with pc1 := t.sc.pc1 }, sl := t.sl.stopped false e }
  | [] => match t.sl.second with
    | [] => t
    | e :: _ => { t with sc := { e.sc with pc1 := t.sc.pc1 }, sl := t.sl.stopped true e }

/-- Another agent becomes the running one; the old one takes its place among the others, unless it has ended. -/
def switchTo (s : State) (u : Nat) : State :=
  match s.others.find? (fun t => t.id.uid = u) with
  | none => s
  | some t =>
    { s with
      cur := t
      others := if s.cur.sch.life = .ended then s.others.filter (fun x => x.id.uid ≠ u)
        else s.others.map (fun x => if x.id.uid = u then s.cur else x) }

/-- A step made current: the event that its instruction reads its operands from. -/
def State.withEv (s : State) (e : Event) : State := { s with ev := e }

/-- An L1 line dropped early, its dirty bytes written back (R98). -/
def evictLine (s : State) (isl core line : Nat) : State := dropLine s isl core line

/-- The code address at which `withFetchWord` places a word. -/
def probeCode : Nat := 0x20000

/-- A context on island 0 whose tables map the low GiB to itself, writable and executable. -/
def probeCtx : CtxIsl :=
  { isl := 0, ctx := 1, fn := 0, slot := 0, root := 0x10000, tba := 0, ctba := 0, centry := 0, frbase := 0x40000, frlog2 := 4,
    tlbase := 0x50000, qbase := 0x60000, qsize := 1, ttbase := 0x80000, splbase := 0xC0000, splsz := 0, savbase := 0xD0000,
    savsz := 0, prot := false, islmask := 1, suspended := false, dead := false, report := [] }

/-- The page tables of that context: three table entries and one leaf of 1 GiB (R87, R88). -/
def probeTables : List (Nat × Byte) :=
  cellsFrom 0x10000 (leBytes 8 0x11001) ++ cellsFrom 0x11000 (leBytes 8 0x12001) ++ cellsFrom 0x12000 (leBytes 8 0x13001)
    ++ cellsFrom 0x13000 (leBytes 8 0x0F)

/-- An agent of the given kind in that context, with its pc at the word. -/
def probeAgent (k : AgentKind) : Thread :=
  { Thread.hubReset 0 with
    id := { (Thread.hubReset 0).id with uid := 8, kind := k, ctx := if k = .hub then 0 else 1 }
    sc := Scalar.zero (BitVec.ofNat 64 probeCode) }

/-- The agent that executes a word: the Carter for major 0x3A, a hub core for HALT, else a team (R218, R330). -/
def probeKind (w : Nat) : AgentKind :=
  if w / 2 ^ 26 % 64 = 0x3A then .carter else if w / 2 ^ 18 % 2 ^ 14 = 8 then .hub else .team

end Sys2Proof.Machine
end

