-- ==== Sys2Proof/Machine/Sched.lean ====
section
/-!
DEFINITION. The steps between an instruction's issue and its completion (R82, R127, R275), and those of the islands' schedulers: pushes,
placement, admission, leases, wakes, swap-out, completion of tasks, and the Hearth (R24, R29, R33, R54, R57-R76, R130, R401).
-/
namespace Sys2Proof.Machine

/-! ### Accesses and writes -/

/-- The hub core of an access owes the wake that a store to a control word makes, which takes effect before the access completes (R381). -/
def wakeOwed (s : State) (u : Nat) : Bool :=
  s.threads.any (fun t => t.id.kind = .hub && t.fl.ops.any (fun o => o.id = u) && (List.range 4).any (fun h => s.due.contains (.hubWake t.id.core h)))

/-- ACCESS_COMPLETE: a load or store that was issued completes, and its count falls; one that is performed late is performed first (R275, R425). -/
def execAccessComplete (s : State) : Result :=
  goOn (match s.ev with
    | .accessComplete u =>
      let done := fun (s1 : State) => yardClear s1 (s.threads.filter (fun t => t.holds u))
      (match s.ord.late.find? (fun a => a.op = u) with
      | some a => done (performLate s a)
      | none =>
        if s.threads.any (fun t => t.fl.ops.any (fun o => o.id = u && (o.cls = .ld || o.cls = .st))) && !s.atoms.any (fun a => a.op = u)
        then (if wakeOwed s u then waitStep s s.ev else done (opPart s u)) else s)
    | _ => s)

/-- The old and the new number of an atomic at its word. -/
def atomValues (s : State) (a : AtomReq) : Nat × Nat :=
  let old := s.physNat (a.key / 2 ^ 48) (a.key % 2 ^ 48) (if a.wide then 8 else 4)
  (old, if a.wide then (atomicNew a.aop (BitVec.ofNat 64 old) a.val a.cmp).toNat
    else (atomicNew a.aop (BitVec.ofNat 32 old) (a.val.truncate 32) (a.cmp.truncate 32)).toNat)

/-- An atomic is performed at the unit of the die that owns its word. A copy of its line that the issuing core has filled meanwhile is written back and
dropped first, so that the agent reads nothing older afterwards (R82, R98). The old value returns, and the acquire half follows the operations of
all lanes (R277-R280). -/
def performAtom (s : State) (a : AtomReq) : State :=
  let s0 := { dropLine s (a.key / 2 ^ 48) a.core (a.key % 2 ^ 48 / 128) with atoms := s.atoms.filter (fun b => !(b.op = a.op && b.lane = a.lane)) }
  let x := atomValues s0 a
  let s1 := l2Put (l2Used s0 (a.key / 2 ^ 48) a.ctx (if a.wide then 16 else 8)) (a.key / 2 ^ 48) (cellsFrom (a.key % 2 ^ 48) (leBytes (if a.wide then 8 else 4) x.2))
  let s2 := yardClear (if a.acq && !s1.atoms.any (fun b => b.op = a.op) then acquireRegs s1 a.isl a.core a.ctx a.scope a.regs else s1)
    (s1.threads.filter (fun t => t.holds a.op))
  if a.wide then opDeliver s2 a.op [] [a.dst] (fun t => t.wrS a.dst (BitVec.ofNat 64 x.1))
  else opDeliver s2 a.op [a.dst] [] (fun t => t.wrPhys a.dst a.lane (BitVec.ofNat 32 x.1))

/-- ATOMIC_PERFORM: the pending lane of an atomic is performed. -/
def execAtomicPerform (s : State) : Result :=
  goOn (match s.ev with
    | .atomicPerform u l =>
      (match s.atoms.find? (fun a => a.op = u && a.lane = l) with
      | none => s
      | some a => performAtom s a)
    | _ => s)

/-- WRITE_ARRIVAL: bytes from another unit complete at a memory-side die, as space 0, or at a store's controller (R127). The walk that placed a write of
a context at a virtual address sets A and D (R91), and its bytes move at the L2 (R402). -/
def execWriteArrival (s : State) : Result :=
  goOn (match s.ev with
    | .writeArrival sp isl core addr bs ctx va =>
      if sp = 0 then l2Put (l2Used (markAD s isl ctx va true) isl ctx bs.length) isl (cellsFrom addr bs) else storePut s isl core sp (cellsFrom addr bs)
    | _ => s)

/-- COUNTER_CARTER_MESSAGE: the oldest waiting message of a core's counters joins its Carter's inbox, once that has room (R130). -/
def execCounterCarterMessage (s : State) : Result :=
  goOn (match s.ev with
    | .counterCarterMessage isl core =>
      let mine := fun (w : WaitMsg) => w.isl = isl && w.core = core
      let c := s.carter isl core
      (match s.waitMsgs.find? mine with
      | none => s
      | some w =>
        if 64 ≤ c.inbox.length then s
        else inboxRoom (({ s with waitMsgs := dropNth mine 0 s.waitMsgs }).setCarter { c with inbox := c.inbox ++ [w.msg] }) isl core)
    | _ => s)

/-! ### Pushes (R33, R57, R58) -/

/-- A launch whose records have all been pushed holds its queue no more (R368, R374). -/
def passLaunch (s : State) (u : Nat) : State :=
  if s.pushes.any (fun p => p.source = 0 && p.launch = u) then s
  else match s.queues.find? (fun x => x.hold = some u) with
    | none => s
    | some x => (s.setQueue (x.letGo u)).oweOnce (.cmdNop x.fn x.q)

/-- ISLAND_TASK_PUSH: a push offered to its island; the next push of the same source follows. -/
def execIslandTaskPush (s : State) : Result :=
  goOn (match s.ev with
    | .islandTaskPush u =>
      (match s.push? u with
      | none => s
      | some p =>
        let s1 := offerPush s p
        if s1.pushes.any (fun q => q.uid = u) then s1
        else
          let s2 := if p.source = 0 then passLaunch s1 p.launch else s1
          owePushes s2 (fun q => q.isl = p.isl && q.ctx = p.ctx && q.source = p.source && q.sub = p.sub))
    | _ => s)

/-- SUCCESSOR_PUSH: the successor of a coach whose streams ended in both ways is pushed (R29). -/
def execSuccessorPush (s : State) : Result :=
  goOn (match s.ev with
    | .successorPush u =>
      (match s.push? u with
      | none => s
      | some p =>
        let s1 := offerPush s p
        if s1.pushes.any (fun q => q.uid = u) then s1
        else owePushes s1 (fun q => q.isl = p.isl && q.ctx = p.ctx && q.source = 3))
    | _ => s)

/-- The push of the entry at the head of a core's pending-launch queue. -/
def entryPush (u : Nat) (e : LaunchEnt) : Push :=
  { uid := u, isl := e.isl, ctx := e.ctx, addr := e.addr, source := 1, sub := e.core, launch := e.team.launch, recIdx := none, team := some e
    paused := false }

/-- PENDING_LAUNCH_FORWARD: the oldest entry of a core's queue is offered to the island, stays while it is not accepted, and wakes the teams
that wait for room (R33, R34, R58). -/
def execPendingLaunchForward (s : State) : Result :=
  goOn (match s.ev with
    | .pendingLaunchForward isl core =>
      (match launchEnts s isl core with
      | [] => s
      | e :: r =>
        let waiting := s.pushes.find? (fun p => p.isl = isl && p.source = 1 && p.sub = core)
        let q := match waiting with
          | some p => (p, s)
          | none =>
            let x := s.take
            (entryPush x.1 e, { x.2 with pushes := x.2.pushes ++ [entryPush x.1 e] })
        let s1 := offerPush q.2 q.1
        if s1.pushes.any (fun p => p.uid = q.1.uid) then s1
        else
          let mine := fun (x : LaunchEnt) => x.isl = isl && x.core = core
          let s2 := if (launchEnts s1 isl core).length = r.length + 1 then { s1 with launchQ := dropNth mine 0 s1.launchQ } else s1
          let s3 := oweWakes s2 (launchWaiters s2 isl core)
          if (launchEnts s3 isl core).isEmpty then s3 else s3.oweOnce (.pendingLaunchForward isl core))
    | _ => s)

/-! ### Swapped-out coaches (R74, R389-R391) -/

/-- The save image of a coach. -/
def State.image? (s : State) (c : Nat) : Option Image := s.images.find? (fun i => i.coach = c && c ≠ 0)

/-- Ranges apart from one another. -/
def apart (a b : Nat × Nat) : Bool := a.2 = 0 || b.2 = 0 || decide (a.1 + a.2 ≤ b.1) || decide (b.1 + b.2 ≤ a.1)

/-- The room that a coach held is free beside the given coaches (R74). -/
def roomFree (s : State) (c : Coach) (cs : List Coach) : Bool :=
  (usedSlots s [c]).all (fun x => !(usedSlots s cs).contains x)
    && (List.range 16).all (fun h => decide (hitchUse s [c] h = 0) || decide (hitchUse s cs h + hitchUse s [c] h ≤ 2048))
    && cs.all (fun d => apart c.sp d.sp && apart c.ab d.ab && apart c.wb d.wb && apart c.cb d.cb)

/-- No reply is outstanding for the coach's image (R390). -/
def noReply (s : State) (c : Coach) : Bool := (coachTeams s c).all (fun t => t.fl.rm = 0)

/-- A swapped-out coach that may be rotated in: one of its teams does not wait (R75). -/
def mayRotate (s : State) (c : Coach) : Bool :=
  c.swapped && noReply s c && (coachTeams s c).any (fun t => t.sch.park = .none)
    && ((s.ctx? c.isl c.ctx).map (fun x => !x.suspended)).getD false && ((s.image? c.uid).map (fun i => decide (i.kind = 1))).getD false

/-- One of its wait conditions has held while it was out, or it is rotated in (R74, R75). -/
def mayReturn (s : State) (c : Coach) : Bool :=
  mayRotate s c && (c.rotIn || (coachTeams s c).any (fun t => t.sch.woken && t.sch.park = .none))

/-- Counters that their owner's restore writes back (R129). -/
def putCounters (s : State) (cs : List Counter) : State := cs.foldl State.setCounter s

/-- A restored agent: it waits on, or waits for admission; the period of a FUSE runs again, heat is requested again, and a LAUNCH is repeated (R54,
R298, R341). A wake that is still owed stays owed. The time for which it has not been active runs on (R68, R76; DEDUCED, log 40). -/
def Thread.restored (now : Nat) (t : Thread) : Thread :=
  let p := match t.sch.park with
    | .fuse w sd left _ => Park.fuse w sd left now
    | .none => .none
    | .word va k v m a sc => .word va k v m a sc
    | .timeline n k v a m sc => .timeline n k v a m sc
    | .counter g i a sc => .counter g i a sc
    | .launch => .none
    | .group e q a sc => .group e q a sc
    | .arrive e q => .arrive e q
    | .yard => .yard
    | .page va => .page va
  { t with sch := { t.sch with life := if p = .none then .inactive else .parked, park := p, woken := t.sch.woken && p ≠ .none } }

/-- The requests for heat that restored agents make before they issue (R298). -/
def askHeat (s : State) (ts : List Thread) : State :=
  ts.foldl (fun s t => if t.an.heatOwed = 0 then s
    else heatRequest s t.id.isl { kind := 3, who := t.id.uid, units := t.an.heatOwed, prio := agentPrio s t }) s

/-- The swapped-out coaches that a column holds together with one (R160). -/
def columnMates (s : State) (c : Coach) : List Coach :=
  let mine := ((s.image? c.uid).map (fun i => i.chains.filter (fun x => x.group.isSome))).getD []
  s.coaches.filter (fun d => d.swapped && d.uid ≠ c.uid && ((s.image? d.uid).map (fun i =>
    i.chains.any (fun x => x.group.isSome && mine.any (fun y => y.lead = x.lead)))).getD false)

/-- A swapped-out coach can be put back now: its room is free and no reply is outstanding, and likewise for the rest of its column (R74, R160,
R390). -/
def canReturn (s : State) (c : Coach) : Bool :=
  (c :: columnMates s c).all (fun d => noReply s d && roomFree s d (coachesOn s d.isl d.core))

/-- A coach restored from its image, as the save area held it in a state before: stores, counters, yard, teams, then its streams again (R391). Its yard
entries return even where the yard then holds more than 64 (DESIGN CHOICE, log 40). -/
def restoreCoach (old s : State) (c : Coach) : State :=
  match s.image? c.uid, imageOf old c with
  | none, _ => s
  | some _, none => s
  | some i, some file =>
    let bs := readImage old file
    let s1 := zeroCoach (storeUsed (l2Used s c.isl c.ctx bs.length) c.isl c.ctx c.storeBytes) c
    let s2 := { s1 with stores := setCells s1.stores (coachCells file bs c) }
    let s3 := if i.marks = [] then s2 else s2.updIsland c.isl (fun x => { x with marks := i.marks ++ x.marks })
    let s4 := putCounters s3 i.counters
    let ts := coachTeams s4 c
    let back := fun (t : Thread) => if t.live && t.id.coach = c.uid then (t.fromImage bs file).restored s.cycle else t
    let s5 := ({ s4 with
      yard := s4.yard ++ i.chains, streams := s4.streams ++ i.streams, images := s4.images.filter (fun x => x.coach ≠ c.uid) }).mapT back
    let s6 := s5.setCoach { c with swapped := false, residentAt := s.cycle, rotIn := false, rotOut := false }
    let s7 := (s6.waybills.filter (fun w => c.isFor w || w.feeds c)).foldl (fun s w =>
      if (parseWb w.raw).isStream then s.oweOnce (.streamBlockPush w.uid)
      else match nextElem w (parseWb w.raw) with
        | none => s
        | some k => s.oweOnce (.waybillElementLand w.uid k)) (i.streams.foldl (fun s x => s.oweOnce (.streamBlockPush x.wb)) s6)
    let s8 := (i.chains.filter (fun x => x.st = .wantsHeat)).foldl chainReady (askHeat s7 ts)
    ((yardLook s8 c.isl c.core).oweOnce (.chainDispatch c.isl c.core)).oweOnce (.teamAdmission c.isl c.core)

/-- The places in the save area of the images of some coaches. -/
def imagePlaces (s : State) (cs : List Coach) : List (Nat × Nat) := (cs.filterMap (imageOf s)).map (fun i => (i.spot, i.kib))

/-- The walks of the reads of some images set A (R91). -/
def readImages (s : State) (is : List Image) : State := is.foldl (fun s i => markImage s i false) s

/-- A coach restored with the rest of its column (R160). A save area that stops translating ends the context (R385). -/
def restoreAll (s : State) (c : Coach) : State :=
  let cs := c :: columnMates s c
  if areaMapped s c.isl c.ctx (imagePlaces s cs) then
    let s1 := readImages s (cs.filterMap (imageOf s))
    cs.foldl (restoreCoach s1) s1
  else regionLost s c.isl c.ctx

/-! ### Placement (R59-R61) -/

/-- A record has coaches that are not placed. -/
def Task.waits (k : Task) : Bool := decide (k.placed * k.record.coachSz < k.record.nteams)

/-- A task goes before another in the order of R60. -/
def Task.before (k j : Task) : Bool := decide (k.record.prio < j.record.prio) || (k.record.prio = j.record.prio && decide (k.stamp < j.stamp))

/-- A task put in its place in that order. -/
def insertTask (k : Task) : List Task → List Task
  | [] => [k]
  | j :: r => if k.before j then k :: j :: r else j :: insertTask k r

/-- The queued records of an island whose context dispatches there, in the order of R60. -/
def queuedTasks (s : State) (isl : Nat) : List Task :=
  (s.tasks.filter (fun k => k.isl = isl && k.waits && ((s.ctx? isl k.ctx).map (fun c => !c.suspended && !c.dead)).getD false)).foldr insertTask []

/-- The cores of an island that a context holds (R405). -/
def heldCores (s : State) (isl ctx : Nat) : List Nat :=
  (s.cores.filter (fun c => c.isl = isl && c.ctx = ctx && c.v)).foldl (fun l c => insertNat c.core l) []

/-- Those of them on which the dispatcher may place: none that awaits scrub, none whose engine is withdrawn (R59, R159, R405). -/
def openCores (s : State) (isl ctx : Nat) : List Nat :=
  (heldCores s isl ctx).filter (fun c => coreOffered s isl c && !s.cores.any (fun d => d.isl = isl && d.core = c && d.q))

/-- The coach of a record at a spot of a core. -/
def spotCoach (k : Task) (core : Nat) (p : Spot) (uid now : Nat) : Coach :=
  { uid := uid, task := k.uid, isl := k.isl, ctx := k.ctx, core := core, idx := k.placed, hitch := p.hitch, slots := p.slots, sp := p.sp
    ab := p.ab, wb := p.wb, cb := p.cb, swapped := false, placedAt := now, residentAt := now, exits := 0, succ := [], prio := k.record.prio
    former := [], rotOut := false, rotIn := false }

/-- A ready swapped-out coach of the same or a higher priority needs the room of a new one (R74). -/
def restoreFirst (s : State) (n : Coach) : Bool :=
  s.coaches.any (fun c => c.isl = n.isl && c.core = n.core && decide (c.prio ≤ n.prio) && mayReturn s c
    && roomFree s c (coachesOn s n.isl n.core) && !roomFree s c (n :: coachesOn s n.isl n.core))

/-- Where a record's next coach may go on a core. -/
def spotOn (s : State) (k : Task) (core : Nat) : Option Spot :=
  (roomFor s (coachesOn s k.isl core) k.record).filter (fun p => !restoreFirst s (spotCoach k core p 0 0))

/-- Team slots in use on a core, and on its die. -/
def slotLoad (s : State) (isl core : Nat) : Nat × Nat :=
  ((usedSlots s (coachesOn s isl core)).length,
   (usedSlots s (s.coaches.filter (fun c => c.isl = isl && dieOf c.core = dieOf core && !c.swapped))).length)

/-- The core on which a record's next coach goes: the fewest team contexts in use, then of its die, then the lower number (R60). -/
def bestCore (s : State) (k : Task) : Option (Nat × Spot) :=
  (openCores s k.isl k.ctx).foldl (fun o core => match spotOn s k core with
    | none => o
    | some p => (match o with
      | none => some (core, p)
      | some b =>
        let x := slotLoad s k.isl core
        let y := slotLoad s k.isl b.1
        if x.1 < y.1 ∨ (x.1 = y.1 ∧ x.2 < y.2) then some (core, p) else some b)) none

/-- A task's queue (R57). -/
def Task.queue (k : Task) : Nat × Nat × Nat := (k.ctx, k.record.prio, k.record.qnum)

/-- The record placed next with its place, and the records skipped before it (R60, R61). -/
def nextPlace (s : State) (blocked : List (Nat × Nat × Nat)) : List Task → Option (Task × Nat × Spot) × List Task
  | [] => (none, [])
  | k :: r =>
    if blocked.contains k.queue then nextPlace s blocked r
    else match bestCore s k with
      | some b => (some (k, b), [])
      | none =>
        let q := nextPlace s (if 64 ≤ k.skips then k.queue :: blocked else blocked) r
        (q.1, k :: q.2)

/-- A record's coach would fit a coach's core without that coach (R74). -/
def fitsWithout (s : State) (k : Task) (c : Coach) : Bool :=
  k.isl = c.isl && k.ctx = c.ctx && (roomFor s ((coachesOn s c.isl c.core).filter (fun d => d.uid ≠ c.uid)) k.record).isSome

/-- A coach is eligible for swap-out, or is rotated out (R74, R75). -/
def mayLeave (s : State) (c : Coach) : Bool :=
  !c.swapped && (c.rotOut || longParked s c
    || (queuedTasks s c.isl).any (fun k => decide (k.record.prio < c.prio) && fitsWithout s k c && (bestCore s k).isNone))

/-- An eligible coach is asked to leave for a record that fits no core; of several, the first listed (DESIGN CHOICE, log 40). -/
def askLeave (s : State) (k : Task) : State :=
  match s.coaches.find? (fun c => !c.swapped && (longParked s c || decide (k.record.prio < c.prio)) && fitsWithout s k c) with
  | none => s
  | some c => s.oweOnce (.swapOut c.uid)

/-- COACH_PLACEMENT: an island's dispatcher places the next coach (R60, R61, R22), and asks coaches to leave for the records that it skips (R74). Before
that the oldest records of its regions come to the island (R58). -/
def execCoachPlacement (s : State) : Result :=
  goOn (match s.ev with
    | .coachPlacement isl =>
      let s := (dueRecords s isl).foldl fetchRecord s
      let back := (s.coaches.filter (fun c => c.isl = isl && mayReturn s c && roomFree s c (coachesOn s isl c.core))).foldl
        (fun s c => s.oweOnce (.coachRestore c.uid)) s
      let q := nextPlace back [] (queuedTasks back isl)
      let asked := q.2.foldl askLeave back
      (match q.1 with
      | none => asked
      | some (k, core, p) =>
        let x := asked.take
        let c := spotCoach k core p x.1 s.cycle
        let s1 := q.2.foldl (fun s (j : Task) => s.setTask { j with skips := j.skips + 1 }) x.2
        let k1 : Task := { k with placed := k.placed + 1, skips := 0 }
        let s2 := startCoach (zeroCoach (storeUsed (s1.setTask k1) c.isl c.ctx c.storeBytes) c) k1 c
        (owePushes s2 (fun p => p.isl = isl)).oweOnce (.coachPlacement isl))
    | _ => s)

/-! ### The active set (R63-R69) -/

/-- A team comes before another in the order of admission (R64). -/
def Thread.admitBefore (t u : Thread) : Bool :=
  let k := fun (x : Thread) => [x.sch.placedAt, x.id.coach, x.id.team, x.id.launchPos]
  decide (k t < k u)

/-- The inactive team of a core that is considered next, among those not passed over. -/
def nextInactive (s : State) (isl core : Nat) (passed : List Nat) : Option Thread :=
  (s.threads.filter (fun t => t.live && t.id.isl = isl && t.id.core = core && t.sch.life = .inactive && !passed.contains t.id.uid)).foldl
    (fun o t => match o with
      | none => some t
      | some u => if t.admitBefore u then some t else some u) none

/-- A team active, with its place in the order of activations. -/
def activate (s : State) (u : Nat) : State :=
  let q := s.take
  q.2.updT u (fun t => { t with sch := { t.sch with life := .active, activatedAt := q.1 } })

/-- The two conditions of R64 for a team. -/
def admits64 (s : State) (t : Thread) : Bool :=
  let ts := activeTeams s t.id.isl t.id.core
  decide (ts.length < 32) && decide (effSum ts + t.sch.effLease ≤ 224)

/-- Inactive teams admitted, the oldest first; one that does not fit is passed over. -/
def admitTeams (isl core : Nat) : Nat → List Nat → State → State
  | 0, _, s => s
  | n + 1, passed, s =>
    match nextInactive s isl core passed with
    | none => s
    | some t => if admits64 s t then admitTeams isl core n passed (activate s t.id.uid) else admitTeams isl core n (t.id.uid :: passed) s

/-- TEAM_ADMISSION. A core has at most 64 teams. -/
def execTeamAdmission (s : State) : Result :=
  goOn (match s.ev with
    | .teamAdmission isl core => admitTeams isl core 64 [] s
    | _ => s)

/-- The lease of a team at the end of its window (R65, R66). -/
def windowLease (t : Thread) : Nat × Nat :=
  let c := t.sch
  let d := if c.measured then min 224 (ceilDiv c.winLines.length 8) else c.lease
  let e := if c.effLease = c.lease then d else c.effLease
  (d, if c.winMisses < c.winLost * 16 then min 224 (e + ceilDiv (c.winLost * 128) 1024) else if c.winLost = 0 then d else e)

/-- LEASE_WINDOW_END: a team's window of 4,096 instructions ends. -/
def execLeaseWindowEnd (s : State) : Result :=
  goOn (match s.ev with
    | .leaseWindowEnd u =>
      (match s.thread? u with
      | none => s
      | some t =>
        if !t.live || decide (t.sch.winCount < 4096) then s
        else
          let l := windowLease t
          let s1 := s.updT u (fun x => { x with sch := { x.sch with
            lease := l.1, effLease := l.2, lastLines := x.sch.winLines.length, lastLost := x.sch.winLost
            winCount := 0, winLines := [], winMisses := 0, winLost := 0 } })
          let s2 := if t.sch.life = .active then fitLeases u t.id.isl t.id.core 64 s1 else s1
          s2.oweOnce (.teamAdmission t.id.isl t.id.core))
    | _ => s)

/-- Active teams deactivated, the youngest activation first, until a forced team fits (R68). A team without a lease goes only where the 32
places are taken. -/
def makePlace (t : Thread) : Nat → State → State
  | 0, s => s
  | n + 1, s =>
    if admits64 s t then s
    else
      let ts := activeTeams s t.id.isl t.id.core
      let some_ := if effSum ts + t.sch.effLease ≤ 224 then ts.map (fun u => { u with sch := { u.sch with effLease := 1 } }) else ts
      match youngest some_ with
      | none => s
      | some u => makePlace t n (s.updT u.id.uid (fun x => { x with sch := { x.sch with life := .inactive, inactiveAt := s.cycle } }))

/-- TEAM_FORCED: a team that has stayed inactive for 8 quanta is admitted. -/
def execTeamForced (s : State) : Result :=
  goOn (match s.ev with
    | .teamForced u =>
      (match s.thread? u with
      | none => s
      | some t =>
        if t.live && t.sch.life = .inactive && decide (t.sch.inactiveAt + 16 * msCycles ≤ s.cycle) then
          let s1 := activate (makePlace t 64 s) u
          s1.oweOnce (.teamAdmission t.id.isl t.id.core)
        else s)
    | _ => s)

/-! ### Wakes (R54, R73, R291) -/

/-- The line of the word that a wait has read goes, if its core has filled it meanwhile: the agent reads nothing older than it has read (R98). -/
def dropKey (s : State) (t : Thread) (key : Nat) : State :=
  (dropLine s t.mIsl t.id.core (key % 2 ^ 48 / 128)).forget (fun e => e.agent = t.id.uid && e.space = 0)

/-- The acquire of a wait whose condition has held (R103, R107, R108, R268): with its own regions, those of a counter or barrier that woke it. -/
def wakeAcquire (s : State) (t : Thread) : State :=
  match t.sch.park with
  | .word va key _ _ acq sc => if acq then acquireWord (dropKey s t key) t va sc else dropKey s t key
  | .timeline n key _ _ acq sc => if acq then acquireTimeline (dropKey s t key) t n key sc else dropKey s t key
  | .counter _ _ acq _ => if acq || t.sch.wakeSync then acquireFired s t t.sch.wakeRegs else s
  | .group _ _ acq sc =>
    let s1 := if t.sch.wakeSync then acquireFired s t t.sch.wakeRegs else s
    if acq then acquireAll s1 t.mIsl t.id.core t.id.ctx sc else s1
  | .none => s
  | .launch => s
  | .fuse _ _ _ _ => s
  | .arrive _ _ => s
  | .yard => s
  | .page _ => s

/-- A woken agent acquires something before it continues, which waits for its earlier accesses (R103). -/
def wakeSyncs (t : Thread) : Bool :=
  t.sch.wakeSync || (match t.sch.park with
  | .word _ _ _ _ acq _ => acq
  | .timeline _ _ _ _ acq _ => acq
  | .counter _ _ acq _ => acq
  | .group _ _ acq _ => acq
  | .none => false
  | .launch => false
  | .fuse _ _ _ _ => false
  | .arrive _ _ => false
  | .yard => false
  | .page _ => false)

/-- A woken agent: a FUSE without a buddy has its code; a Carter goes past its wait; else the agent goes on at its continuation. -/
def Thread.awake (t : Thread) (now : Nat) : Thread :=
  let quiet := { t with sch := { t.sch with park := .none, inactiveAt := now, wakeRegs := [], wakeSync := false } }
  match t.id.kind with
  | .carter =>
    let r := { quiet with sch := { quiet.sch with life := if t.sch.life = .swapped then .swapped else .active, woken := false } }
    (match t.sch.park with
    | .word _ _ _ _ _ _ => r.fall.dropHints
    | .timeline _ _ _ _ _ _ => r.fall.dropHints
    | .counter _ _ _ _ => r.fall.dropHints
    | .none => r
    | .launch => r
    | .fuse _ _ _ _ => r
    | .group _ _ _ _ => r
    | .arrive _ _ => r
    | .yard => r
    | .page _ => r)
  | .team =>
    let up := if t.sch.life = .swapped then quiet else { quiet with sch := { quiet.sch with life := .inactive, woken := false } }
    (match t.sch.park with
    | .fuse _ sd _ _ => fuseResult t sd 2 now true
    | .none => quiet
    | .word _ _ _ _ _ _ => up
    | .timeline _ _ _ _ _ _ => up
    | .counter _ _ _ _ => up
    | .launch => up
    | .group _ _ _ _ => up
    | .arrive _ _ => up
    | .yard => up
    | .page _ => up)
  | .hub => { quiet with sch := { quiet.sch with life := .active, woken := false } }

/-- A FUSE keeps waiting: its buddy's half still holds a live team (R54). -/
def fuseWaits (s : State) (t : Thread) : Bool :=
  match t.sch.park with
  | .fuse _ _ _ _ => halfLive s t.id.coach (buddyHitch t) (t.id.width / 4)
  | .none => false
  | .word _ _ _ _ _ _ => false
  | .timeline _ _ _ _ _ _ => false
  | .counter _ _ _ _ => false
  | .launch => false
  | .group _ _ _ _ => false
  | .arrive _ _ => false
  | .yard => false
  | .page _ => false

/-- A FUSE waits. -/
def Park.isFuse : Park → Bool
  | .fuse _ _ _ _ => true
  | .none => false
  | .word _ _ _ _ _ _ => false
  | .timeline _ _ _ _ _ _ => false
  | .counter _ _ _ _ => false
  | .launch => false
  | .group _ _ _ _ => false
  | .arrive _ _ => false
  | .yard => false
  | .page _ => false

/-- TEAM_WAKE: a parked agent whose condition has held is woken. -/
def execTeamWake (s : State) : Result :=
  goOn (match s.ev with
    | .teamWake u =>
      (match s.thread? u with
      | none => s
      | some t =>
        if t.sch.woken && t.sch.park ≠ .none && (t.sch.life = .parked || t.sch.life = .swapped) && !fuseWaits s t then
          if wakeSyncs t && !t.accessesDone then waitStep s s.ev
          else
            let s1 := (wakeAcquire s t).updT u (fun x => x.awake s.cycle)
            if t.id.kind ≠ .team then s1
            else if t.sch.park.isFuse then (fuseCounted s1 u).oweOnce (if t.sch.life = .swapped then .coachRestore t.id.coach else .teamAdmission t.id.isl t.id.core)
            else if t.sch.life = .swapped then s1.oweOnce (.coachRestore t.id.coach)
            else s1.oweOnce (.teamAdmission t.id.isl t.id.core)
        else s)
    | _ => s)

/-- A FUSE whose period has passed ends with code 1 (R54). -/
def fuseEnd (s : State) (t : Thread) : State :=
  match t.sch.park with
  | .fuse _ sd _ _ =>
    if t.fuseOver s.cycle then
      (fuseCounted (s.updT t.id.uid (fun x => fuseResult x sd 1 s.cycle true)) t.id.uid).oweOnce (.teamAdmission t.id.isl t.id.core)
    else s
  | .none => s
  | .word _ _ _ _ _ _ => s
  | .timeline _ _ _ _ _ _ => s
  | .counter _ _ _ _ => s
  | .launch => s
  | .group _ _ _ _ => s
  | .arrive _ _ => s
  | .yard => s
  | .page _ => s

/-- FUSE_TIMEOUT: the period of a FUSE has passed (R54). -/
def execFuseTimeout (s : State) : Result :=
  goOn (match s.ev with
    | .fuseTimeout u =>
      (match s.thread? u with
      | none => s
      | some t => fuseEnd s t)
    | _ => s)

/-! ### Swap-out (R74, R115, R160, R192, R389) -/

/-- Copies, fills and multicasts that a save of a coach lets drain: those of the coach, and multicasts that may write its stores (R115). -/
def mustDrain (s : State) (c : Coach) : Bool :=
  s.waybills.any (fun w =>
    let f := parseWb w.raw
    w.isl = c.isl && w.ctx = c.ctx && !f.isStream && w.moves &&
      (c.isFor w || (f.kind = 4 && (mcastTargets s w f).any (fun x => (x.2.map c.answers).getD false))))

/-- One above the highest block that a chain has applied to some slot. -/
def Chain.reached (c : Chain) : Nat :=
  (List.range (c.m * c.n)).foldl (fun h e => (slotBlocks (Config.freeOrder c.uid e) c.applied).foldl (fun h b => max h (b + 1)) h) 0

/-- A running chain applies every block below the highest that it has applied, and stops (R160). -/
def finishChain (s : State) (u : Nat) : Nat → State
  | 0 => s
  | n + 1 =>
    match s.chain? u with
    | none => s
    | some c =>
      if c.st = .running ∧ c.applied.length < c.reached then
        match chainAB s c with
        | none => s
        | some (x, y) => finishChain (applyStep s c x.blocks y.blocks c.reached) u n
      else s

/-- A stream to be pushed again from its header, then from a chain's first block not applied, to the chain that has taken it (R115, R160). -/
def Stream.again (x : Stream) (q : Nat) : Stream := { x with blocks := [], next := q }

/-- A yard entry as a save keeps it: one that was ready stays ready, and wants its heat again (R160). -/
def Chain.again (c : Chain) : Chain := if c.st = .open_ ∨ c.st = .waiting then c else { c with st := .wantsHeat }

/-- The heat or the request of a yard entry given back. -/
def chainCool (s : State) (c : Chain) : State :=
  match c.st with
  | .hasHeat => heatReturn s c.isl 1
  | .running => heatReturn s c.isl 1
  | .wantsHeat => heatCancel s c.isl 0 c.uid
  | .open_ => s
  | .waiting => s

/-- The running chains that stop together with those of a coach: the rounds of its columns (R160). -/
def stopRounds (s : State) (c : Coach) : List Chain :=
  let mine := s.yard.filter (fun x => x.coach = c.uid && x.st = .running)
  s.yard.filter (fun x => x.st = .running && mine.any (fun y => y.uid = x.uid || (y.group.isSome && y.lead = x.lead)))

/-- The running rounds of a coach stop: their entries want heat again, and their streams stand at their headers, to go on from the first block
that some chain of the round has not applied (R160). -/
def stopChains (s : State) (c : Coach) : State :=
  let s1 := (stopRounds s c).foldl (fun s x => finishChain s x.uid (x.k / 32)) s
  let rs := stopRounds s1 c
  let s2 := rs.foldl chainCool s1
  let q := fun (x : Stream) => (rs.filter (fun r => x.chain = some (if x.isA then r.uid else r.lead))).foldl (fun o r =>
    some (match o with
      | none => r.applied.length
      | some n => min n r.applied.length)) none
  let s3 := { s2 with
    yard := s2.yard.map (fun x => if rs.any (fun r => r.uid = x.uid) then x.again else x)
    streams := s2.streams.map (fun x => match q x with
      | none => x
      | some n => x.again n) }
  let s4 := (rs.filter (fun r => r.coach ≠ c.uid)).foldl chainReady s3
  ((rs.map (fun r => (r.isl, r.core))).eraseDups).foldl (fun s p => s.oweOnce (.chainDispatch p.1 p.2)) s4

/-- The streams that a coach's image takes: those that its stopped chains had taken, the B stream of a column with the first of its entries; and those of its
waybills that no chain has taken. -/
def coachStreams (s : State) (c : Coach) : List Stream :=
  s.streams.filter (fun x => match x.chain with
    | none => s.waybills.any (fun w => w.uid = x.wb && c.isFor w)
    | some u =>
      if x.isA then s.yard.any (fun y => y.coach = c.uid && y.uid = u && y.st ≠ .running)
      else ((s.yard.find? (fun y => y.begun && y.lead = u)).map (fun y => y.coach = c.uid && y.st ≠ .running)).getD false)

/-- The local accesses of a coach's teams drain: their atomics are performed, and their loads and stores complete (R192). -/
def drainTeams (s : State) (c : Coach) : State :=
  let ops := (coachTeams s c).flatMap (fun t => (t.fl.ops.filter (fun o => o.cls = .ld || o.cls = .st)).map (fun o => o.id))
  let s1 := (s.atoms.filter (fun a => ops.contains a.op)).foldl performAtom s
  let s2 := (s1.ord.late.filter (fun a => ops.contains a.op)).foldl performLate s1
  dropAhead (ops.eraseDups.foldl opPart s2) c.isl c.core

/-- A saved agent. -/
def Thread.saved (now : Nat) (t0 : Thread) : Thread :=
  let t := t0.flush
  let p := match t.sch.park with
    | .fuse w sd left since => Park.fuse w sd (left - (now - since)) now
    | .none => .none
    | .word va k v m a sc => .word va k v m a sc
    | .timeline n k v a m sc => .timeline n k v a m sc
    | .counter g i a sc => .counter g i a sc
    | .launch => .launch
    | .group e q a sc => .group e q a sc
    | .arrive e q => .arrive e q
    | .yard => .yard
    | .page va => .page va
  { t with
    sch := { t.sch with
      life := .swapped, park := p, inactiveAt := if t.sch.life = .inactive then t.sch.inactiveAt else now, woken := t.sch.woken && t.sch.park ≠ .none }
    an := { t.an with
      heat := 0, heatOwed := t.an.heatOwed + t.an.heat
      heatWait := match t.an.heatWait with
        | some (n, k + 1) => some (n, k + 1)
        | some (_, 0) => none
        | none => none } }

/-- The bytes of a store's range in an image, by their keys. -/
def savedCells (s : State) (isl core space : Nat) (a : Nat × Nat) : List (Nat × Byte) :=
  let k := storeKey isl core space (1024 * a.1)
  s.stores.filter (fun c => decide (k ≤ c.1) && decide (c.1 < k + 1024 * a.2))

/-- A key lies in a coach's allocations. -/
def inCoach (c : Coach) (k : Nat) : Bool :=
  [(1, c.sp), (2, c.ab), (3, c.wb), (4, c.cb)].any (fun a =>
    let b := storeKey c.isl c.core a.1 (1024 * a.2.1)
    decide (b ≤ k) && decide (k < b + 1024 * a.2.2))

/-- The KiB of a coach's image by the sections of R389. -/
def imageKib (s : State) (c : Coach) : Nat := kibOf s c.isl c.core [c] false

/-- A coach saved into an image of a kind, with its resources freed (R74, R129, R192, R389). A coach image of its own goes to its place in the
save area; a part of a core's image is written with the rest of it. A FUSE whose period has passed ends first (R54). -/
def saveCoach (s0 : State) (c : Coach) (kind : Nat) : State :=
  let s := (coachTeams s0 c).foldl fuseEnd s0
  let kib := if kind = 1 then imageKib s c else 0
  let spot := ((areaPlan s c.isl c.ctx [kib]).getD []).headD (0, 0)
  let s1 := storeUsed (stopChains (drainTeams s c) c) c.isl c.ctx c.storeBytes
  let heat := (coachTeams s1 c).foldl dropHeat s1
  let mine := heat.yard.filter (fun x => x.coach = c.uid)
  let s2 := mine.foldl chainCool heat
  let own := fun (x : Counter) => x.isl = c.isl && x.core = c.core && x.owner = some c.uid
  let xs := coachStreams s2 c
  let image : Image :=
    { isl := c.isl, core := c.core, ctx := c.ctx, kind := kind, coach := c.uid, spot := spot.1, kib := spot.2, seed := s2.fresh, time := s.time
      replies := if kind = 1 then repliesOf s2 (teamsOf s2 c.isl c.core [c.uid]) else []
      stores := savedCells s2 c.isl c.core 1 c.sp ++ savedCells s2 c.isl c.core 2 c.ab ++ savedCells s2 c.isl c.core 3 c.wb
        ++ savedCells s2 c.isl c.core 4 c.cb
      marks := (s2.island c.isl).marks.filter (inCoach c), counters := s2.counters.filter own, chains := mine.map Chain.again
      streams := xs
      rows := if kind = 1 then rowsOf (teamsOf s2 c.isl c.core [c.uid]) else [], parts := if kind = 1 then partsOf [c] else [] }
  let off := fun (x : Counter) => if own x then { x with armed := false, counting := false } else x
  let s3 := s2.mapT (fun t => if t.live && t.id.coach = c.uid then t.saved s.cycle else t)
  let s4 := { s3 with
    fresh := s3.fresh + 1024 * kib, images := s3.images ++ [image], counters := s3.counters.map off, yard := s3.yard.filter (fun x => x.coach ≠ c.uid)
    streams := s3.streams.filter (fun x => !xs.any (fun y => y.wb = x.wb)) }
  let s5 := writeImage (oweWakes (s4.setCoach { c with swapped := true, residentAt := s.cycle, rotOut := false }) (yardWaiters s4 c.isl c.core)) image
  (s5.oweOnce (.coachPlacement c.isl)).oweOnce (.teamAdmission c.isl c.core)

/-- An agent stands between a run of hints and its target (R334). -/
def Thread.midRun (t : Thread) : Bool := (t.sch.life = .active || t.sch.life = .inactive) && t.flush.sc.hints ≠ Hints.none

/-- A coach has to wait before it is saved: copies drain, and a run of hints reaches its target (R192, R334). -/
def saveWaits (s : State) (c : Coach) : Bool := mustDrain s c || (coachTeams s c).any Thread.midRun

/-- A coach may be saved now: it waits for nothing, and no fatal error has halted it. -/
def maySave (s : State) (c : Coach) : Bool :=
  !c.swapped && coachLives s c && !saveWaits s c && (coachTeams s c).all (fun t => t.sch.life ≠ .halted && !t.tr.report)

/-- The coaches of the running columns of a coach, itself the first (R160). A column that has not been dispatched is not saved as a whole (DESIGN CHOICE,
log 40). -/
def columnCoaches (s : State) (c : Coach) : List Coach :=
  c :: s.coaches.filter (fun d => d.uid ≠ c.uid && (stopRounds s c).any (fun x => x.coach = d.uid))

/-- Where the images of a coach and of its running columns go, if the save area holds them (R389). -/
def columnPlan (s : State) (c : Coach) : Option (List (Nat × Nat)) := areaPlan s c.isl c.ctx ((columnCoaches s c).map (imageKib s))

/-- A coach may be saved now with the rest of its running columns, which share its island and context: the save area has room (R389). -/
def mayGo (s : State) (c : Coach) : Bool := (columnCoaches s c).all (maySave s) && (columnPlan s c).isSome

/-- A coach saved with the rest of its running columns (R160). A save area that stops translating ends the context (R385). -/
def saveAll (s : State) (c : Coach) : State :=
  if areaMapped s c.isl c.ctx ((columnPlan s c).getD []) then (columnCoaches s c).foldl (fun s d => saveCoach s d 1) s
  else regionLost s c.isl c.ctx

/-- SWAP_OUT: an eligible coach is saved and its room freed; it waits while waybills drain (R74, R192). -/
def execSwapOut (s : State) : Result :=
  goOn (match s.ev with
    | .swapOut u =>
      (match s.coach? u with
      | none => s
      | some c =>
        if !mayLeave s c then s
        else if (columnCoaches s c).any (saveWaits s) then waitStep s s.ev
        else if mayGo s c then
          let s1 := saveAll s c
          (s1.coaches.filter (fun d => d.isl = c.isl && d.core = c.core && d.rotIn)).foldl (fun s d => s.oweOnce (.coachRestore d.uid)) s1
        else s)
    | _ => s)

/-- The record that is placed next has a higher priority and goes into the room of a swapped-out coach (R60, R61, R74). -/
def placeFirst (s : State) (c : Coach) : Bool :=
  match (nextPlace s [] (queuedTasks s c.isl)).1 with
  | none => false
  | some (k, core, p) =>
    decide (k.record.prio < c.prio) && core = c.core && !roomFree s c (spotCoach k core p 0 0 :: coachesOn s c.isl c.core)

/-- COACH_RESTORE: a swapped-out coach one of whose wait conditions has held returns to its core and hitch, once its room is free (R74). -/
def execCoachRestore (s : State) : Result :=
  goOn (match s.ev with
    | .coachRestore u =>
      (match s.coach? u with
      | none => s
      | some c =>
        if mayReturn s c && canReturn s c then
          if placeFirst s c then waitStep (s.oweOnce (.coachPlacement c.isl)) s.ev else restoreAll s c
        else s)
    | _ => s)

/-- When a swapped-out coach became ready: the earliest time since it left at which a team of it stood ready. -/
def readySince (s : State) (c : Coach) : Nat :=
  ((coachTeams s c).filter (fun t => t.sch.park = .none)).foldl (fun n t => min n (max t.sch.inactiveAt c.residentAt)) s.cycle

/-- The coach of a list with the least figure. -/
def leastCoach (f : Coach → Nat) (cs : List Coach) : Option Coach :=
  cs.foldl (fun o c => match o with
    | none => some c
    | some d => if f c < f d then some c else some d) none

/-- A rotation under way: one coach leaves as soon as its save may start, and the other takes its room (R75, R192). -/
def rotateTo (s : State) (r out : Coach) : State :=
  let s1 := (s.setCoach { r with rotIn := true }).setCoach { out with rotOut := true }
  (s1.oweOnce (.swapOut out.uid)).oweOnce (.coachRestore r.uid)

/-- The rotation of one priority on a core (R75). Of several coaches of a lower priority that each alone make room, the one resident longest leaves; and a
ready coach whose room the departing one does not free waits for the next boundary (DESIGN CHOICE, log 40). -/
def rotate (isl core : Nat) (s : State) (p : Nat) : State :=
  match leastCoach (readySince s) (s.coaches.filter (fun c => c.isl = isl && c.core = core && c.prio = p && mayRotate s c)) with
  | none => s
  | some r =>
    let cs := coachesOn s isl core
    let go := fun (s : State) (out : Coach) =>
      if mayGo s out then
        let s1 := saveAll s out
        if (s1.coach? r.uid).isSome && canReturn s1 r then restoreAll s1 r else s1
      else if (columnCoaches s out).any (saveWaits s) then rotateTo s r out
      else s
    match leastCoach (fun c => c.residentAt) (cs.filter (fun c =>
      decide (p < c.prio) && !canReturn s r && roomFree s r (cs.filter (fun d => d.uid ≠ c.uid)))) with
    | some low => go s low
    | none =>
      match leastCoach (fun c => c.residentAt) (cs.filter (fun c => c.prio = p)) with
      | none => if canReturn s r then restoreAll s r else s
      | some old => go s old

/-- QUANTUM_BOUNDARY: a core's resident coaches are compared with its ready swapped-out coaches, the highest priority first (R75). -/
def execQuantumBoundary (s : State) : Result :=
  goOn (match s.ev with
    | .quantumBoundary isl core => [0, 1, 2, 3].foldl (rotate isl core) s
    | _ => s)

/-! ### The end of a task (R24, R375) -/

/-- A launch completes when every task of it has, and none is still to be pushed (R375). -/
def launchCheck (s : State) (u : Nat) : State :=
  match s.launch? u with
  | none => { s with tasks := s.tasks.filter (fun k => !(k.launch = u && k.done)) }
  | some l =>
    if l.st = 1 ∧ (s.tasks.filter (fun k => k.launch = u)).all (fun k => k.done) ∧ !s.pushes.any (fun p => p.launch = u && p.source ≠ 2)
      ∧ !s.launchQ.any (fun e => e.team.launch = u)
    then settleLaunch (s.setLaunch { l with st := 2, status := 0, value := 0 }) u
    else s

/-- A task is done. -/
def taskDone (s : State) (k : Task) : State := launchCheck (s.setTask { k with released := true, done := true }) k.launch

/-- TASK_COMPLETION: the cores of the island write back the context's dirty lines; the join is decremented in a step of its own (R24). -/
def execTaskCompletion (s : State) : Result :=
  goOn (match s.ev with
    | .taskCompletion u =>
      (match s.task? u with
      | none => s
      | some k =>
        if k.released || k.exited.length ≠ k.record.nteams then s
        else
          let s1 := releaseIsland s k.isl k.ctx
          if k.record.join = 0 then taskDone s1 k else (s1.setTask { k with released := true }).owe (.joinDecrement u))
    | _ => s)

/-- The record of JOIN_DENIED (R24, R188). -/
def joinRecord (k : Task) : FaultRec :=
  { cause := causeJoin, cls := 3, flags := 0, isl := k.isl, core := 0xFF, slot := 0, wcode := 0, ctx := k.ctx, taskId := k.record.taskId, team := 0,
    flane := 0, subt := 0, lanes := 0, xpc := 0, xaddr := k.record.join, insn := 0, atype := 3, space := 0, risl := 0 }

/-- A word of a context that a task's completion has decremented (R24, R292). -/
def joinNoted (s : State) (isl ctx pa : Nat) : State :=
  if s.ord.joined.contains (isl, ctx, pa) then s else { s with ord := { s.ord with joined := (isl, ctx, pa) :: s.ord.joined } }

/-- JOIN_DECREMENT: the owning die subtracts 1 from the join word; a page that is not present is waited for, and a failure is fatal (R24). -/
def execJoinDecrement (s : State) : Result :=
  goOn (match s.ev with
    | .joinDecrement u =>
      (match s.task? u with
      | none => s
      | some k =>
        if !k.released || k.done then s
        else match translate s k.isl 128 k.ctx k.record.join.toNat .write with
          | (s1, .fault _) => fatalError s1 (joinRecord k) [] none
          | (s1, .notPresent) => postPageFault s1 k.isl k.ctx k.record.join 3
          | (s1, .ok pa _) =>
            if lineBad s1 k.isl (pa / 128) then fatalError s1 { joinRecord k with cause := causeData } [] none
            else
            let n := BitVec.ofNat 64 (s1.physNat k.isl pa 8) - 1
            taskDone (joinNoted (l2Put (l2Used s1 k.isl k.ctx 16) k.isl (cellsFrom pa (leBytes 8 n.toNat))) k.isl k.ctx pa) k)
    | _ => s)

/-! ### The Hearth (R401) -/

/-- The oldest request of the highest priority that has one. -/
def topRequest (i : Island) : Option HeatReq :=
  i.reqs.foldl (fun o r => match o with
    | none => some r
    | some q => if r.prio < q.prio then some r else some q) none

/-- What a grant brings its requester. -/
def granted (s : State) (isl : Nat) (r : HeatReq) : State :=
  if r.kind = 0 then
    match s.chain? r.who with
    | none => heatReturn s isl r.units
    | some c =>
      let q := s.take
      (q.2.setChain { c with st := .hasHeat, order := q.1 }).oweOnce (.chainDispatch c.isl c.core)
  else if r.kind = 1 then
    match s.waybill? r.who with
    | none => heatReturn s isl r.units
    | some w => beginWaybill (s.setWaybill { w with heatHeld := true }) { w with heatHeld := true }
  else if r.kind = 2 then
    match s.firings.find? (fun f => f.uid = r.who) with
    | none => heatReturn s isl r.units
    | some f => (s.setFiring { f with st := 2 }).owe (.bellowsSend f.isl f.ctx f.entry)
  else
    match s.thread? r.who with
    | none => heatReturn s isl r.units
    | some _ => s.updT r.who (fun t => { t with an :=
        if t.an.heatOwed = 0 then { t.an with heat := t.an.heat + r.units, heatWait := some (r.units, 1) }
        else { t.an with heat := t.an.heat + r.units, heatOwed := 0 } })

/-- HEAT_GRANT: the oldest request of the highest priority is granted while the budget allows it; none goes past it. -/
def execHeatGrant (s : State) : Result :=
  goOn (match s.ev with
    | .heatGrant isl =>
      let i := s.island isl
      (match topRequest i with
      | none => s
      | some r =>
        if i.budget < i.held + r.units then s
        else
          let s1 := s.setIsland { i with held := i.held + r.units, reqs := i.reqs.filter (fun q => !(q.kind = r.kind && q.who = r.who)) }
          let s2 := granted s1 isl r
          if (s2.island isl).reqs.isEmpty then s2 else s2.oweOnce (.heatGrant isl))
    | _ => s)

/-! ### Words that cannot be executed (R219, R228) -/

/-- ILLEGAL_INSN: a word that is no instruction of the running agent traps. -/
def execIllegalInsn (s : State) : Result :=
  goOn (match s.ev with
    | .illegalInsn w => if (decodeFor s.cur w).isNone then trapPlain (s.latch w) causeIllegal else s
    | _ => s)

/-- INSTRUCTION_FETCH_FAULT: the fetch at the pc faults, precisely at it; the word is not known (R228; log 4). -/
def execInstructionFetchFault (s : State) : Result :=
  let q := fetchWord s
  goOn (match q.2 with
    | .word _ => q.1
    | .bad p => (match p with
      | .bad c v =>
        let x := q.1.take
        takeTrap (x.2.latch ((Config.freeWord x.1).truncate 32)) (addrFx c v 0 0)
      | .page v => parkPage q.1 v 0
      | .ok _ _ => q.1))

end Sys2Proof.Machine
end

