-- ==== Sys2Proof/Machine/Host.lean ====
section
/-!
DEFINITION. The panel command processor: functions, queues and doorbells (R362-R366), commands in the order of R368 and R369, launches
(R370-R375), writes, copies and table changes (R376, R377), and edge ports (R379).
-/
namespace Sys2Proof.Machine

/-! ### Registers of a function (R363-R366) -/

/-- HCPSEL_WRITE: the protocol is accepted where it is major 1 with no capability and no reserved bit (R364). The reserved bits 31:8 hold nothing, and
read zero (R7). -/
def execHcpselWrite (s : State) : Result :=
  goOn (match s.ev with
    | .hcpselWrite fn v => if inService s && decide (fn < 32) then s.setFn { s.fnRegs fn with hcpsel := v &&& 0xFFFFFFFF000000FF, accepted := decide (v = 1) } else s
    | _ => s)

/-- A context of a function: context 0 belongs to PF 0 (R383). -/
def ownsCtx (s : State) (fn ctx : Nat) : Bool := (ctx = 0 && fn = 0) || s.ctxs.any (fun c => c.ctx = ctx && c.fn = fn)

/-! ### Commands (R367) -/

/-- A command as read. -/
structure Cmd where
  opc : Nat
  flags : Nat
  res : Nat
  tag : BitVec 32
  w1 : Nat
  w2 : Nat
  w3 : Nat
  w4 : Nat
  tail : Nat
  deriving DecidableEq, Repr

/-- The host address of the command at the head of a queue. -/
def headAt (x : HostQueue) : Nat := x.qbase.toNat + 64 * (x.head % 2 ^ x.log2n)

/-- The command at the head of a queue. -/
def headCmd (s : State) (x : HostQueue) : Cmd :=
  let a := headAt x
  let n := hostWord s a
  { opc := bitsOf n 7 0, flags := bitsOf n 15 8, res := bitsOf n 31 16, tag := BitVec.ofNat 32 (bitsOf n 63 32), w1 := hostWord s (a + 8)
    w2 := hostWord s (a + 16), w3 := hostWord s (a + 24), w4 := hostWord s (a + 32)
    tail := hostWord s (a + 40) + hostWord s (a + 48) + hostWord s (a + 56) }

/-- Bit IRQ of a command. -/
def Cmd.irq (c : Cmd) : Bool := bitOf c.flags 0

/-- Bit FENCE of a command. -/
def Cmd.fence (c : Cmd) : Bool := bitOf c.flags 1

/-- The first entry of a list of (offset, bad) that is bad. -/
def firstBad (l : List (Nat × Bool)) : Option Nat := (l.find? (fun x => x.2)).map (fun x => x.1)

/-- The byte offset of the first field that makes a command INVALID (R367, R378). -/
def Cmd.bad (c : Cmd) : Option Nat :=
  let z := fun (op : List Nat) (w : Nat) => op.contains c.opc && decide (w ≠ 0)
  firstBad [(0, decide (5 < c.opc)), (1, decide (4 ≤ c.flags)), (2, decide (c.res ≠ 0)),
    (8, z [0] c.w1 || (c.opc = 1 && decide (c.w1 % 64 ≠ 0)) || (c.opc = 3 && decide (bitsOf c.w1 62 16 ≠ 0))
      || (c.opc = 4 && decide (bitsOf c.w1 63 33 ≠ 0 ∨ bitsOf c.w1 23 22 ≠ 0))),
    (16, z [0, 4, 5] c.w2 || (c.opc = 2 && decide (c.w2 % 8 ≠ 0))),
    (24, z [0, 1, 5] c.w3),
    (32, z [0, 1, 2, 5] c.w4 || (c.opc = 3 && decide (c.w4 = 0 ∨ 2 ^ 32 < c.w4))),
    (40, decide (c.tail ≠ 0))]

/-! ### The next command (R368, R369) -/

/-- A queue's head command may be taken: no launch holds the queue, its EN stands unless the command is in hand already, and with FENCE every earlier one, launches included, has completed. -/
def mayTake (s : State) (x : HostQueue) : Bool :=
  x.en && x.qerr = 0 && x.hold.isNone && decide (x.head < x.tail) && (!x.stopping || x.inHand)
    && (!(headCmd s x).fence || !s.launches.any (fun l => l.fn = x.fn && l.queue = x.q))

/-- A queue's number across all functions. -/
def HostQueue.key (x : HostQueue) : Nat := 64 * x.fn + x.q

/-- The queue that is served next: the highest class that has one, round-robin within it. -/
def nextQueue (s : State) : Option HostQueue :=
  let xs := s.queues.filter (mayTake s)
  let cls := xs.foldl (fun m x => min m x.prio) 3
  let last := ((s.panel.served.find? (fun p => p.1 = cls)).map (fun p => p.2)).getD 2047
  let turn := fun (x : HostQueue) => (x.key + 2048 - (last + 1)) % 2048
  if inService s then
    (xs.filter (fun x => x.prio = cls)).foldl (fun o x => match o with
      | none => some x
      | some y => if turn x < turn y then some x else some y) none
  else none

/-- The step of a queue's head command. -/
def cmdEvent (s : State) (x : HostQueue) : Event :=
  let c := headCmd s x
  if c.bad.isSome then .invalidCommand x.fn x.q
  else if c.opc = 0 then .cmdNop x.fn x.q
  else if c.opc = 1 then .cmdLaunch x.fn x.q
  else if c.opc = 2 then .cmdWrite x.fn x.q
  else if c.opc = 3 then .cmdCopy x.fn x.q
  else if c.opc = 4 then .cmdMctset x.fn x.q
  else .cmdKill x.fn x.q

/-- The processor looks for its next command. -/
def lookCmd (s : State) : State :=
  match nextQueue s with
  | none => s
  | some x => s.oweOnce (cmdEvent s x)

/-- The processor takes the command that is next, where the current step is that command's. A host error at the ring stops the queue
(R365). -/
def takeCmd (act : HostQueue → Cmd → State → State) (s : State) : State :=
  match nextQueue s with
  | none => s
  | some x =>
    if !hostOk s (headAt x) 64 then lookCmd (s.setQueue { x with qerr := 2, inHand := false }.settled)
    else if cmdEvent s x = s.ev then act x (headCmd s x) s else s.oweOnce (cmdEvent s x)

/-- A queue's head passes: it has been served. -/
def passHead (x : HostQueue) (hold : Option Nat) (s : State) : State :=
  let y := { (s.queue? x.fn x.q).getD x with head := x.head + 1, hold := hold, inHand := false }.settled
  { s.setQueue y with panel := { s.panel with served := (x.prio, x.key) :: s.panel.served.filter (fun p => p.1 ≠ x.prio) } }

/-- A command completes, and passes (R368, R378). -/
def finishCmd (x : HostQueue) (c : Cmd) (status : Nat) (v : Word64) (s : State) : State :=
  lookCmd (passHead x none (completeCmd s x.fn x.q x.head c.tag c.irq status v))

/-- A command that has been taken cannot complete yet: it stays in hand. -/
def waitCmd (x : HostQueue) (s : State) : State := waitStep (s.setQueue { (s.queue? x.fn x.q).getD x with inHand := true }) s.ev

/-- QUEUE_ENABLE: a write that sets EN, with the processor's check (R365). A queue that is enabled keeps its configuration. -/
def execQueueEnable (s : State) : Result :=
  goOn (match s.ev with
    | .queueEnable fn q cbase qbase ctl =>
      let n := ctl.toNat
      let old := s.queue? fn q
      if !inService s || decide (32 ≤ fn) || decide (64 ≤ q) || !bitOf n 32 || (old.map (fun x => x.en)).getD false then s
      else
        let ok := decide (4 ≤ bitsOf n 4 0) && decide (bitsOf n 4 0 ≤ 16) && decide (qbase.toNat % 64 = 0) && decide (cbase.toNat % 16 = 0)
          && ownsCtx s fn (bitsOf n 63 48) && (s.fnRegs fn).accepted
        let x : HostQueue :=
          { fn := fn, q := q, en := ok, log2n := bitsOf n 4 0, prio := bitsOf n 34 33, vec := bitsOf n 39 35, ctx := bitsOf n 63 48, qbase := qbase
            cbase := cbase, head := 0, tail := 0, qerr := if ok then 0 else 1, hold := none, inHand := false, stopping := false }
        s.setQueue x
    | _ => s)

/-- QUEUE_DISABLE: EN cleared; the command in hand passes first, no other is taken, then HEAD and QERR return to 0 (R365). -/
def execQueueDisable (s : State) : Result :=
  goOn (match s.ev with
    | .queueDisable fn q =>
      (match s.queue? fn q with
      | none => s
      | some x =>
        if !inService s then s
        else s.setQueue { x with stopping := true }.settled)
    | _ => s)

/-- The first command of a queue that has not completed. -/
def firstOpen (s : State) (x : HostQueue) : Nat :=
  (s.launches.filter (fun l => l.fn = x.fn && l.queue = x.q)).foldl (fun m l => min m l.slot) x.head

/-- DOORBELL: the tail moves on; one that would leave more than 2^LOG2N − 1 commands outstanding is ignored (R366). -/
def execDoorbell (s : State) : Result :=
  goOn (match s.ev with
    | .doorbell fn q t =>
      (match s.queue? fn q with
      | none => s
      | some x =>
        let n := 2 ^ x.log2n
        let tail := x.tail + (t + n - x.tail % n) % n
        if x.en && inService s && decide (t < n) && decide (tail - firstOpen s x ≤ n - 1) then lookCmd (s.setQueue { x with tail := tail }) else s)
    | _ => s)

/-- CMD_NOP. -/
def execCmdNop (s : State) : Result :=
  goOn (match s.ev with
    | .cmdNop _ _ => takeCmd (fun x c s => finishCmd x c 0 0 s) s
    | _ => s)

/-- INVALID_COMMAND: it completes INVALID with the offset of the first offending field (R367, R378). -/
def execInvalidCommand (s : State) : Result :=
  goOn (match s.ev with
    | .invalidCommand _ _ => takeCmd (fun x c s => finishCmd x c 1 (BitVec.ofNat 64 (c.bad.getD 0)) s) s
    | _ => s)

/-! ### Writes and copies (R376) -/

/-- An island word of a command names an island of this panel that is in service and in the context's partition (R371). -/
def hostIslOk (s : State) (ctx w : Nat) : Bool :=
  decide (w < 2 ^ 16) && w / 256 = Config.panel && islandServes s (w % 256)
    && (ctx = 0 || s.ctxs.any (fun c => c.ctx = ctx && c.isl = w % 256 && !c.dead))

/-- Where each byte of a range lies for the processor, up to the first that fails (R376). -/
def hostTargets (isl ctx : Nat) (acc : Acc) (s : State) (va : Nat) : Nat → State × List Nat
  | 0 => (s, [])
  | n + 1 =>
    match translate s isl 130 ctx va acc with
    | (s1, .fault _) => (s1, [])
    | (s1, .notPresent) => (s1, [])
    | (s1, .ok pa _) =>
      if (acc = .read ∧ lineBad s1 isl (pa / 128)) ∨ 2 ^ 64 ≤ va then (s1, [])
      else
        let r := hostTargets isl ctx acc s1 (va + 1) n
        (r.1, pa :: r.2)

/-- A range of context 0 touches the control block (R399). -/
def ctrlTouch (ctx va n : Nat) : Bool := ctx = 0 && decide (va < ctrlBase + ctrlSize) && decide (ctrlBase < va + n)

/-- CMD_WRITE: 8 bytes stored at the memory-side die. A control-block write is performed in the block's turn (R399). -/
def execCmdWrite (s : State) : Result :=
  goOn (match s.ev with
    | .cmdWrite _ _ => takeCmd (fun x c s =>
        let isl := c.w1 % 256
        let v := BitVec.ofNat 64 c.w3
        if !hostIslOk s x.ctx c.w1 then finishCmd x c 8 (BitVec.ofNat 64 c.w1) s
        else if ctrlTouch x.ctx c.w2 8 then
          let off := c.w2 - ctrlBase
          if ctrlWaits s isl off true v then waitCmd x s
          else
            let q := ctrlWrite s isl off v
            if q.2 then finishCmd x c 0 0 q.1 else waitCmd x q.1
        else
          let q := hostTargets isl x.ctx .write s c.w2 8
          if q.2.length < 8 then finishCmd x c 4 0 q.1
          else finishCmd x c 0 0 (l2Put (l2Used q.1 isl x.ctx 8) isl (q.2.zip (leBytes 8 c.w3)))) s
    | _ => s)

/-- Registers of the control block copied between it and host memory, 8 bytes at a time. -/
def copyCtrl (isl : Nat) (out : Bool) (s : State) (host off : Nat) : Nat → State
  | 0 => s
  | n + 1 =>
    let s1 := if out then
        let r := ctrlRead s isl off
        hostPut r.1 host (leBytes 8 r.2.toNat)
      else (ctrlWrite s isl off (BitVec.ofNat 64 (hostWord s host))).1
    copyCtrl isl out s1 (host + 8) (off + 8) n

/-- A DISCARD that a copy would write is not performed at once. -/
def discardOpen (s : State) (isl off n host : Nat) : Bool :=
  decide (off ≤ 0xE28) && decide (0xE28 < off + n) && !(discardStep s isl (BitVec.ofNat 64 (hostWord s (host + (0xE28 - off))))).2

/-- CMD_COPY: bytes moved between host memory and global memory through the L2. A failure ends it with the bytes performed. -/
def execCmdCopy (s : State) : Result :=
  goOn (match s.ev with
    | .cmdCopy _ _ => takeCmd (fun x c s =>
        let isl := c.w1 % 256
        let out := bitOf c.w1 63
        if !hostIslOk s x.ctx (c.w1 % 2 ^ 63) then finishCmd x c 8 (BitVec.ofNat 64 (c.w1 % 2 ^ 63)) s
        else if ctrlTouch x.ctx c.w3 c.w4 then
          let off := c.w3 - ctrlBase
          if c.w3 % 8 ≠ 0 ∨ c.w4 % 8 ≠ 0 ∨ c.w3 < ctrlBase ∨ ctrlBase + ctrlSize < c.w3 + c.w4 then finishCmd x c 4 0 s
          else if (s.island isl).discard.isSome && (out || !(off = 0xE28 && c.w4 = 8)) then waitCmd x s
          else if !out && discardOpen s isl off c.w4 c.w2 then
            waitCmd x (discardStep s isl (BitVec.ofNat 64 (hostWord s (c.w2 + (0xE28 - off))))).1
          else finishCmd x c 0 (BitVec.ofNat 64 c.w4) (copyCtrl isl out s c.w2 off (c.w4 / 8))
        else
          let q := hostTargets isl x.ctx (if out then .read else .write) s c.w3 c.w4
          let s0 := l2Used q.1 isl x.ctx q.2.length
          let s1 := if out then hostPut s0 c.w2 (q.2.map (fun pa => s0.physGet isl pa))
            else l2Put s0 isl (q.2.zip (getBytes q.1.hostMem c.w2 q.2.length))
          finishCmd x c (if q.2.length < c.w4 then 4 else 0) (BitVec.ofNat 64 q.2.length) s1) s
    | _ => s)

/-! ### Table changes and KILL (R86, R377) -/

/-- A multicast entry of an island written. -/
def putMcast (s : State) (m : Mcast) : State :=
  { s with mcasts := m :: s.mcasts.filter (fun n => !(n.isl = m.isl && n.ctx = m.ctx && n.entry = m.entry)) }

/-- A waybill that names a multicast-table entry is posted, queued at a Carter or in flight on an island (R86): a message in the inbox or among the
pending entries of a Carter may be such a waybill itself, posted by its eight words. -/
def mctNamed (s : State) (isl ctx e : Nat) : Bool :=
  let names := fun (ws : List Word64) => (parseWb ws).kind = 4 && (parseWb ws).mct = e
  s.waybills.any (fun b => b.isl = isl && b.ctx = ctx && names b.raw)
    || s.carters.any (fun c => c.isl = isl && (carterThread s isl c.core ctx).isSome && (c.inbox ++ c.pending).any (fun m =>
      (parseWb m.words).fieldsOk && names m.words))

/-- CMD_MCTSET: a multicast entry changes while it is quiescent, else MCT_BUSY. -/
def execCmdMctset (s : State) : Result :=
  goOn (match s.ev with
    | .cmdMctset _ _ => takeCmd (fun x c s =>
        let w := c.w1 % 2 ^ 16
        let isl := c.w1 % 256
        let e := bitsOf c.w1 21 16
        let busy := mctNamed s isl x.ctx e
        if !hostIslOk s x.ctx w then finishCmd x c 8 (BitVec.ofNat 64 w) s
        else if busy then finishCmd x c 6 0 s
        else
          let old := s.mcasts.find? (fun m => m.isl = isl && m.ctx = x.ctx && m.entry = e)
          finishCmd x c 0 0 (putMcast s
            { isl := isl, ctx := x.ctx, entry := e, launch := (old.map (fun m => m.launch)).getD 0, valid := bitOf c.w1 32
              group := bitsOf c.w1 31 24, cores := BitVec.ofNat 128 (c.w3 + c.w4 * 2 ^ 64) })) s
    | _ => s)

/-- CMD_KILL: the function's live launch with an id ends as TKILL ends one, with status KILLED (R186, R377). -/
def execCmdKill (s : State) : Result :=
  goOn (match s.ev with
    | .cmdKill _ _ => takeCmd (fun x c s =>
        match s.launches.find? (fun l => l.fn = x.fn && l.lid = c.w1 && l.st ≠ 2) with
        | none => finishCmd x c 1 8 s
        | some l => finishCmd x c 0 0 (endLaunch s l.uid 7 0)) s
    | _ => s)

/-! ### Launches (R370-R374) -/

/-- A group-member entry of a descriptor (R370). -/
structure GroupEnt where
  recIdx : Nat
  entry : Nat
  first : Nat
  count : Nat
  ext : Nat
  res : Nat
  resHi : Nat
  deriving DecidableEq, Repr

/-- A launch descriptor in host memory (R370). -/
structure Desc where
  vmaj : Nat
  nrec : Nat
  ngrp : Nat
  nmct : Nat
  nwait : Nat
  lid : Nat
  waits : List (Nat × Nat × Nat × Nat)
  recs : List (Nat × Nat)
  grps : List GroupEnt
  mcts : List (Nat × Nat × Nat)
  deriving DecidableEq, Repr

/-- A descriptor read. -/
def readDesc (s : State) (a : Nat) : Desc :=
  let n := hostWord s a
  let nrec := bitsOf n 31 16
  let ngrp := bitsOf n 47 32
  let g := a + 0xC0 + 16 * nrec
  let m := g + 16 * ngrp
  { vmaj := bitsOf n 7 0, nrec := nrec, ngrp := ngrp, nmct := bitsOf n 55 48, nwait := bitsOf n 59 56, lid := hostWord s (a + 8) % 2 ^ 32
    waits := (List.range 4).map (fun i =>
      let b := a + 0x40 + 32 * i
      (hostWord s b, hostWord s (b + 8), hostWord s (b + 16), hostWord s (b + 24)))
    recs := (List.range nrec).map (fun i => (hostWord s (a + 0xC0 + 16 * i), hostWord s (a + 0xC8 + 16 * i)))
    grps := (List.range ngrp).map (fun i =>
      let x := hostWord s (g + 16 * i)
      let y := hostWord s (g + 16 * i + 8)
      { recIdx := bitsOf x 15 0, entry := bitsOf x 23 16, first := bitsOf x 63 32, count := bitsOf y 31 0, ext := bitsOf y 47 32
        res := bitsOf x 31 24, resHi := bitsOf y 63 48 })
    mcts := (List.range (bitsOf n 55 48)).map (fun i =>
      (hostWord s (m + 32 * i), hostWord s (m + 32 * i + 8), hostWord s (m + 32 * i + 16) + hostWord s (m + 32 * i + 24) * 2 ^ 64)) }

/-- NTEAMS of a record, where its island word may be named, its address translates, and its line is not known to be bad (R371, R413). -/
def recTeams (s : State) (ctx : Nat) (r : Nat × Nat) : Option Nat :=
  ((if hostIslOk s ctx r.2 then peek s (r.2 % 256) ctx r.1 else none).filter (fun pa => !lineBad s (r.2 % 256) (pa / 128))).map
    (fun pa => (parseRec (s.physBytes (r.2 % 256) pa 64)).nteams)

/-- The offset of the first field of a descriptor that makes it INVALID, in the order of the fields (R371, R378). -/
def descInvalid (s : State) (x : HostQueue) (d : Desc) (a len : Nat) : Option Nat :=
  let n := hostWord s a
  let heads := [(2, decide (d.nrec = 0 ∨ 4096 < d.nrec)), (4, decide (4096 < d.ngrp)), (6, decide (64 < d.nmct)), (7, decide (4 < d.nwait)),
    (7, decide (bitsOf n 63 60 ≠ 0)), (8, s.launches.any (fun l => l.fn = x.fn && l.lid = d.lid)),
    (12, decide (2 ^ 32 ≤ hostWord s (a + 8)) || (List.range 6).any (fun i => decide (hostWord s (a + 16 + 8 * i) ≠ 0)))]
  let waits := d.waits.zipIdx.flatMap (fun w =>
    let b := 0x40 + 32 * w.2
    if w.2 < d.nwait then [(b, decide (w.1.1 % 8 ≠ 0)), (b + 24, decide (w.1.2.2.2 ≠ 0))]
    else [(b, decide (w.1.1 ≠ 0)), (b + 8, decide (w.1.2.1 ≠ 0)), (b + 16, decide (w.1.2.2.1 ≠ 0)), (b + 24, decide (w.1.2.2.2 ≠ 0))])
  let g := 0xC0 + 16 * d.nrec
  let tooMany := fun (e : GroupEnt) => match (d.recs[e.recIdx]?).bind (recTeams s x.ctx) with
    | none => false
    | some t => decide (t < e.first + e.count)
  let grps := d.grps.zipIdx.flatMap (fun e =>
    let b := g + 16 * e.2
    [(b, decide (d.nrec ≤ e.1.recIdx)), (b + 3, decide (e.1.res ≠ 0)), (b + 8, tooMany e.1),
     (b + 12, (d.grps.take e.2).any (fun f => f.entry = e.1.entry && f.ext ≠ e.1.ext)), (b + 14, decide (e.1.resHi ≠ 0))])
  let m := g + 16 * d.ngrp
  let mcts := d.mcts.zipIdx.flatMap (fun e =>
    let b := m + 32 * e.2
    [(b + 1, decide (63 < bitsOf e.1.1 15 8)), (b + 3, decide (bitsOf e.1.1 63 24 ≠ 0)), (b + 8, decide (e.1.2.1 ≠ 0))])
  firstBad (heads ++ [(16, decide (len ≠ m + 32 * d.nmct))] ++ waits ++ grps ++ mcts)

/-- The island words that a descriptor names. -/
def Desc.words (d : Desc) : List Nat :=
  (d.waits.take d.nwait).map (fun w => w.2.2.1) ++ d.recs.map (fun r => r.2) ++ d.mcts.map (fun m => m.1 % 256 + 256 * Config.panel)

/-- A team in more than four group entries (R31), as (record, team). -/
def fiveGroups (d : Desc) : Option (Nat × Nat) :=
  (d.grps.find? (fun e => decide (0 < e.count) && decide (4 < ((d.grps.filter (fun f =>
    f.recIdx = e.recIdx && decide (f.first ≤ e.first) && decide (e.first < f.first + f.count))).map (fun f => f.entry)).eraseDups.length))).map
    (fun e => (e.recIdx, e.first))

/-- An entry that another live launch of the context holds (R30): its index, plus 256 for a multicast entry. -/
def entryInUse (s : State) (ctx : Nat) (d : Desc) : Option Nat :=
  let ls := s.launches.filter (fun l => l.ctx = ctx)
  match d.grps.find? (fun e => ls.any (fun l => l.groups.any (fun g => g.2.1 = e.entry))) with
  | some e => some e.entry
  | none => (d.mcts.find? (fun m => ls.any (fun l => l.mcts.any (fun n => n.1 = m.1 % 256 && n.2.1 = bitsOf m.1 15 8)))).map
      (fun m => bitsOf m.1 15 8 + 256)

/-- Why a launch is rejected, with VALUE, in the order of R371's table (R371, R378). -/
def launchReject (s : State) (x : HostQueue) (c : Cmd) : Option (Nat × Nat) :=
  let d := readDesc s c.w1
  if c.w2 < 0xC0 then some (1, 16)
  else if d.vmaj ≠ 1 then some (2, 0)
  else match descInvalid s x d c.w1 c.w2 with
    | some n => some (1, n)
    | none =>
      match d.words.find? (fun w => !hostIslOk s x.ctx w || x.ctx = 0) with
      | some w => some (8, w)
      | none =>
        match fiveGroups d with
        | some g => some (3, g.1 + g.2 * 2 ^ 16)
        | none =>
          match (((d.waits.take d.nwait).map (fun w => (w.1, w.2.2.1))) ++ d.recs).find? (fun r => (peek s (r.2 % 256) x.ctx r.1).isNone) with
          | some r => some (4, r.1)
          | none => (entryInUse s x.ctx d).map (fun e => (9, e))

/-- The reads of a launch's records by the processor: of NTEAMS, 8 bytes each (R91, R371, R402). -/
def recsRead (s : State) (ctx : Nat) (c : Cmd) : State :=
  let d := readDesc s c.w1
  if c.w2 < 0xC0 ∨ d.vmaj ≠ 1 ∨ 4096 < d.nrec then s
  else d.recs.foldl (fun s r => if hostIslOk s ctx r.2 then l2Used (markAD s (r.2 % 256) ctx r.1 false) (r.2 % 256) ctx 8 else s) s

/-- The reads of a launch's counters as their watches are armed (R91, R372, R402). -/
def waitsRead (s : State) (ctx : Nat) (d : Desc) : State :=
  (d.waits.take d.nwait).foldl (fun s w => l2Used (markAD s (w.2.2.1 % 256) ctx w.1 false) (w.2.2.1 % 256) ctx 8) s

/-- A wait slot armed: a counter that already holds holds at once (R372). -/
def armWait (s : State) (ctx : Nat) (w : Nat × Nat × Nat × Nat) : WaitSlot :=
  let isl := w.2.2.1 % 256
  let held := match peek s isl ctx w.1 with
    | none => false
    | some pa => !lineBad s isl (pa / 128) && decide (w.2.1 ≤ s.physNat isl pa 8)
  { isl := isl, va := BitVec.ofNat 64 w.1, val := BitVec.ofNat 64 w.2.1, held := held }

/-- A launch that passed its checks: it claims its entries, holds its queue, and waits (R371, R372). -/
def acceptLaunch (x : HostQueue) (c : Cmd) (s : State) : State :=
  let d := readDesc s c.w1
  let q := (waitsRead s x.ctx d).take
  let l : Launch :=
    { uid := q.1, fn := x.fn, lid := d.lid, ctx := x.ctx, queue := x.q, tag := c.tag, slot := x.head, irq := c.irq, st := 0
      recs := d.recs.map (fun r => (r.2 % 256, BitVec.ofNat 64 r.1)), waits := (d.waits.take d.nwait).map (armWait s x.ctx)
      groups := d.grps.map (fun e => (e.recIdx, e.entry, e.first, e.count, e.ext))
      mcts := d.mcts.map (fun m => (m.1 % 256, bitsOf m.1 15 8, bitsOf m.1 23 16, BitVec.ofNat 128 m.2.2)), status := 0, value := 0 }
  let s1 := passHead x (some q.1) { q.2 with launches := q.2.launches ++ [l] }
  lookCmd (if l.waits.all (fun w => w.held) then s1.oweOnce (.launchDispatch q.1) else s1)

/-- CMD_LAUNCH: the descriptor and every record's NTEAMS are read and checked; the launch is rejected whole, or it waits for its conditions. -/
def execCmdLaunch (s : State) : Result :=
  goOn (match s.ev with
    | .cmdLaunch _ _ => takeCmd (fun x c s =>
        let s1 := recsRead s x.ctx c
        match launchReject s x c with
        | some r => finishCmd x c r.1 (BitVec.ofNat 64 r.2) s1
        | none => acceptLaunch x c s1) s
    | _ => s)

/-- The islands that a launch names. -/
def Launch.islands (l : Launch) : List Nat :=
  (l.recs.map (fun r => r.1) ++ l.waits.map (fun w => w.isl) ++ l.mcts.map (fun m => m.1)).eraseDups

/-- The group-table entries of a launch on an island: the members that run there, phase 0 and no arrival (R30, R267). -/
def launchGroups (l : Launch) (isl : Nat) : List Group :=
  ((l.groups.map (fun g => g.2.1)).eraseDups).map (fun e =>
    let ms := l.groups.filter (fun g => g.2.1 = e)
    { isl := isl, ctx := l.ctx, entry := e, launch := l.uid
      members := (ms.filter (fun g => (l.recs[g.1]?).map (fun r => r.1) = some isl)).map (fun g => (g.1, g.2.2.1, g.2.2.2.1))
      ext := (ms.head?.map (fun g => g.2.2.2.2)).getD 0, phase := 0, arrived := [], settled := [], extCount := 0, regs := [] })

/-- The pushes of a launch's records, in list order (R374). -/
def pushRecs (l : Launch) : List (Nat × Word64) → Nat → State → State
  | [], _, s => s
  | r :: rs, i, s =>
    let q := s.take
    let p : Push :=
      { uid := q.1, isl := r.1, ctx := l.ctx, addr := r.2, source := 0, sub := 0, launch := l.uid, recIdx := some i, team := none, paused := false }
    pushRecs l rs (i + 1) (({ q.2 with pushes := q.2.pushes ++ [p] }).owe (.islandTaskPush q.1))

/-- LAUNCH_DISPATCH: with every condition held, the table entries are written, then the records are pushed (R373, R374). -/
def execLaunchDispatch (s : State) : Result :=
  goOn (match s.ev with
    | .launchDispatch u =>
      (match s.launch? u with
      | none => s
      | some l =>
        if l.st ≠ 0 || !l.waits.all (fun w => w.held) then s
        else
          let s1 := s.setLaunch { l with st := 1 }
          let s2 := { s1 with groups := s1.groups ++ l.islands.flatMap (launchGroups l) }
          let s3 := l.mcts.foldl (fun s m => putMcast s
            { isl := m.1, ctx := l.ctx, entry := m.2.1, launch := u, valid := true, group := m.2.2.1, cores := m.2.2.2 }) s2
          pushRecs l l.recs 0 s3)
    | _ => s)

/-- EDGE_PORT_LINK_UP: a port carries traffic where both panels offer major 1 of the link protocol (R379). -/
def execEdgePortLinkUp (s : State) : Result :=
  goOn (match s.ev with
    | .edgePortLinkUp p majors =>
      let r := s.panel.edges.filter (fun e => e ≠ p)
      { s with panel := { s.panel with edges := if majors.getLsbD 1 && p ≠ Config.panel then p :: r else r } }
    | _ => s)

end Sys2Proof.Machine
end

