-- ==== Sys2Proof/Machine/Mailbox.lean ====
section
/-!
DEFINITION. The firmware's mailbox: requests and replies (R382, R414), contexts created, destroyed, suspended and resumed (R384-R391),
invalidation and page faults (R93, R396, R397), and the topology table with fencing and renumbering (R392-R395).
-/
namespace Sys2Proof.Machine

/-! ### Replies (R382, R414) -/

/-- The reply to the request in hand: it overwrites the buffer, and a message is sent on MBVEC (R382, R414). -/
def reply (s : State) (r : MbReq) (status : Nat) (ws : List Nat) : State :=
  let s1 := hostPut s r.buf.toNat ((((status % 2 ^ 16 + bitsOf (r.word 0) 63 32 * 2 ^ 32) :: ws).flatMap (leBytes 8)))
  let s2 := s1.setFn { s1.fnRegs r.fn with busy := false, done := true }
  sendMsix { s2 with
    panel := { s2.panel with mbox := s2.panel.mbox.filter (fun x => x.fn ≠ r.fn), mbStage := 0, mbInvs := [] }
    due := s2.due.filter (fun e => e ≠ r.event) } r.fn (s2.fnRegs r.fn).mbvec.toNat

/-- What a request has come to: the state, and with its end the status and the payload of the reply. -/
abbrev MbOut := State × Option (Nat × List Nat)

/-- A step of a function's request: requests are performed one at a time, in the order received across all functions (R382). One that has to
wait comes about again. -/
def mailbox (fn : Nat) (act : MbReq → State → MbOut) (s : State) : State :=
  if !inService s || decide (32 ≤ fn) then s
  else
    let s1 := if (s.request? fn).isNone && (readRequest s fn).event = s.ev then submit s (readRequest s fn) else s
    match s1.request? fn with
    | none => s1
    | some r =>
      if r.event ≠ s.ev then s1
      else if (s1.panel.mbox.head?.map (fun x => x.fn)) ≠ some fn then waitStep s1 s.ev
      else match act r s1 with
        | (s2, none) => waitStep s2 s.ev
        | (s2, some (st, ws)) => reply s2 r st ws

/-- A request that ends at once with a status and no payload. -/
def ends (s : State) (status : Nat) : MbOut := (s, some (status, []))

/-- The stage of the request in hand moves on. -/
def stage (s : State) (n : Nat) : State := { s with panel := { s.panel with mbStage := n } }

/-- INVALID_MAILBOX_REQUEST: it fails with INVALID. -/
def execInvalidMailboxRequest (s : State) : Result :=
  goOn (match s.ev with
    | .invalidMailboxRequest fn => mailbox fn (fun _ s => ends s 1) s
    | _ => s)

/-- A context that a function created (R382). -/
def mbCtx (s : State) (fn ctx : Nat) : Bool := s.ctxs.any (fun c => c.ctx = ctx && c.fn = fn)

/-- The islands of a mask, ascending. -/
def maskIsls (m : Nat) : List Nat := onesOf m 64

/-- The islands of a context. -/
def ctxIsls (s : State) (ctx : Nat) : List Nat := (s.ctxs.filter (fun c => c.ctx = ctx)).map (fun c => c.isl)

/-- Every island of a mask lies in a context's partition and is in service. -/
def islsOk (s : State) (ctx m : Nat) : Bool := (maskIsls m).all (fun i => islandServes s i && (s.ctx? i ctx).isSome)

/-! ### Creating a context (R384-R386) -/

/-- An island block of a context descriptor. -/
def readBlock (s : State) (a : Nat) (ctx fn : Nat) (prot : Bool) (mask : Nat) : CtxIsl :=
  let w := fun (k : Nat) => hostWord s (a + 8 * k)
  { isl := bitsOf (w 0) 7 0, ctx := ctx, fn := fn, slot := 0, root := w 1, tba := BitVec.ofNat 64 (w 2), ctba := BitVec.ofNat 64 (w 3)
    centry := BitVec.ofNat 64 (w 4), frbase := BitVec.ofNat 64 (w 5), frlog2 := bitsOf (w 0) 15 8, tlbase := BitVec.ofNat 64 (w 6)
    qbase := BitVec.ofNat 64 (w 7), qsize := bitsOf (w 0) 63 32, ttbase := BitVec.ofNat 64 (w 8), splbase := BitVec.ofNat 64 (w 9)
    splsz := bitsOf (w 11) 31 0, savbase := BitVec.ofNat 64 (w 10), savsz := bitsOf (w 11) 63 32, prot := prot, islmask := BitVec.ofNat 64 mask
    suspended := false, dead := false, report := [] }

/-- The fields and alignments of a block (R384). -/
def blockOk (s : State) (a : Nat) (c : CtxIsl) : Bool :=
  bitsOf (hostWord s a) 31 16 = 0 && c.root % 4096 = 0 && decide (c.root < 2 ^ 48) && c.centry.toNat % 4 = 0 && c.frbase.toNat % 4096 = 0
    && decide (4 ≤ c.frlog2) && decide (c.frlog2 ≤ 20) && c.tlbase.toNat % 16384 = 0 && c.qbase.toNat % 65536 = 0 && decide (1 ≤ c.qsize)
    && c.ttbase.toNat % 4096 = 0 && c.splbase.toNat % 65536 = 0 && c.savbase.toNat % 65536 = 0

/-- Why a region cannot be used: 0 where every byte of it is mapped with W set and NP clear and may be reached, else the status INVALID or
SCRUB_PENDING. Pages of the spill region may instead be pageable (R385, R407, R409). -/
def regionStatus (s : State) (c : CtxIsl) (pageable : Bool) (stop : Nat) : Nat → Nat → Nat
  | 0, va => if stop ≤ va then 0 else 1
  | n + 1, va =>
    if stop ≤ va then 0
    else if 2 ^ 64 < stop then 1
    else match walk s c.isl va (Config.freeChoice s.fresh) 5 c.root with
      | .leaf pb sz vb _ p =>
        let lo := frameOf (pb + (va - vb))
        let hi := frameOf (pb + (min stop (vb + sz) - vb) - 1)
        if s.frameInfo.any (fun f => f.isl = c.isl && f.q && decide (lo ≤ f.idx) && decide (f.idx ≤ hi)) then 8
        else if !bitOf p 2 || bitOf p 11 || !reachOk s c.isl c.ctx c.prot pb sz then 1
        else regionStatus s c pageable stop n (vb + sz)
      | .notPresent => if pageable then regionStatus s c pageable stop n (va / 4096 * 4096 + 4096) else 1
      | .absent => 1
      | .malformed => 1
      | .bad => 1

/-- The status of a region by its base and its bytes. -/
def region (s : State) (c : CtxIsl) (pageable : Bool) (base : Word64) (n : Nat) : Nat :=
  regionStatus s c pageable (base.toNat + n) (n / 4096 + 2) base.toNat

/-- An entry point that is not zero is mapped with X (R385). -/
def entryOk (s : State) (c : CtxIsl) (a : Word64) : Bool :=
  a = 0 || (match walkCtx s c a.toNat with
    | .leaf _ _ _ _ p => bitOf p 3
    | .absent => false
    | .notPresent => false
    | .malformed => false
    | .bad => false)

/-- Bytes of a MiB. -/
def mib : Nat := 2 ^ 20

/-- The first status other than OK that a block's regions and entry points give (R385). -/
def blockStatus (s : State) (c : CtxIsl) : Nat :=
  (([region s c false c.frbase (64 + 64 * 2 ^ c.frlog2), region s c false c.tlbase 16384, region s c false c.qbase (c.qsize * mib),
     region s c false c.ttbase 163840, region s c true c.splbase (c.splsz * mib), region s c false c.savbase (c.savsz * mib)]
    ++ [c.centry, c.tba, c.ctba].map (fun a => if entryOk s c a then 0 else 1)).find? (fun n => n ≠ 0)).getD 0

/-- The lowest free context slot of an island (R386). -/
def freeSlot (s : State) (isl : Nat) : Option Nat :=
  (List.range 16).find? (fun k => !s.ctxs.any (fun c => c.isl = isl && c.slot = k))

/-- The lowest free key slot of an island (R408). -/
def freeKey (s : State) (isl : Nat) : Option Nat := (List.range 64).find? (fun k => !(s.keySlot isl k).v)

/-- The islands of a context lie in one partition, which the function's other contexts share: each admits every other one (R404). -/
def onePartition (s : State) (fn mask : Nat) : Bool :=
  let all := (maskIsls mask ++ (s.ctxs.filter (fun c => c.fn = fn)).flatMap (fun c => maskIsls c.islmask.toNat)).eraseDups
  all.all (fun i => all.all (fun j => i = j || (s.island i).fwmask.getLsbD j))

/-- A range of virtual addresses of a block written with zeros, 8 bytes at each offset of a list. -/
def zeroWords (s : State) (c : CtxIsl) (base : Nat) (offs : List Nat) : State :=
  offs.foldl (fun s o => match peek s c.isl c.ctx (base + o) with
    | none => s
    | some pa => l2Put (l2Used s c.isl c.ctx 8) c.isl (cellsFrom pa (List.replicate 8 0))) s

/-- The offsets of the timeline words (R123). -/
def timelineOffs : List Nat :=
  (List.range 128).flatMap (fun c => (List.range 5).map (fun t => 64 * c + 8 * t))
    ++ (List.range 2).flatMap (fun d => (List.range 4).map (fun b => 8192 + 32 * d + 8 * b))

/-- A context set up on one island: its slot and key, an empty ring and timelines at 0, and the Carters of its cores (R386, R408, R424). -/
def openCtx (s : State) (c : CtxIsl) : State :=
  let slot := (freeSlot s c.isl).getD 0
  let s1 := { s with ctxs := s.ctxs ++ [{ c with slot := slot }] }
  let m := s1.meter c.isl
  let s2 := (s1.updIsland c.isl (fun i => { i with
    ctxId := spSet i.ctxId slot (BitVec.ofNat 64 c.ctx), heldCores := i.heldCores.filter (fun h => h.1 ≠ c.ctx) })).setMeter
    { m with ctxen := spSet m.ctxen slot 0, fraction := spSet m.fraction (32 + slot) 0 }
  let s3 := if c.prot then
      { s2 with keys := { isl := c.isl, slot := (freeKey s2 c.isl).getD 0, v := true, ctx := c.ctx }
          :: s2.keys.filter (fun k => !(k.isl = c.isl && k.slot = (freeKey s2 c.isl).getD 0)) }
    else s2
  let s4 := zeroWords (zeroWords s3 c c.frbase.toNat [0]) c c.tlbase.toNat timelineOffs
  ((s4.cores.filter (fun x => x.isl = c.isl && x.v && x.ctx = c.ctx)).map (fun x => x.core)).foldl
    (fun s k => grantCarter s c.isl k c.ctx) s4

/-- A request to create a context: the checks in the order VERSION, INVALID, CTX_LIVE, ABSENT, then those of the regions, then NOSPACE. -/
def createCtx (r : MbReq) (s : State) : MbOut :=
  let a := r.word 1
  let len := r.word 2
  let h := hostWord s a
  let w1 := hostWord s (a + 8)
  let n := bitsOf h 31 24
  let ctx := bitsOf h 63 48
  let prot := bitOf h 40
  let blocks := (List.range n).map (fun i => readBlock s (a + 64 + 96 * i) ctx r.fn prot w1)
  let good := n = (maskIsls w1).length && n ≠ 0 && len = 64 + 96 * n && ctx ≠ 0 && bitsOf h 23 16 = 0 && bitsOf h 39 32 = 0
    && bitsOf h 47 41 = 0 && (List.range 6).all (fun k => hostWord s (a + 16 + 8 * k) = 0)
    && decide (blocks.map (fun b => b.isl) = maskIsls w1)
    && blocks.zipIdx.all (fun b => blockOk s (a + 64 + 96 * b.2) b.1)
  if len < 64 then ends s 1
  else if bitsOf h 7 0 ≠ 1 then ends s 5
  else if !good then ends s 1
  else if s.ctxs.any (fun c => c.ctx = ctx) then ends s 2
  else if !(blocks.all (fun b => islandServes s b.isl)) || !onePartition s r.fn w1 then ends s 7
  else match (blocks.map (blockStatus s)).find? (fun x => x ≠ 0) with
    | some x => ends s x
    | none =>
      if blocks.any (fun b => (freeSlot s b.isl).isNone || (prot && (freeKey s b.isl).isNone)) then ends s 4
      else ends (blocks.foldl openCtx s) 0

def execCtxCreate (s : State) : Result :=
  goOn (match s.ev with
    | .ctxCreate fn => mailbox fn createCtx s
    | _ => s)

/-! ### Destroying a context (R388) -/

/-- A paused waybill of a context, or one that a fault has stopped, is abandoned: no page is made present for it any more. -/
def abandonStopped (s : State) (ctx : Nat) : State :=
  ((s.waybills.filter (fun w => w.ctx = ctx && (w.paused || w.fault.isSome))).map (fun w => w.uid)).foldl abandonWaybill s

/-- A context's work on an island stops as under KILL, its images and queued records go (R388), and its cores are recorded for a quarantine
(R409). -/
def destroyOn (s : State) (isl ctx : Nat) : State :=
  let i := s.island isl
  let s1 := discardStop s isl ctx
  s1.updIsland isl (fun j => { j with discard := i.discard })

/-- A context's work stops on every island, its launches in the given way. -/
def destroyStart (s : State) (ctx : Nat) (close : State → Nat → State) : State :=
  let s1 := (ctxIsls s ctx).foldl (fun s i => destroyOn s i ctx) s
  let ls := (s1.launches.filter (fun l => l.ctx = ctx && l.st ≠ 2)).map (fun l => l.uid)
  abandonStopped (ls.foldl close s1) ctx

/-- What the destruction of a context waits for: waybills already started, and its remote operations (R342, R377). -/
def destroyWaits (s : State) (ctx : Nat) : Bool :=
  s.waybills.any (fun w => w.ctx = ctx) || s.frames.any (fun f => f.ctx = ctx && f.phase = 0) || s.atoms.any (fun a => a.ctx = ctx)
    || s.ord.late.any (fun a => a.ctx = ctx)

/-- A protected context's key is zeroised, and its frames and cores go into quarantine (R388, R408, R409). -/
def protectedEnd (s : State) (isl ctx : Nat) : State :=
  let k := (List.range 64).find? (fun k => (s.keySlot isl k).v && (s.keySlot isl k).ctx = ctx)
  let s0 := { s with l1 := s.l1.filter (fun l => !(l.isl = isl && l.ctx = ctx)) }
  let s1 := match k with
    | none => s0
    | some n => zeroiseKey s0 isl n
  let s2 := { s1 with frameInfo := s1.frameInfo.map (fun (f : FrameInfo) =>
    if f.isl = isl ∧ f.owner = ctx then { f with owner := 0, q := true } else f) }
  quarantineCores s2 isl ctx

/-- A context goes from an island: its cores return to the pool, its slot is free (R386, R388). -/
def shutCtx (s : State) (isl ctx : Nat) : State :=
  let prot := isProt s isl ctx
  let s1 := if prot then s else dropLines s (fun l => l.isl = isl && l.ctx = ctx)
  let s2 := { s1 with cores := s1.cores.map (fun (c : CoreCtx) => if c.isl = isl ∧ c.ctx = ctx then { c with v := false } else c) }
  let s3 := if prot then protectedEnd s2 isl ctx else s2
  { s3 with
    ctxs := s3.ctxs.filter (fun c => !(c.isl = isl && c.ctx = ctx))
    timelines := s3.timelines.filter (fun t => !(t.isl = isl && t.ctx = ctx)) }

/-- A context goes from an island, and what a protected one held is scrubbed (R388, R410). -/
def closeCtx (s : State) (isl ctx : Nat) : State :=
  let s1 := shutCtx s isl ctx
  if isProt s isl ctx then askScrub s1 isl else s1

/-- Invalidations of a context's identifier begun on some islands. -/
def startInvals (s : State) (isls : List Nat) (ctx : Option Nat) (base len : Nat) : State :=
  isls.foldl (fun s i =>
    let q := startInval s i ctx base len
    { q.1 with panel := { q.1.panel with mbInvs := q.2 :: q.1.panel.mbInvs } }) s

/-- Every invalidation of the request in hand has counted its acknowledgements. -/
def invalsDone (s : State) : Bool := s.panel.mbInvs.all (fun u => !s.invals.any (fun n => n.uid = u))

def destroyCtx (r : MbReq) (s : State) : MbOut :=
  let ctx := r.word 1
  if 2 ^ 16 ≤ ctx then ends s 1
  else if !mbCtx s r.fn ctx then ends s 3
  else
    let s1 := if s.panel.mbStage = 0 then stage (destroyStart s ctx (fun s u => endLaunch s u 7 0)) 1 else abandonStopped s ctx
    if s1.panel.mbStage = 1 && destroyWaits s1 ctx then (s1, none)
    else
      let isls := ctxIsls s1 ctx
      let s2 := if s1.panel.mbStage = 1 then
          stage (startInvals (isls.foldl (fun s i => freeCtxState s i ctx) s1) isls (some ctx) 0 (2 ^ 64)) 2
        else s1
      if !invalsDone s2 then (s2, none) else ends (isls.foldl (fun s i => closeCtx s i ctx) s2) 0

def execCtxDestroy (s : State) : Result :=
  goOn (match s.ev with
    | .ctxDestroy fn => mailbox fn destroyCtx s
    | _ => s)

/-! ### Suspending and resuming (R389-R391) -/

/-- An agent stops at an instruction boundary until it is saved (R192); one between a run of hints and its target goes on to it first (R334). -/
def Thread.frozen (t : Thread) : Thread :=
  if t.tr.report || t.midRun then t
  else match t.sch.life with
    | .active => { t with sch := { t.sch with life := .swapped } }
    | .inactive => { t with sch := { t.sch with life := .swapped } }
    | .parked => { t with sch := { t.sch with life := .swapped } }
    | .swapped => t
    | .ended => t
    | .idle => t
    | .halted => t
    | .trapStopped => t

/-- An agent of a context on an island. -/
def ofCtx (isl ctx : Nat) (t : Thread) : Bool := t.id.kind ≠ .hub && t.id.isl = isl && t.id.ctx = ctx

/-- A context's dispatch stops on an island, and its agents with it. -/
def freeze (s : State) (isl ctx : Nat) : State :=
  let s1 := s.mapT (fun t => if ofCtx isl ctx t then t.frozen else t)
  { s1 with ctxs := s1.ctxs.map (fun (c : CtxIsl) => if c.isl = isl ∧ c.ctx = ctx then { c with suspended := true } else c) }

/-- The coaches of a context that are resident on an island. -/
def residentOn (s : State) (isl ctx : Nat) : List Coach := s.coaches.filter (fun c => c.isl = isl && c.ctx = ctx && !c.swapped)

/-- The KiB of a core's image (R389). -/
def coreKib (s : State) (isl ctx core : Nat) : Nat := kibOf s isl core ((residentOn s isl ctx).filter (fun c => c.core = core)) true

/-- The cores of a context on an island that have no core image yet. -/
def coresToSave (s : State) (isl ctx : Nat) : List Nat :=
  (heldCores s isl ctx).filter (fun k => !s.images.any (fun i => i.isl = isl && i.core = k && i.ctx = ctx && i.coach = 0))

/-- Where the images of the cores of a context go on an island, if the save area holds them. -/
def corePlan (s : State) (isl ctx : Nat) : Option (List (Nat × Nat)) := areaPlan s isl ctx ((coresToSave s isl ctx).map (coreKib s isl ctx))

/-- The save area of an island holds the images of every core of the context. -/
def areaFits (s : State) (isl ctx : Nat) : Bool := (corePlan s isl ctx).isSome

/-- The image of a core, at its place in the save area; its parts hold what is its coaches' (R389). -/
def coreImage (s : State) (isl ctx : Nat) (core : Nat × Nat × Nat) : Image :=
  let cs := (s.images.filter (fun i => i.isl = isl && i.core = core.1 && i.ctx = ctx && i.kind = 2)).flatMap (fun i =>
    s.coaches.filter (fun c => c.uid = i.coach))
  let ts := teamsOf s isl core.1 (cs.map (fun c => c.uid))
  { isl := isl, core := core.1, ctx := ctx, kind := 2, coach := 0, spot := core.2.1, kib := core.2.2, seed := s.fresh, time := s.time
    replies := repliesOf s ts, stores := [], marks := [], counters := [], chains := [], streams := [], rows := rowsOf ts, parts := partsOf cs }

/-- A core's image added and written. -/
def putCoreImage (isl ctx : Nat) (s : State) (core : Nat × Nat × Nat) : State :=
  let i := coreImage s isl ctx core
  writeImage { s with images := s.images ++ [i], fresh := s.fresh + 1024 * i.kib } i

/-- A context's Carters of an island are saved with their heat (R298, R389). -/
def saveCarters (s : State) (isl ctx : Nat) : State :=
  let cs := s.threads.filter (fun t => ofCtx isl ctx t && t.id.kind = .carter)
  (cs.foldl dropHeat s).mapT (fun t => if ofCtx isl ctx t && t.id.kind = .carter && t.sch.life = .swapped then t.saved s.cycle else t)

/-- What a suspension waits for on an island: copies, fills and multicasts that have started, and teams that a fatal error has stopped. -/
def suspendWaits (s : State) (isl ctx : Nat) : Bool :=
  s.waybills.any (fun w => w.isl = isl && w.ctx = ctx && w.moves && !(parseWb w.raw).isStream)
    || s.threads.any (fun t => ofCtx isl ctx t && (t.tr.report || t.sch.life = .halted || t.midRun))

/-- A resumed Carter: it goes on, or waits on, or stays idle; its heat is requested again first (R298, R391). -/
def Thread.carterBack (t : Thread) : Thread :=
  if t.sch.life = .swapped then { t with sch := { t.sch with life := if t.sch.park = .none then .active else .parked } } else t

/-- A suspension of an island that saved nothing ends: its agents go on (R389). -/
def thaw (s : State) (isl ctx : Nat) : State :=
  let back := fun (t : Thread) =>
    if !ofCtx isl ctx t || t.sch.life ≠ .swapped || (s.coach? t.id.coach).any (fun c => c.swapped) then t
    else if t.id.kind = .carter then t.carterBack
    else { t with sch := { t.sch with life := if t.sch.park = .none then .inactive else .parked } }
  let s1 := { s with ctxs := s.ctxs.map (fun (c : CtxIsl) => if c.isl = isl ∧ c.ctx = ctx then { c with suspended := false } else c) }
  (owePushes (((heldCores s isl ctx).foldl (fun s k => s.oweOnce (.teamAdmission isl k)) (s1.mapT back))) (fun p => p.isl = isl && p.ctx = ctx)).oweOnce
    (.coachPlacement isl)

/-- Every core of a context on an island saved as core images; where its save area holds them no more, its coaches stay resident (R389). A save area that
stops translating ends the context (R385). -/
def saveIsland (s : State) (isl ctx : Nat) : State :=
  let plan := (corePlan s isl ctx).getD []
  if ((s.ctx? isl ctx).map (fun c => c.dead)).getD true then s
  else if !areaFits s isl ctx then thaw s isl ctx
  else if areaMapped s isl ctx plan then
    let s1 := (residentOn s isl ctx).foldl (fun s c => saveCoach s c 2) s
    saveCarters (((coresToSave s isl ctx).zip plan).foldl (putCoreImage isl ctx) s1) isl ctx
  else regionLost s isl ctx

/-- A context is suspended on an island. -/
def suspendedOn (s : State) (isl ctx : Nat) : Bool := ((s.ctx? isl ctx).map (fun c => c.suspended)).getD false

def suspendCtx (r : MbReq) (s : State) : MbOut :=
  let ctx := r.word 1
  let isls := maskIsls (r.word 2)
  if 2 ^ 16 ≤ ctx then ends s 1
  else if !mbCtx s r.fn ctx then ends s 3
  else if !islsOk s ctx (r.word 2) then ends s 7
  else
    let s1 := if s.panel.mbStage ≠ 0 then s
      else
        let new := isls.filter (fun i => !suspendedOn s i ctx)
        let fit := new.filter (fun i => areaFits s i ctx)
        stage (fit.foldl (fun s i => freeze s i ctx) s) (if fit = new then 1 else 2)
    let on := isls.filter (fun i => suspendedOn s1 i ctx)
    if on.any (fun i => suspendWaits s1 i ctx) then (on.foldl (fun s i => freeze s i ctx) s1, none)
    else
      let s2 := on.foldl (fun s i => saveIsland s i ctx) s1
      ends s2 (if s1.panel.mbStage = 2 || on.any (fun i => (s2.ctx? i ctx).any (fun c => !c.dead && !c.suspended)) then 4 else 0)

def execCtxSuspend (s : State) : Result :=
  goOn (match s.ev with
    | .ctxSuspend fn => mailbox fn suspendCtx s
    | _ => s)

/-- The coaches of a context that an island holds in core images. -/
def imagedOn (s : State) (isl ctx : Nat) : List Coach :=
  s.coaches.filter (fun c => c.isl = isl && c.ctx = ctx && ((s.image? c.uid).map (fun i => decide (i.kind = 2))).getD false)

/-- The faults that a Carter held while it was saved are taken. -/
def takeHeldFaults (s : State) (isl ctx : Nat) : State :=
  (s.threads.filter (fun t => ofCtx isl ctx t && t.id.kind = .carter)).foldl (fun s t => if t.tr.handler then s else takeHeld s t.id.isl t.id.core) s

/-- The core images of a context on an island. -/
def coreImages (s : State) (isl ctx : Nat) : List Image := s.images.filter (fun i => i.isl = isl && i.ctx = ctx && i.kind = 2 && i.coach = 0)

/-- A context restored on an island, and its dispatch, pushes and waybills go on (R391). A save area that stops translating ends the context (R385). -/
def resumeIsland (s : State) (isl ctx : Nat) : State :=
  if !areaMapped s isl ctx ((coreImages s isl ctx).map (fun i => (i.spot, i.kib))) then regionLost s isl ctx
  else
  let s0 := readImages s (coreImages s isl ctx)
  let s1 := (imagedOn s isl ctx).foldl (restoreCoach s0) s0
  let s2 := { s1 with
    images := s1.images.filter (fun i => !(i.isl = isl && i.ctx = ctx && i.kind = 2))
    ctxs := s1.ctxs.map (fun (c : CtxIsl) => if c.isl = isl ∧ c.ctx = ctx then { c with suspended := false } else c) }
  let cs := s2.threads.filter (fun t => ofCtx isl ctx t && t.id.kind = .carter)
  let s3 := askHeat (s2.mapT (fun t => if ofCtx isl ctx t && t.id.kind = .carter then t.carterBack else t)) cs
  let s4 := (s3.waybills.filter (fun w => w.isl = isl && w.ctx = ctx && w.moves)).foldl (fun s w =>
    if (parseWb w.raw).isStream then s.oweOnce (.streamBlockPush w.uid)
    else match nextElem w (parseWb w.raw) with
      | none => s
      | some k => s.oweOnce (.waybillElementLand w.uid k)) s3
  let s5 := (s4.coaches.filter (fun c => c.isl = isl && c.ctx = ctx && c.swapped)).foldl (fun s c => s.oweOnce (.coachRestore c.uid)) s4
  (owePushes (takeHeldFaults s5 isl ctx) (fun p => p.isl = isl && p.ctx = ctx)).oweOnce (.coachPlacement isl)

def resumeCtx (r : MbReq) (s : State) : MbOut :=
  let ctx := r.word 1
  let isls := (maskIsls (r.word 2)).filter (fun i => suspendedOn s i ctx)
  if 2 ^ 16 ≤ ctx then ends s 1
  else if !mbCtx s r.fn ctx then ends s 3
  else if !islsOk s ctx (r.word 2) then ends s 7
  else if isls.any (fun i => (coreImages s i ctx).any (fun m => areaMapped s i ctx [(m.spot, m.kib)] && imageMajor s m ≠ 1)) then ends s 5
  else if isls.any (fun i => (coreImages s i ctx).any (fun m => areaMapped s i ctx [(m.spot, m.kib)] && imageReserved s m)) then ends s 1
  else if isls.any (fun i => (imagedOn s i ctx).any (fun c => !noReply s c)) then (s, none)
  else ends (isls.foldl (fun s i => resumeIsland s i ctx) s) 0

def execCtxResume (s : State) : Result :=
  goOn (match s.ev with
    | .ctxResume fn => mailbox fn resumeCtx s
    | _ => s)

/-! ### Translation (R93, R396, R397) -/

/-- INVAL: a range, a context whole, or all; OK once each named island has counted its acknowledgements. -/
def invalidate (r : MbReq) (s : State) : MbOut :=
  let ctx := bitsOf (r.word 1) 15 0
  let kind := bitsOf (r.word 1) 17 16
  let isls := maskIsls (r.word 2)
  let all := decide (kind = 2)
  if s.panel.mbStage = 1 then (if invalsDone s then ends s 0 else (s, none))
  else if bitsOf (r.word 1) 63 18 ≠ 0 || kind = 3 || (ctx = 0xFFFF && r.fn ≠ 0) || (all && ctx ≠ 0xFFFF) then ends s 1
  else if !all && !mbCtx s r.fn ctx then ends s 3
  else if (if all then !(isls.all (islandServes s)) else !islsOk s ctx (r.word 2)) then ends s 7
  else
    let base := if kind = 0 then r.word 3 else 0
    let len := if kind = 0 then r.word 4 else 2 ^ 64
    (stage (startInvals s isls (if all then none else some ctx) base len) 1, none)

def execInval (s : State) : Result :=
  goOn (match s.ev with
    | .inval fn => mailbox fn invalidate s
    | _ => s)

/-- What a waiting access says about a page: the agent parked for it. -/
def parkedOn (page : Nat) (t : Thread) : Bool :=
  match t.sch.park with
  | .page v => v.toNat / 4096 = page
  | .none => false
  | .word _ _ _ _ _ _ => false
  | .timeline _ _ _ _ _ _ => false
  | .counter _ _ _ _ => false
  | .launch => false
  | .fuse _ _ _ _ => false
  | .group _ _ _ _ => false
  | .arrive _ _ => false
  | .yard => false

/-- The agent waits on a word that does not translate. -/
def unwatched (t : Thread) : Bool :=
  match t.sch.park with
  | .word _ key _ _ _ _ => key = noKey
  | .timeline _ key _ _ _ _ => key = noKey
  | .none => false
  | .counter _ _ _ _ => false
  | .launch => false
  | .fuse _ _ _ _ => false
  | .group _ _ _ _ => false
  | .arrive _ _ => false
  | .yard => false
  | .page _ => false

/-- What waited for a page of a context on an island tries again: agents, waybills, pushes, Bellows work, joins and tiles (R94, R397). -/
def pageDone (s : State) (isl ctx page : Nat) : State :=
  let s0 := rewatch s (fun t va => ofCtx isl ctx t && va / 4096 = page && unwatched t)
  let s1 := oweWakes s0 (s0.uidsOf (fun t => ofCtx isl ctx t && parkedOn page t))
  let ws := s1.waybills.filter (fun w => w.isl = isl && w.ctx = ctx && w.paused && w.faultAddr.toNat / 4096 = page)
  let s2 := ws.foldl (fun s w =>
    let s' := s.setWaybill { w with paused := false }
    if (parseWb w.raw).isStream then s'.oweOnce (.streamBlockPush w.uid)
    else match nextElem w (parseWb w.raw) with
      | none => s'
      | some k => s'.oweOnce (.waybillElementLand w.uid k)) s1
  let hit := fun (p : Push) => p.isl = isl && p.ctx = ctx && p.paused && p.addr.toNat / 4096 = page
  let s3 := owePushes { s2 with pushes := s2.pushes.map (fun p => if hit p then { p with paused := false } else p) }
    (fun p => p.isl = isl && p.ctx = ctx)
  let s4 := (s3.firings.filter (fun f => f.isl = isl && f.ctx = ctx)).foldl (fun s f =>
    if f.sent then s.oweOnce (.collectiveComplete isl ctx f.entry) else s.oweOnce (.bellowsSend isl ctx f.entry)) s3
  let s5 := (s4.frames.filter (fun f => f.tgt = isl && f.ctx = ctx && f.kind = 4 && f.phase = 2)).foldl
    (fun s f => s.oweOnce (.frameReceive f.uid)) s4
  (s5.tasks.filter (fun k => k.isl = isl && k.ctx = ctx && k.released && !k.done)).foldl (fun s k => s.oweOnce (.joinDecrement k.uid)) s5

/-- PF_DONE: the driver has serviced a page; what waited for it tries again. -/
def pfDone (r : MbReq) (s : State) : MbOut :=
  let ctx := bitsOf (r.word 1) 15 0
  let isl := bitsOf (r.word 1) 23 16
  if bitsOf (r.word 1) 63 24 ≠ 0 then ends s 1
  else if !mbCtx s r.fn ctx then ends s 3
  else if (s.ctx? isl ctx).isNone then ends s 7
  else ends (pageDone s isl ctx (r.word 2 / 4096)) 0

def execPfDone (s : State) : Result :=
  goOn (match s.ev with
    | .pfDone fn => mailbox fn pfDone s
    | _ => s)

/-! ### The topology table (R392-R395) -/

/-- A topology entry as read. -/
def Topo.word (t : Topo) : Nat := t.site % 256 + t.state % 4 * 2 ^ 16 + t.visl % 256 * 2 ^ 24 + t.phase % 256 * 2 ^ 32

/-- The populated sites. -/
def populated (s : State) : Nat := (s.panel.topo.filter (fun t => decide (t.site < 48) && t.visl ≠ 255)).length

/-- The 400 bytes of the topology table. -/
def topoBytes (s : State) : List Byte :=
  leBytes 8 (1 + populated s * 2 ^ 16 + Config.panel % 256 * 2 ^ 24 + s.panel.gen.toNat * 2 ^ 32)
    ++ s.panel.topo.flatMap (fun t => leBytes 8 t.word)

def execTopoRead (s : State) : Result :=
  goOn (match s.ev with
    | .topoRead fn => mailbox fn (fun r s => ends (hostPut s (r.word 1) (topoBytes s)) 0) s
    | _ => s)

/-- The table changed by a function of its entries; GEN rises (R392). -/
def changeTopo (s : State) (f : Topo → Topo) : State :=
  { s with panel := { s.panel with topo := s.panel.topo.map f, gen := s.panel.gen + 1 } }

/-- A virtual island's state changed (R392). -/
def setTopoState (s : State) (v st : Nat) : State :=
  changeTopo s (fun t => if t.site < 48 ∧ t.visl = v then { t with state := st } else t)

/-- An island is fenced, and FENCED is posted with its reason (R421, R422). -/
def fenced (s : State) (v reason : Nat) : State :=
  let s1 := setTopoState s v 2
  postEvent s1 0 0x84 v 0 [BitVec.ofNat 64 reason, s1.panel.gen.zeroExtend 64]

/-- 16-bit fields packed into dwords. -/
def pack16 : List Nat → List Nat
  | [] => []
  | a :: r => match r with
    | [] => [a]
    | b :: r2 => match r2 with
      | [] => [a + b * 2 ^ 16]
      | c :: r3 => match r3 with
        | [] => [a + b * 2 ^ 16 + c * 2 ^ 32]
        | d :: r4 => (a + b * 2 ^ 16 + c * 2 ^ 32 + d * 2 ^ 48) :: pack16 r4

/-- REMAP_BUSY with the contexts that name an island (R394). -/
def remapBusy (s : State) (ns : List Nat) : MbOut := (s, some (6, ns.length :: pack16 (ns.take 32)))

/-- The contexts that name one of some islands. -/
def namersOf (s : State) (vs : List Nat) : List Nat := (vs.flatMap (namers s)).eraseDups

/-- Remote operations of the contexts whose partition names one of some islands are not yet performed (R342, R395). -/
def forcedWaits (s : State) (vs : List Nat) : Bool :=
  s.frames.any (fun f => f.phase = 0 && s.ctxs.any (fun c => c.ctx = f.ctx && vs.any (fun v => c.islmask.getLsbD v)))

/-- A change of the table that touches some islands: refused while a context names one, forced with FORCE (R394, R395). -/
def changeRequest (vs : List Nat) (force : Bool) (act : State → State) (s : State) : MbOut :=
  if s.panel.mbStage = 0 then
    let ns := namersOf s vs
    if ns ≠ [] && !force then remapBusy s ns
    else
      let s1 := if force then vs.foldl forcedEnd s else s
      if force && forcedWaits s1 vs then (stage s1 1, none) else ends (act s1) 0
  else if forcedWaits s vs then (s, none)
  else ends (act s) 0

/-- TOPO_FENCE: an island is fenced, or returned to service, which is never refused (R394, R422). -/
def topoFence (r : MbReq) (s : State) : MbOut :=
  let p := r.word 1
  let v := bitsOf p 7 0
  if r.fn ≠ 0 || bitsOf p 15 9 ≠ 0 || bitsOf p 63 17 ≠ 0 then ends s 1
  else match topoOf s v with
    | none => ends s 7
    | some t =>
      if bitOf p 8 then (if t.state = 2 then ends s 0 else changeRequest [v] (bitOf p 16) (fun s => fenced s v 3) s)
      else if t.state = 2 then ends (setTopoState s v 1) 0
      else ends s 0

def execTopoFence (s : State) : Result :=
  goOn (match s.ev with
    | .topoFence fn => mailbox fn topoFence s
    | _ => s)

/-- A number that two others have exchanged. -/
def swapNat (a b n : Nat) : Nat := if n = a then b else if n = b then a else n

/-- A sparse map with its keys changed, in its canonical form. -/
def mapKeys {w : Nat} (f : Nat → Nat) (m : Sparse w) : Sparse w := m.foldl (fun r c => spSet r (f c.1) c.2) []

/-- An island's record under another number. -/
def Island.moved (f g : Nat → Nat) (i : Island) : Island := { i with isl := f i.isl, marks := i.marks.map g }

/-- Two islands exchange their virtual numbers: everything that lies on their sites goes with its site (R394). -/
def exchange (a b : Nat) (s : State) : State :=
  let f := swapNat a b
  let m := fun (k : Nat) => f (k / 2 ^ 48) * 2 ^ 48 + k % 2 ^ 48
  let g := fun (k : Nat) => f (k / 2 ^ 35) * 2 ^ 35 + k % 2 ^ 35
  let s0 := changeTopo s (fun t => if t.site < 48 then { t with visl := f t.visl } else t)
  let s1 := s0.mapT (fun t => if t.id.kind = .hub then t else { t with id := { t.id with isl := f t.id.isl } })
  { s1 with
    mem := mapKeys m s1.mem, stores := mapKeys g s1.stores
    l1 := s1.l1.map (fun (x : L1Line) => { x with isl := f x.isl })
    victims := s1.victims.map (fun (x : Victim) => { x with isl := f x.isl })
    tlb := s1.tlb.map (fun (x : TlbEntry) => { x with isl := f x.isl })
    timelines := s1.timelines.map (fun (x : Timeline) => { x with isl := f x.isl })
    counters := s1.counters.map (fun (x : Counter) => { x with isl := f x.isl })
    ctxs := s1.ctxs.map (fun (x : CtxIsl) => { x with isl := f x.isl })
    bindings := s1.bindings.map (fun (x : Binding) => { x with isl := f x.isl })
    groups := s1.groups.map (fun (x : Group) => { x with isl := f x.isl })
    mcasts := s1.mcasts.map (fun (x : Mcast) => { x with isl := f x.isl })
    firings := s1.firings.map (fun (x : Firing) => { x with isl := f x.isl })
    tiles := s1.tiles.map (fun (x : Tile) => { x with isl := f x.isl })
    invals := s1.invals.map (fun (x : Inval) => { x with isl := f x.isl })
    cores := s1.cores.map (fun (x : CoreCtx) => { x with isl := f x.isl })
    frameInfo := s1.frameInfo.map (fun (x : FrameInfo) => { x with isl := f x.isl })
    keys := s1.keys.map (fun (x : KeySlot) => { x with isl := f x.isl })
    islands := s1.islands.map (Island.moved f g)
    meters := s1.meters.map (fun (x : Meter) => { x with isl := f x.isl })
    atoms := s1.atoms.map (fun (x : AtomReq) => { x with isl := f x.isl, key := m x.key })
    frames := s1.frames.map (fun (x : Frame) =>
      { x with tgt := if x.panel = Config.panel then f x.tgt else x.tgt, isl := if x.home = Config.panel then f x.isl else x.isl })
    due := s1.due.map (Event.moved f), ord := Order.none
    panel := { s1.panel with
      fencing := s1.panel.fencing.map (fun x => (f x.1, x.2)), engines := s1.panel.engines.map (fun x => (f x.1, x.2)) } }

/-- TOPO_REMAP: the VISL of two sites exchanged. -/
def topoRemap (r : MbReq) (s : State) : MbOut :=
  let p := r.word 1
  let a := bitsOf p 7 0
  let b := bitsOf p 15 8
  if r.fn ≠ 0 || bitsOf p 63 17 ≠ 0 then ends s 1
  else if (topoOf s a).isNone || (topoOf s b).isNone then ends s 7
  else changeRequest [a, b] (bitOf p 16) (exchange a b) s

def execTopoRemap (s : State) : Result :=
  goOn (match s.ev with
    | .topoRemap fn => mailbox fn topoRemap s
    | _ => s)

end Sys2Proof.Machine
end

