-- ==== Sys2Proof/Machine/Health.lean ====
section
/-!
DEFINITION. The hub and the health of the panel: hub cores woken (R381), errors, temperature and link windows (R413, R418-R422), the firmware image
and the hub reset (R415, R423), attestation, and the supply (R393, R415, R418).
-/
namespace Sys2Proof.Machine

/-! ### Hub cores (R380, R381) -/

/-- HUB_WAKE: a halted core that no trap has stopped goes on at PC + 4, where another hub core wakes it. -/
def execHubWake (s : State) : Result :=
  goOn (match s.ev with
    | .hubWake writer hub =>
      if writer ≠ hub && s.panel.hubs.any (fun h => h.hub = hub && h.halted && !h.fault) then
        let s1 := { s with panel := { s.panel with hubs := s.panel.hubs.map (fun (h : HubCtl) => if h.hub = hub then { h with halted := false } else h) } }
        s1.mapT (fun t => if t.id.kind = .hub ∧ t.id.core = hub then { t.fall with sch := { t.sch with life := .active } } else t)
      else s
    | _ => s)

/-! ### Errors (R413, R418, R420, R421) -/

/-- Cycles of a second (R6, R16). -/
def secondCycles : Nat := 1000 * msCycles

/-- CORRECTED_ERROR: corrected in place and counted; CE_RATE is posted where a counter rises by more than 1,024 within a second. -/
def execCorrectedError (s : State) : Result :=
  goOn (match s.ev with
    | .correctedError isl unit =>
      if 10 ≤ unit then s
      else
        let i := s.island isl
        let recent := (unit, s.cycle) :: i.ceTimes.filter (fun c => decide (s.cycle < c.2 + secondCycles))
        let n := (recent.filter (fun c => c.1 = unit)).length
        let i1 : Island :=
          if unit < 8 then { i with cecnt := spSet i.cecnt unit (spGet i.cecnt unit + 1) }
          else { i with cecore := spSet i.cecore (unit - 8) (spGet i.cecore (unit - 8) + 1) }
        let s1 := s.setIsland { i1 with ceTimes := if 1024 < n then recent.filter (fun c => c.1 ≠ unit) else recent }
        if 1024 < n && inService s1 then postEvent s1 0 0x81 isl 0 [BitVec.ofNat 64 unit, BitVec.ofNat 64 n] else s1
    | _ => s)

/-- What is under way at a line of an island's memory, or is performed late there, comes before the line fails: it is performed first (R181, R413;
DESIGN CHOICE, log 40). -/
def beforeFailure (s : State) (isl line : Nat) : State :=
  (s.ord.late.filter (fun a => a.isl = isl)).foldl performLate
    ((s.atoms.filter (fun a => a.key / 2 ^ 48 = isl && a.key % 2 ^ 48 / 128 = line)).foldl performAtom s)

/-- UNCORRECTABLE_ERROR in memory (space 0), in a typed store (1 to 4), or in an L1 (5): a line is listed, or bytes stay marked until they are
overwritten (R420). -/
def execUncorrectableError (s0 : State) : Result :=
  goOn (let s := match s0.ev with
      | .uncorrectableError isl _ _ a => beforeFailure s0 isl (a / 128)
      | _ => s0
    match s0.ev with
    | .uncorrectableError isl sp core a =>
      if sp = 0 then (if a < Config.islandBytes then badLine s isl (a / 128) else s)
      else if sp < 5 then
        s.updIsland isl (fun i => let k := storeKey isl core sp a
          if i.marks.contains k then i else { i with marks := k :: i.marks })
      else { s with l1 := s.l1.map (fun (l : L1Line) =>
        if l.isl = isl ∧ l.core = core ∧ l.line = a / 128 then { l with marked := maskSet l.marked (a % 128) true } else l) }
    | _ => s)

/-! ### Fencing by the firmware (R395, R419, R422) -/

/-- The step in which the firmware looks again at an island that it is fencing: the end of a window of no plane, the planes being 0 to 7. -/
def fenceStep (isl : Nat) : Event := .linkWindowEnd isl 8 0

/-- The firmware goes on with the fence of an island once its remote operations have been performed. One that has been fenced meanwhile is not fenced
again (R422). -/
def fenceGo (isl : Nat) (s : State) : State :=
  match s.panel.fencing.find? (fun f => f.1 = isl) with
  | none => s
  | some f =>
    if forcedWaits s [isl] then waitStep s (fenceStep isl)
    else
      let s1 := { s with panel := { s.panel with fencing := s.panel.fencing.filter (fun g => g.1 ≠ isl) } }
      if islandServes s isl then fenced s1 isl f.2 else s1

/-- The firmware fences an island as a forced change: the contexts that name it end, their remote operations are waited for, then the table
changes. An island is fenced once, and nothing comes of a second condition meanwhile (R422). -/
def fenceOn (isl reason : Nat) (s : State) : State :=
  if s.panel.fencing.any (fun f => f.1 = isl) || !inService s || !islandServes s isl then s
  else fenceGo isl (let s1 := forcedEnd s isl
    { s1 with panel := { s1.panel with fencing := (isl, reason) :: s1.panel.fencing } })

/-- 95 °C and 115 °C in 1/16 °C (R419). -/
def hotWarn : Int := 1520
def hotStop : Int := 1840

/-- An island's converters stop: no core of it issues any more (R419). -/
def stopIsland (s : State) (isl : Nat) : State :=
  s.mapT (fun t => if t.id.kind ≠ .hub ∧ t.id.isl = isl ∧ t.sch.life ≠ .ended ∧ t.sch.life ≠ .swapped
    then { t with sch := { t.sch with life := .halted } } else t)

/-- TEMPERATURE_CROSSING: TEMP takes the readings; THERMAL is posted when HOT passes 95 °C, and at 115 °C the converters stop and the island is
fenced. -/
def execTemperatureCrossing (s : State) : Result :=
  goOn (match s.ev with
    | .temperatureCrossing isl inlet hot =>
      let old : BitVec 16 := (s.island isl).temp.truncate 16
      let t : BitVec 32 := inlet ++ hot
      let s1 := s.updIsland isl (fun i => { i with temp := t })
      let s1 := if hotStop ≤ hot.toInt then stopIsland s1 isl else s1
      let s2 := if inService s1 && decide (old.toInt ≤ hotWarn) && decide (hotWarn < hot.toInt) then
          postEvent s1 0 0x85 isl 0 [t.zeroExtend 64]
        else s1
      if hotStop ≤ hot.toInt then fenceOn isl 2 s2 else s2
    | _ => s)

/-- LINK_WINDOW_END: at the end of a window of 1,000 rotor cycles the margin of a plane is measured and the window's frames are judged; the next window
counts from 0 (R422). A window is judged once. The planes are 0 to 7. -/
def execLinkWindowEnd (s : State) : Result :=
  goOn (match s.ev with
    | .linkWindowEnd isl plane margin =>
      let i := s.island isl
      let now := s.cycle / windowCycles
      if 8 ≤ plane then fenceGo isl s
      else if now ≤ (spGet i.winDone plane).toNat then s
      else
      let sent := (spGet i.winSent plane).toNat
      let retried := (spGet i.winRetry plane).toNat
      let warn := decide (sent < retried * 16384) || decide (margin.toNat < 20)
      let bad := decide (sent < retried * 1024) || decide (margin.toNat < 10)
      let s1 := s.setIsland { i with
        margin := (plane, margin) :: i.margin.filter (fun (m : Nat × BitVec 8) => m.1 ≠ plane)
        winSent := spSet i.winSent plane 0, winRetry := spSet i.winRetry plane 0
        winDone := spSet i.winDone plane (BitVec.ofNat 64 now) }
      if s1.panel.fencing.any (fun f => f.1 = isl) || !inService s1 || !islandServes s1 isl then s1
      else
        let s2 := if warn then
            postEvent s1 0 0x83 isl 0 [BitVec.ofNat 64 plane, BitVec.ofNat 64 retried, BitVec.ofNat 64 sent]
          else s1
        if bad then fenceOn isl 1 s2 else s2
    | _ => s)

/-! ### Firmware (R415, R423) -/

/-- FWSTAT written. -/
def setFwstat (s : State) (n : Nat) : State := { s with panel := { s.panel with fwstat := n } }

/-- FW_LOAD: a write to FWGO starts a load of the FWLEN bytes at FWADDR; one while FWSTAT reads 1 has no effect. -/
def execFwLoad (s : State) : Result :=
  goOn (match s.ev with
    | .fwLoad =>
      if s.panel.fwstat = 1 then s
      else setFwstat { s with panel := { s.panel with loading := getBytes s.hostMem s.panel.fwaddr.toNat s.panel.fwlen.toNat } } 1
    | _ => s)

/-- FW_VERIFY_COMPLETE: the image is written to flash, to be active at the next hub reset, or it is rejected and the flash stands. -/
def execFwVerifyComplete (s : State) : Result :=
  goOn (match s.ev with
    | .fwVerifyComplete good =>
      if s.panel.fwstat ≠ 1 then s
      else
        let s1 := if good then { s with panel := { s.panel with fwstat := 2, staged := true, flashGood := true, flash := s.panel.loading } }
          else setFwstat s 3
        if inService s1 then postEvent s1 0 0x86 0 0 [BitVec.ofNat 64 s1.panel.fwstat] else s1
    | _ => s)

/-- A hub core at the firmware entry, or standing still while the ROM loader waits in recovery (R380, R415). -/
def Thread.hubAgain (up : Bool) (t : Thread) : Thread :=
  if t.id.kind = .hub then
    { Thread.hubReset t.id.core with
      id := { (Thread.hubReset t.id.core).id with uid := t.id.uid }, sch := Sched.zero (if up then .active else .halted) }
  else t

/-- Every context and the islands on which it lies. -/
def ctxPairs (s : State) : List (Nat × Nat) := s.ctxs.map (fun c => (c.isl, c.ctx))

/-- The work of every context stops, and no completion is written (R423). -/
def resetStart (s : State) : State :=
  let s1 := { s with queues := [], panel := { s.panel with recovery := true, mbox := [], mbStage := 3, mbInvs := [], fencing := [] } }
  let s2 := s1.mapT (fun t => if t.id.kind = .hub then { t with sch := { t.sch with life := .halted } } else t)
  ((s2.ctxs.map (fun c => c.ctx)).eraseDups).foldl (fun s c => destroyStart s c (fun s u => endLaunch s u 7 0)) s2

/-- A hub reset waits while a context's waybills and remote operations are under way. -/
def resetWaits (s : State) : Bool := ((s.ctxs.map (fun c => c.ctx)).eraseDups).any (destroyWaits s)

/-- A context's state on an island freed and its translations dropped, then the context closed (R388, R423). The scrub follows when every context
has gone. -/
def resetClose (s : State) (p : Nat × Nat) : State :=
  let s1 := freeCtxState s p.1 p.2
  shutCtx { s1 with tlb := s1.tlb.filter (fun e => !(e.isl = p.1 && e.ctx = p.2)) } p.1 p.2

/-- The hub starts again: with an image that verifies the firmware runs, else the ROM loader waits (R415, R423). -/
def resetEnd (s : State) (good : Bool) : State :=
  let up := s.panel.flashGood && good
  let s0 := if up then (ctxPairs s).foldl resetClose s else s
  let s1 := if up then ((s.ctxs.filter (fun c => c.prot)).map (fun c => c.isl)).eraseDups.foldl askScrub s0 else s0
  let regs := fun (r : FnRegs) => { ({ s1 with fns := [] } : State).fnRegs r.fn with msix := r.msix }
  ({ s1 with
    fns := s1.fns.map regs, queues := [], invals := []
    panel := { s1.panel with
      fwaddr := 0, fwlen := 0, fwstat := if up then 0 else 4, staged := false, active := if up then s1.panel.flash else s1.panel.active, hubs := s1.panel.hubs.map (fun (h : HubCtl) => HubCtl.reset h.hub)
      spdm := [], mbox := [], mbStage := 0, mbInvs := [], recovery := !up, served := [], fencing := [] } }).mapT (Thread.hubAgain up)

/-- HUB_RESET: every context ends as CTX_DESTROY ends it, without completions; island memory, owners, Q bits, bad-line tables and the health
block stand; then the image in flash is verified. -/
def execHubReset (s : State) : Result :=
  goOn (match s.ev with
    | .hubReset good =>
      let s1 := if s.panel.mbStage = 3 then s else resetStart s
      let s2 := ((s1.ctxs.map (fun c => c.ctx)).eraseDups).foldl abandonStopped s1
      if resetWaits s2 then waitStep s2 s.ev else resetEnd s2 good
    | _ => s)

/-- What a measurement block measures: the ROM, the firmware image, the topology table, and the FWMASK of every island (R415). -/
def measured (s : State) (b : Nat) : List Byte :=
  if b = 1 then Config.rom
  else if b = 2 then s.panel.active
  else if b = 3 then topoBytes s
  else (List.range Config.nisl).flatMap (fun i => leBytes 8 (s.island i).fwmask.toNat)

/-- SPDM_REQUEST: the hub answers with a measurement block, 1 to 4; the answer, made from what the block measures, leaves over MCTP. -/
def execSpdmRequest (s : State) : Result :=
  goOn (match s.ev with
    | .spdmRequest b => if 1 ≤ b ∧ b ≤ 4 then { s with panel := { s.panel with spdm := s.panel.spdm ++ [(b, measured s b)] } } else s
    | _ => s)

/-! ### The supply (R393, R415, R418) -/

/-- The topology at bring-up, where a populated site that fails is fenced; which ones fail is a free choice (R393; log 4). -/
def bringUp (k : Nat) : List Topo :=
  Topo.bringUp.map (fun t => if t.state = 1 ∧ t.site < 48 ∧ Config.freeChoice (k + t.site) % 2 = 1 then { t with state := 2 } else t)

/-- POWER_ON: the panel at its reset state, with the flash as it was left; host memory is the host's. -/
def execPowerOn (s : State) : Result :=
  goOn (match s.ev with
    | .powerOn =>
      if s.panel.power then s
      else
        let up := s.panel.flashGood
        ({ State.reset with
          hostMem := s.hostMem, agenda := s.agenda, fresh := s.fresh + 64, ev := s.ev
          panel := { Panel.reset with
            topo := bringUp s.fresh, hostBad := s.panel.hostBad, flashGood := up, flash := s.panel.flash, active := if up then s.panel.flash else []
            recovery := !up, fwstat := if up then 0 else 4 } } : State).mapT (Thread.hubAgain up)
    | _ => s)

/-- POWER_LOSS: while the flash is being written it leaves an image that fails verification (R415). -/
def execPowerLoss (s : State) : Result :=
  goOn (match s.ev with
    | .powerLoss flashing =>
      { s with panel := { s.panel with power := false, flashGood := s.panel.flashGood && !(flashing && decide (s.panel.fwstat = 1)) } }
    | _ => s)

end Sys2Proof.Machine
end

