-- ==== Sys2Proof/Machine/VInt.lean ====
section
/-!
DEFINITION. The vector integer members: arithmetic, logic, shifts, packed fields, compares and immediates (majors 0x10 to 0x1E;
R239, R241-R245).
-/
namespace Sys2Proof.Machine

/-! ### Lane by lane -/

/-- A member that writes vd in each active lane, from the lane's values before the instruction (R239). -/
def laneOp (d : BitVec 7) (p : BitVec 3) (f : Thread → Nat → Word32) (s : State) : State :=
  (s.updCur (fun t => t.wrLanes d.toNat (f t) (t.activeLanes p.toNat))).retire

/-- A member with two sources. -/
def laneBin (f : Word32 → Word32 → Word32) (d a b : BitVec 7) (p : BitVec 3) (s : State) : State :=
  laneOp d p (fun t l => f (t.rdV a.toNat l) (t.rdV b.toNat l)) s

/-- A member with two sources and vd's old value. -/
def laneAcc (f : Word32 → Word32 → Word32 → Word32) (d a b : BitVec 7) (p : BitVec 3) (s : State) : State :=
  laneOp d p (fun t l => f (t.rdV d.toNat l) (t.rdV a.toNat l) (t.rdV b.toNat l)) s

/-- A member with one source. -/
def laneUn (f : Word32 → Word32) (d a : BitVec 7) (p : BitVec 3) (s : State) : State :=
  laneOp d p (fun t l => f (t.rdV a.toNat l)) s

/-- A member that writes predicate pd in each active lane (R244). -/
def lanePred (d p : BitVec 3) (f : Thread → Nat → Bool) (s : State) : State :=
  (s.updCur (fun t => t.wrPreds d.toNat (f t) (t.activeLanes p.toNat))).retire

/-- A compare of two registers. -/
def laneCmp (f : Word32 → Word32 → Bool) (d : BitVec 3) (a b : BitVec 7) (p : BitVec 3) (s : State) : State :=
  lanePred d p (fun t l => f (t.rdV a.toNat l) (t.rdV b.toNat l)) s

/-! ### Narrowing -/

/-- sat_s: the nearest value in the signed range of w bits (R132). -/
def satS (w : Nat) (x : Int) : BitVec w := BitVec.ofInt w (max (-(2 ^ (w - 1) : Nat)) (min x ((2 ^ (w - 1) : Nat) - 1)))

/-- sat_u: the nearest value in the unsigned range of w bits (R132). -/
def satU (w : Nat) (x : Int) : BitVec w := BitVec.ofInt w (max 0 (min x ((2 ^ w : Nat) - 1)))

/-- Bits 63:32 of a signed, and of an unsigned, product (R241). -/
def vmulhS (a b : Word32) : Word32 := (a.signExtend 64 * b.signExtend 64).extractLsb' 32 32
def vmulhU (a b : Word32) : Word32 := (a.zeroExtend 64 * b.zeroExtend 64).extractLsb' 32 32

/-- Signed |a − b| (R241). -/
def absDiff (a b : Word32) : Word32 := BitVec.ofNat 32 (a.toInt - b.toInt).natAbs

/-- Signed ⌊(a + b + 1) ÷ 2⌋ (R241). -/
def avgS (a b : Word32) : Word32 := BitVec.ofInt 32 ((a.toInt + b.toInt + 1) / 2)

/-- Both halves of a lane, computed apart (R243). -/
def halves (f : BitVec 16 → BitVec 16 → BitVec 16) (a b : Word32) : Word32 :=
  f (a.extractLsb' 16 16) (b.extractLsb' 16 16) ++ f (a.extractLsb' 0 16) (b.extractLsb' 0 16)

/-- The four bytes of a lane, computed apart (R243). -/
def bytes4 (f : Byte → Byte → Byte) (a b : Word32) : Word32 :=
  let g := fun i => f (a.extractLsb' (8 * i) 8) (b.extractLsb' (8 * i) 8)
  (g 3 ++ g 2) ++ (g 1 ++ g 0)

/-- d plus the four signed byte products (R243). -/
def dot4 (d a b : Word32) : Word32 :=
  let g := fun i => (a.extractLsb' (8 * i) 8).signExtend 32 * (b.extractLsb' (8 * i) 8).signExtend 32
  d + (g 0 + g 1 + g 2 + g 3)

/-! ### The members -/

def execVadd (d a b : BitVec 7) (p : BitVec 3) (s : State) : Result := goOn (laneBin (· + ·) d a b p s)
def execVsub (d a b : BitVec 7) (p : BitVec 3) (s : State) : Result := goOn (laneBin (· - ·) d a b p s)
def execVadds (d a b : BitVec 7) (p : BitVec 3) (s : State) : Result :=
  goOn (laneBin (fun x y => satS 32 (x.toInt + y.toInt)) d a b p s)
def execVsubs (d a b : BitVec 7) (p : BitVec 3) (s : State) : Result :=
  goOn (laneBin (fun x y => satS 32 (x.toInt - y.toInt)) d a b p s)
def execVmul (d a b : BitVec 7) (p : BitVec 3) (s : State) : Result := goOn (laneBin (· * ·) d a b p s)
def execVmulh (d a b : BitVec 7) (p : BitVec 3) (s : State) : Result := goOn (laneBin vmulhS d a b p s)
def execVmulhu (d a b : BitVec 7) (p : BitVec 3) (s : State) : Result := goOn (laneBin vmulhU d a b p s)
def execVmad (d a b : BitVec 7) (p : BitVec 3) (s : State) : Result := goOn (laneAcc (fun x y z => x + y * z) d a b p s)
def execVand (d a b : BitVec 7) (p : BitVec 3) (s : State) : Result := goOn (laneBin (· &&& ·) d a b p s)
def execVor (d a b : BitVec 7) (p : BitVec 3) (s : State) : Result := goOn (laneBin (· ||| ·) d a b p s)
def execVxor (d a b : BitVec 7) (p : BitVec 3) (s : State) : Result := goOn (laneBin (· ^^^ ·) d a b p s)
def execVandn (d a b : BitVec 7) (p : BitVec 3) (s : State) : Result := goOn (laneBin (fun x y => x &&& ~~~y) d a b p s)
def execVshl (d a b : BitVec 7) (p : BitVec 3) (s : State) : Result := goOn (laneBin (fun x y => x <<< (y.toNat % 32)) d a b p s)
def execVshr (d a b : BitVec 7) (p : BitVec 3) (s : State) : Result := goOn (laneBin (fun x y => x >>> (y.toNat % 32)) d a b p s)
def execVsra (d a b : BitVec 7) (p : BitVec 3) (s : State) : Result :=
  goOn (laneBin (fun x y => x.sshiftRight (y.toNat % 32)) d a b p s)
def execVrot (d a b : BitVec 7) (p : BitVec 3) (s : State) : Result :=
  goOn (laneBin (fun x y => x.rotateLeft (y.toNat % 32)) d a b p s)
def execVmin (d a b : BitVec 7) (p : BitVec 3) (s : State) : Result :=
  goOn (laneBin (fun x y => if y.slt x then y else x) d a b p s)
def execVmax (d a b : BitVec 7) (p : BitVec 3) (s : State) : Result :=
  goOn (laneBin (fun x y => if x.slt y then y else x) d a b p s)
def execVminu (d a b : BitVec 7) (p : BitVec 3) (s : State) : Result :=
  goOn (laneBin (fun x y => if y.ult x then y else x) d a b p s)
def execVmaxu (d a b : BitVec 7) (p : BitVec 3) (s : State) : Result :=
  goOn (laneBin (fun x y => if x.ult y then y else x) d a b p s)
def execVaddus (d a b : BitVec 7) (p : BitVec 3) (s : State) : Result :=
  goOn (laneBin (fun x y => satU 32 ((x.toNat : Int) + y.toNat)) d a b p s)
def execVsubus (d a b : BitVec 7) (p : BitVec 3) (s : State) : Result :=
  goOn (laneBin (fun x y => satU 32 ((x.toNat : Int) - y.toNat)) d a b p s)
def execVabsd (d a b : BitVec 7) (p : BitVec 3) (s : State) : Result := goOn (laneBin absDiff d a b p s)
def execVavg (d a b : BitVec 7) (p : BitVec 3) (s : State) : Result := goOn (laneBin avgS d a b p s)

def execVceq (d : BitVec 3) (a b : BitVec 7) (p : BitVec 3) (s : State) : Result := goOn (laneCmp (fun x y => x == y) d a b p s)
def execVcne (d : BitVec 3) (a b : BitVec 7) (p : BitVec 3) (s : State) : Result := goOn (laneCmp (fun x y => x != y) d a b p s)
def execVclt (d : BitVec 3) (a b : BitVec 7) (p : BitVec 3) (s : State) : Result := goOn (laneCmp (fun x y => x.slt y) d a b p s)
def execVcle (d : BitVec 3) (a b : BitVec 7) (p : BitVec 3) (s : State) : Result := goOn (laneCmp (fun x y => x.sle y) d a b p s)
def execVcltu (d : BitVec 3) (a b : BitVec 7) (p : BitVec 3) (s : State) : Result := goOn (laneCmp (fun x y => x.ult y) d a b p s)
def execVcleu (d : BitVec 3) (a b : BitVec 7) (p : BitVec 3) (s : State) : Result := goOn (laneCmp (fun x y => x.ule y) d a b p s)
def execVctst (d : BitVec 3) (a b : BitVec 7) (p : BitVec 3) (s : State) : Result :=
  goOn (laneCmp (fun x y => x &&& y != 0) d a b p s)

def execVaddh2 (d a b : BitVec 7) (p : BitVec 3) (s : State) : Result := goOn (laneBin (halves (· + ·)) d a b p s)
def execVaddb4 (d a b : BitVec 7) (p : BitVec 3) (s : State) : Result := goOn (laneBin (bytes4 (· + ·)) d a b p s)
def execVmulh2 (d a b : BitVec 7) (p : BitVec 3) (s : State) : Result := goOn (laneBin (halves (· * ·)) d a b p s)
def execVdot4 (d a b : BitVec 7) (p : BitVec 3) (s : State) : Result := goOn (laneAcc dot4 d a b p s)

/-- VSEL: the pg field holds the selecting predicate, and there is no guard (R242). -/
def execVsel (d a b : BitVec 7) (q : BitVec 3) (s : State) : Result :=
  goOn (laneOp d 0 (fun t l => if t.rdP q.toNat l then t.rdV a.toNat l else t.rdV b.toNat l) s)

def execVclz (d a : BitVec 7) (p : BitVec 3) (s : State) : Result :=
  goOn (laneUn (fun x => BitVec.ofNat 32 (clzFrom x.toNat 32)) d a p s)
def execVpopc (d a : BitVec 7) (p : BitVec 3) (s : State) : Result :=
  goOn (laneUn (fun x => BitVec.ofNat 32 (popFrom x.toNat 32)) d a p s)
def execVbrev (d a : BitVec 7) (p : BitVec 3) (s : State) : Result := goOn (laneUn (fun x => x.reverse) d a p s)

/-! ### Immediates -/

/-- imm9 extended by sign to 31 bits with a HIMM attached, or from 9 without one (R245, R335). -/
def immS9 (s : State) (i : BitVec 9) : Word32 :=
  match s.cur.sc.hints.himm with
  | none => i.signExtend 32
  | some p => (p ++ i : BitVec 31).signExtend 32

/-- imm9 extended with zeros, with a HIMM attached or without (R215, R335). -/
def immU9 (s : State) (i : BitVec 9) : Word32 :=
  match s.cur.sc.hints.himm with
  | none => i.zeroExtend 32
  | some p => (p ++ i : BitVec 31).zeroExtend 32

/-- imm16 of VMOVI: by sign, or with a HIMM the low 32 bits of payload × 2^16 + imm16 (R245, R335). -/
def imm16 (s : State) (i : BitVec 16) : Word32 :=
  match s.cur.sc.hints.himm with
  | none => i.signExtend 32
  | some p => (p ++ i : BitVec 38).truncate 32

def execVaddi (d a : BitVec 7) (p : BitVec 3) (i : BitVec 9) (s : State) : Result := goOn (laneUn (· + immS9 s i) d a p s)
def execVshli (d a : BitVec 7) (p : BitVec 3) (n : BitVec 5) (s : State) : Result := goOn (laneUn (· <<< n.toNat) d a p s)
def execVshri (d a : BitVec 7) (p : BitVec 3) (n : BitVec 5) (s : State) : Result := goOn (laneUn (· >>> n.toNat) d a p s)
def execVsrai (d a : BitVec 7) (p : BitVec 3) (n : BitVec 5) (s : State) : Result := goOn (laneUn (·.sshiftRight n.toNat) d a p s)
def execVmovi (d : BitVec 7) (p : BitVec 3) (i : BitVec 16) (s : State) : Result := goOn (laneOp d p (fun _ _ => imm16 s i) s)
def execVmovhi (d : BitVec 7) (p : BitVec 3) (i : BitVec 16) (s : State) : Result :=
  goOn (laneUn (fun x => i ++ x.extractLsb' 0 16) d d p s)

/-- VCMPI: the immediate is extended as cc says (R215, R245). -/
def execVcmpi (d c : BitVec 3) (a : BitVec 7) (p : BitVec 3) (i : BitVec 9) (s : State) : Result :=
  let k := if c.toNat < 4 then immS9 s i else immU9 s i
  goOn (lanePred d p (fun t l => compareCc c (t.rdV a.toNat l) k) s)

end Sys2Proof.Machine
end

