-- ==== Sys2Proof/Machine/Lane.lean ====
section
/-!
DEFINITION. Predicates, flags, shuffles, votes, reductions, scans and lane moves (majors 0x2A and 0x2C to 0x2F; R256-R264).
-/
namespace Sys2Proof.Machine

/-! ### Predicates and flags (R257, R258) -/

/-- A predicate computed from two others in each lane with dc 0. -/
def predBin (f : Bool → Bool → Bool) (d a b : BitVec 3) (s : State) : State :=
  lanePred d 0 (fun t l => f (t.rdP a.toNat l) (t.rdP b.toNat l)) s

def execPand (d a b : BitVec 3) (s : State) : Result := goOn (predBin (fun x y => x && y) d a b s)
def execPor (d a b : BitVec 3) (s : State) : Result := goOn (predBin (fun x y => x || y) d a b s)
def execPxor (d a b : BitVec 3) (s : State) : Result := goOn (predBin (fun x y => x ^^ y) d a b s)
def execPandn (d a b : BitVec 3) (s : State) : Result := goOn (predBin (fun x y => x && !y) d a b s)
def execPnot (d a : BitVec 3) (s : State) : Result := goOn (predBin (fun x _ => !x) d a a s)
def execPflag (d f : BitVec 3) (s : State) : Result := goOn (lanePred d 0 (fun t l => (t.rdFlags l).getLsbD f.toNat) s)

/-- Flags cleared by a mask in each of a list of lanes. -/
def Thread.clearFlags (t : Thread) (m : BitVec 5) : List Nat → Thread
  | [] => t
  | l :: ls => { t with ln := { t.ln with flags := spSet t.ln.flags l (t.rdFlags l &&& ~~~m) } }.clearFlags m ls

def execFlclr (m : BitVec 5) (s : State) : Result := goOn ((s.updCur (fun t => t.clearFlags m (t.activeLanes 0))).retire)
def execFlrd (d : BitVec 6) (s : State) : Result :=
  goOn (laneOp (d.zeroExtend 7) 0 (fun t l => (t.rdFlags l).zeroExtend 32) s)

/-! ### Shuffles (R259) -/

/-- A lane index reduced to the current width. -/
def laneIdx (t : Thread) (i : Int) : Nat := (i % (t.id.width : Nat)).toNat

/-- A shuffle: each active lane reads va of the lane that f gives from its own number and its b. -/
def shuffle (f : Nat → Nat → Int) (d a b : BitVec 7) (p : BitVec 3) (s : State) : State :=
  laneOp d p (fun t l => t.rdV a.toNat (laneIdx t (f l (t.rdV b.toNat l).toNat))) s

def execShfli (d a b : BitVec 7) (p : BitVec 3) (s : State) : Result := goOn (shuffle (fun _ x => x) d a b p s)
def execShflu (d a b : BitVec 7) (p : BitVec 3) (s : State) : Result := goOn (shuffle (fun l x => (l : Int) - x) d a b p s)
def execShfld (d a b : BitVec 7) (p : BitVec 3) (s : State) : Result := goOn (shuffle (fun l x => (l : Int) + x) d a b p s)
def execShflx (d a b : BitVec 7) (p : BitVec 3) (s : State) : Result :=
  goOn (shuffle (fun l x => ((l ^^^ x : Nat) : Int)) d a b p s)

/-! ### Votes (R260) -/

/-- The source of a vote in a lane: a predicate (kind 0) or a flag (kind 2). -/
def voteSrc (k : BitVec 1) (r : BitVec 3) (t : Thread) (l : Nat) : Bool :=
  if k = 0 then t.rdP r.toNat l else (t.rdFlags l).getLsbD r.toNat

/-- A vote's result written to a predicate in the active lanes, or to a condition register. -/
def voteTo (j : BitVec 1) (d : BitVec 3) (b : Bool) (s : State) : State :=
  if j = 0 then lanePred d 0 (fun _ _ => b) s else setCond d b s

def execVall (j : BitVec 1) (d : BitVec 3) (k : BitVec 1) (r : BitVec 3) (s : State) : Result :=
  goOn (voteTo j d ((s.cur.activeLanes 0).all (voteSrc k r s.cur)) s)
def execVany (j : BitVec 1) (d : BitVec 3) (k : BitVec 1) (r : BitVec 3) (s : State) : Result :=
  goOn (voteTo j d ((s.cur.activeLanes 0).any (voteSrc k r s.cur)) s)
def execVbal (d : BitVec 6) (k : BitVec 1) (r : BitVec 3) (s : State) : Result :=
  goOn ((s.wrS d (laneMask ((s.cur.activeLanes 0).filter (voteSrc k r s.cur)))).retire)
def execVcnt (d : BitVec 6) (k : BitVec 1) (r : BitVec 3) (s : State) : Result :=
  goOn ((s.wrS d (BitVec.ofNat 64 ((s.cur.activeLanes 0).filter (voteSrc k r s.cur)).length)).retire)

/-! ### Reductions and scans (R261-R263) -/

/-- The identity of an operation code, as the running value holds it (R262). -/
def redIdent (c : Nat) : Int :=
  if c = 3 then 0x7FFFFFFF else if c = 4 then -0x80000000 else if c = 5 ∨ c = 7 then 0xFFFFFFFF
  else if c = 10 then 0x80000000 else if c = 11 then 0x7F800000 else if c = 12 then 0xFF800000 else 0

/-- One step of an operation code, with the flags it raises: sums are exact, and the others keep a pattern (R262, R263). -/
def redStep (c : Nat) (md : BitVec 2) (acc : Int) (x : Word32) : Int × BitVec 5 :=
  if c ≤ 1 then (acc + x.toInt, 0)
  else if c = 2 then (acc + x.toNat, 0)
  else if c = 3 then (min acc x.toInt, 0)
  else if c = 4 then (max acc x.toInt, 0)
  else if c = 5 then (min acc x.toNat, 0)
  else if c = 6 then (max acc x.toNat, 0)
  else if c = 7 then (((acc.toNat &&& x.toNat : Nat) : Int), 0)
  else if c = 9 then (((acc.toNat ^^^ x.toNat : Nat) : Int), 0)
  else if c = 10 then let r := fAdd fp32 md acc.toNat x.toNat; (r.1, r.2)
  else if c = 11 then ((fPick fp32 false false acc.toNat x.toNat).1, 0)
  else if c = 12 then ((fPick fp32 true false acc.toNat x.toNat).1, 0)
  else (((acc.toNat ||| x.toNat : Nat) : Int), 0)

/-- The narrowing of a result (R133, R262). -/
def redNarrow (c : Nat) (acc : Int) : Word32 := if c = 1 then satS 32 acc else if c = 2 then satU 32 acc else BitVec.ofInt 32 acc

/-- The widening of a result to a scalar (R262). -/
def redExt (c : Nat) (x : Word32) : Word64 := if c = 0 ∨ c = 1 ∨ c = 3 ∨ c = 4 then x.signExtend 64 else x.zeroExtend 64

/-- The running values of a fold from the left, with the flags so far: the identity first, then one after each value. -/
def redScan (c : Nat) (md : BitVec 2) (acc : Int) (fl : BitVec 5) : List Word32 → List (Int × BitVec 5)
  | [] => [(acc, fl)]
  | x :: xs => (acc, fl) :: redScan c md (redStep c md acc x).1 (fl ||| (redStep c md acc x).2) xs

/-- The running values over the active lanes; code 13 reads the flag registers. -/
def redPrefixes (t : Thread) (c a p : Nat) : List (Int × BitVec 5) :=
  redScan c t.mode (redIdent c) 0 ((t.activeLanes p).map (fun l => if c = 13 then (t.rdFlags l).zeroExtend 32 else t.rdV a l))

/-- The n-th running value. -/
def nthPrefix (c : Nat) (ps : List (Int × BitVec 5)) (n : Nat) : Word32 × BitVec 5 :=
  let q := ps.getD n (redIdent c, 0)
  (redNarrow c q.1, q.2)

/-- VRED: to every active lane, or to a scalar (R261). -/
def execVred (d a : BitVec 7) (t : BitVec 1) (o : BitVec 6) (p : BitVec 3) (s : State) : Result :=
  let c := o.toNat
  let ls := s.cur.activeLanes p.toNat
  let r := nthPrefix c (redPrefixes s.cur c a.toNat p.toNat) ls.length
  goOn (if t = 0 then floatOp d.toNat p.toNat (fun _ _ => r) s
    else fpGuard ls (fun _ => r.2) s
      (((s.updCur (fun t => t.orFlagLanes (fun _ => r.2) ls)).wrS (d.truncate 6) (redExt c r.1)).retire))

/-- A scan: the lane at position j of the active lanes receives running value j + `off` (R261). -/
def scanOp (off : Nat) (d a : BitVec 7) (o : BitVec 6) (p : BitVec 3) (s : State) : State :=
  let c := o.toNat
  let ls := s.cur.activeLanes p.toNat
  let ps := redPrefixes s.cur c a.toNat p.toNat
  floatOp d.toNat p.toNat (fun _ l => nthPrefix c ps (ls.idxOf l + off)) s

def execVscani (d a : BitVec 7) (o : BitVec 6) (p : BitVec 3) (s : State) : Result := goOn (scanOp 1 d a o p s)
def execVscanx (d a : BitVec 7) (o : BitVec 6) (p : BitVec 3) (s : State) : Result := goOn (scanOp 0 d a o p s)

/-! ### Lane moves and identities (R264) -/

/-- The lane that a scalar names. -/
def scalarIdx (s : State) (b : BitVec 6) : Nat := laneIdx s.cur (((s.rdS b).toNat % 2 ^ 32 : Nat) : Int)

def execVbcast (d a b : BitVec 6) (s : State) : Result :=
  goOn (laneOp (d.zeroExtend 7) 0 (fun t _ => t.rdV a.toNat (scalarIdx s b)) s)
def execVextr (d a b : BitVec 6) (s : State) : Result :=
  goOn ((s.wrS d ((s.cur.rdV a.toNat (scalarIdx s b)).zeroExtend 64)).retire)
def execVinsr (d a b : BitVec 6) (s : State) : Result :=
  goOn ((s.updCur (fun t => t.wrLanes d.toNat (fun _ => (s.rdS a).truncate 32)
    ((t.activeLanes 0).filter (fun l => l = scalarIdx s b)))).retire)

/-- VCPRS: the values of the active lanes where p is true, to the first active lanes. -/
def execVcprs (d a : BitVec 6) (p : BitVec 3) (s : State) : Result :=
  let t := s.cur
  let ls := t.activeLanes 0
  let src := ls.filter (fun l => t.rdP p.toNat l)
  goOn ((s.updCur (fun u => u.wrLanes d.toNat (fun l => t.rdV a.toNat (src.getD (ls.idxOf l) 0)) (ls.take src.length))).retire)

def execVlane (d : BitVec 6) (h : BitVec 1) (s : State) : Result :=
  goOn (laneOp (d.zeroExtend 7) 0 (fun t l => BitVec.ofNat 32 (if h = 0 then l else t.hid l)) s)
def execVtid (d : BitVec 6) (s : State) : Result :=
  goOn (laneOp (d.zeroExtend 7) 0 (fun t l => BitVec.ofNat 32 (t.tid l)) s)

end Sys2Proof.Machine
end

