-- ==== Sys2Proof/Machine/System.lean ====
section
/-!
DEFINITION. The system members (major 0x00; R185-R189, R328-R333) and the hints (major 0x3F; R220, R334-R338).
-/
namespace Sys2Proof.Machine

/-! ### System members -/

def execNop (s : State) : Result := goOn s.retire
def execTrap (n : BitVec 6) (s : State) : Result := let _ := n; goOn (trapPlain s causeTrap)
def execBrk (n : BitVec 6) (s : State) : Result := let _ := n; goOn (trapPlain s causeBrk)

/-- TRET and TSKIP of a team (R185, R188). -/
def teamReturn (skip : Bool) (s : State) : State :=
  if s.cur.tr.report then doubleFault s (plainFx causeDouble)
  else (s.updCur (fun t =>
    let u := t.leave (t.resumeAt skip) (t.keepsHints skip)
    if skip && t.tr.resume.isNone then { u with sl := u.sl.skipped } else u)).count

/-- A return from the handler: outside handler mode it traps ILLEGAL_INSN (R185, R329). -/
def handlerReturn (skip : Bool) (s : State) : State :=
  if !s.cur.tr.handler then trapPlain s causeIllegal
  else match s.cur.id.kind with
    | .team => teamReturn skip s
    | .carter => carterReturn skip s
    | .hub => teamReturn skip s

def execTret (s : State) : Result := goOn (handlerReturn false s)
def execTskip (s : State) : Result := goOn (handlerReturn true s)

/-- TKILL ends the launch, or in report-only mode the context (R186, R188, R189). -/
def execTkill (s : State) : Result :=
  let t := s.cur
  goOn (if !t.tr.handler then trapPlain s causeIllegal
    else match t.id.kind with
      | .carter => carterKill s
      | .team => if t.tr.report then endContext s t.id.ctx t.tr.cause t.id.isl else killLaunch s t.id.launch t.tr.cause t.id.isl
      | .hub => killLaunch s t.id.launch t.tr.cause t.id.isl)

/-- HALT stops a hub core at its next instruction boundary (R330, R380). -/
def execHalt (s : State) : Result :=
  goOn (match s.cur.id.kind with
    | .team => trapPlain s causePriv
    | .carter => trapPlain s causePriv
    | .hub =>
      let set := fun (c : HubCtl) => if c.hub = s.cur.id.core then { c with halted := true } else c
      { s with
        cur := { s.cur.dropHints with sch := { s.cur.sch with life := .halted } }
        panel := { s.panel with hubs := s.panel.hubs.map set } })

/-! ### Special registers (R331-R333) -/

/-- GRP: each slot's entry and its valid bit (R333). -/
def grpWord (t : Thread) : Word64 :=
  BitVec.ofNat 64 (((List.range 4).map (fun k => match (t.id.groups[k]?).join with
    | none => 0
    | some e => (e % 256 + 256) * 2 ^ (16 * k))).sum)

/-- What only a team has: the Carter reads 0; what the manual does not state for a hub core is a free value (log 4). -/
def teamOnly (t : Thread) (r : Nat) (v : Word64) : Word64 :=
  match t.id.kind with
  | .team => v
  | .carter => 0
  | .hub => Config.freeWord (64 * t.id.core + r)

/-- What a team and a Carter have, and the manual does not state for a hub core (log 4). -/
def notHub (t : Thread) (r : Nat) (v : Word64) : Word64 :=
  match t.id.kind with
  | .team => v
  | .carter => v
  | .hub => Config.freeWord (64 * t.id.core + r)

/-- A special register as the running agent reads it (R332). -/
def readSr (s : State) (r : Nat) : Word64 :=
  let t := s.cur
  let n := fun (x : Nat) => BitVec.ofNat 64 x
  if r = 0 then 0x100
  else if r = 1 then teamOnly t r (n t.id.team)
  else if r = 2 then teamOnly t r (n t.subt)
  else if r = 3 then (if t.id.kind = .hub then n t.id.width else teamOnly t r (n t.id.width))
  else if r = 4 then teamOnly t r (n (t.id.team / t.id.coachSz))
  else if r = 5 then notHub t r (n t.id.core)
  else if r = 6 then notHub t r (n (dieOf t.id.core))
  else if r = 7 then notHub t r (n t.id.isl)
  else if r = 8 then n Config.nisl
  else if r = 9 then n Config.panel
  else if r = 10 then teamOnly t r (t.id.taskId.zeroExtend 64)
  else if r = 11 then notHub t r (n t.id.ctx)
  else if r = 12 then teamOnly t r (grpWord t)
  else if r = 13 then teamOnly t r (n t.sch.effLease)
  else if r = 14 then teamOnly t r (n (b2n t.sch.measured))
  else if r = 15 then teamOnly t r (n t.sch.lastLost)
  else if r = 16 then (if t.id.kind = .carter then 0 else t.sc.rmode.zeroExtend 64)
  else if r = 17 then (if t.id.kind = .carter then 0 else t.sc.fpte.zeroExtend 64)
  else if r = 18 then n s.time
  else if r = 19 then n s.cycle + Config.cycleOffset t.id.isl (dieOf t.id.core)
  else if r = 20 then notHub t r (handlerOf s t)
  else if r = 21 then t.tr.xpc
  else if r = 22 then t.tr.xcause
  else if r = 23 then t.tr.xaddr
  else if r = 24 then t.tr.xlanes
  else if r = 25 then t.tr.xinsn
  else t.tr.xrec

def execMfsr (d r : BitVec 6) (s : State) : Result := goOn ((s.wrS d (readSr s r.toNat)).retire)

/-- A special register that an agent's MTSR writes; its reserved bits are ignored (R331, R332). -/
def Thread.writeSr (t : Thread) (r : Nat) (x : Word64) : Thread :=
  if r = 16 then { t with sc := { t.sc with rmode := x.truncate 2 } }
  else if r = 17 then { t with sc := { t.sc with fpte := x.truncate 5 } }
  else if r = 21 then { t with tr := { t.tr with xpc := x, xpcWritten := t.tr.handler } }
  else if r = 22 then { t with tr := { t.tr with xcause := x } }
  else if r = 23 then { t with tr := { t.tr with xaddr := x } }
  else if r = 24 then { t with tr := { t.tr with xlanes := x } }
  else if r = 25 then { t with tr := { t.tr with xinsn := x } }
  else t

/-- MTSR: TBA traps PRIV, and a read-only register ILLEGAL_INSN (R331). -/
def execMtsr (a r : BitVec 6) (s : State) : Result :=
  let n := r.toNat
  goOn (if n = 20 then trapPlain s causePriv
    else if n ≤ 15 ∨ n = 18 ∨ n = 19 ∨ n = 26 ∨ (s.cur.id.kind = .carter ∧ (n = 16 ∨ n = 17)) then trapPlain s causeIllegal
    else (s.updCur (fun t => t.writeSr n (s.rdS a))).retire)

/-! ### Hints -/

/-- The end of a hint word: the attached hints stay, unless a loop branches back at the word (R334). -/
def State.hintEnd (s : State) : State :=
  let p := s.cur.sc.pc
  let s1 := s.updCur (fun t => t.fall)
  (if s1.cur.sc.pc = p + 4 then s1 else s1.updCur (fun t => t.dropHints)).count

/-- The hints attached so far, changed. -/
def State.attach (s : State) (f : Hints → Hints) : State := s.updCur (fun t => { t with sc := { t.sc with hints := f t.sc.hints } })

def execHimm (p : BitVec 22) (s : State) : Result := goOn (s.attach (fun h => { h with himm := some p })).hintEnd
/-- HMOD: CACHE, SCOPE and RM as one payload (R336). -/
def execHmod (c : BitVec 4) (p r : BitVec 3) (s : State) : Result :=
  goOn (s.attach (fun h => { h with hmod := some (c ++ p ++ r) })).hintEnd
/-- HSCHED: bits 21:12 of the payload are ignored (R337). -/
def execHsched (x : BitVec 10) (c : BitVec 4) (n : BitVec 8) (s : State) : Result :=
  let _ := x
  goOn (s.attach (fun h => { h with hsched := some (c ++ n) })).hintEnd
def execHnop (p : BitVec 22) (s : State) : Result := let _ := p; goOn s.hintEnd
/-- Kinds 4 to 15 are no-ops (R220). -/
def execHintKindNoop (k : BitVec 4) (p : BitVec 22) (s : State) : Result := let _ := (k, p); goOn s.hintEnd

end Sys2Proof.Machine
end

