-- ==== Sys2Proof/Machine/Dispatch.lean ====
section
/-!
DEFINITION. The dispatch of an instruction to its meaning, one arm per constructor.
-/
namespace Sys2Proof.Machine

/-- What an instruction does to the running agent and the panel. -/
def exec (i : Instr) (s : State) : Host.Outcome State Fault Refusal :=
  match i with
  | .nop => Sys2Proof.Machine.execNop s
  | .trap n => Sys2Proof.Machine.execTrap n s
  | .brk n => Sys2Proof.Machine.execBrk n s
  | .tret => Sys2Proof.Machine.execTret s
  | .tkill => Sys2Proof.Machine.execTkill s
  | .tskip => Sys2Proof.Machine.execTskip s
  | .mfsr d r => Sys2Proof.Machine.execMfsr d r s
  | .mtsr a r => Sys2Proof.Machine.execMtsr a r s
  | .halt => Sys2Proof.Machine.execHalt s
  | .sadd d a b => Sys2Proof.Machine.execSadd d a b s
  | .ssub d a b => Sys2Proof.Machine.execSsub d a b s
  | .smul d a b => Sys2Proof.Machine.execSmul d a b s
  | .smulh d a b => Sys2Proof.Machine.execSmulh d a b s
  | .smulhu d a b => Sys2Proof.Machine.execSmulhu d a b s
  | .sdiv d a b => Sys2Proof.Machine.execSdiv d a b s
  | .sdivu d a b => Sys2Proof.Machine.execSdivu d a b s
  | .srem d a b => Sys2Proof.Machine.execSrem d a b s
  | .sremu d a b => Sys2Proof.Machine.execSremu d a b s
  | .sand d a b => Sys2Proof.Machine.execSand d a b s
  | .sor d a b => Sys2Proof.Machine.execSor d a b s
  | .sxor d a b => Sys2Proof.Machine.execSxor d a b s
  | .sshl d a b => Sys2Proof.Machine.execSshl d a b s
  | .sshr d a b => Sys2Proof.Machine.execSshr d a b s
  | .ssra d a b => Sys2Proof.Machine.execSsra d a b s
  | .smin d a b => Sys2Proof.Machine.execSmin d a b s
  | .smax d a b => Sys2Proof.Machine.execSmax d a b s
  | .sminu d a b => Sys2Proof.Machine.execSminu d a b s
  | .smaxu d a b => Sys2Proof.Machine.execSmaxu d a b s
  | .sclz d a => Sys2Proof.Machine.execSclz d a s
  | .spopc d a => Sys2Proof.Machine.execSpopc d a s
  | .saddi d a m => Sys2Proof.Machine.execSaddi d a m s
  | .sshli d a n => Sys2Proof.Machine.execSshli d a n s
  | .sshri d a n => Sys2Proof.Machine.execSshri d a n s
  | .ssrai d a n => Sys2Proof.Machine.execSsrai d a n s
  | .slui d m => Sys2Proof.Machine.execSlui d m s
  | .scmp d c a b => Sys2Proof.Machine.execScmp d c a b s
  | .scmpi d c a m => Sys2Proof.Machine.execScmpi d c a m s
  | .sldW d a o => Sys2Proof.Machine.execSldW d a o s
  | .sldD d a o => Sys2Proof.Machine.execSldD d a o s
  | .sstW d a o => Sys2Proof.Machine.execSstW d a o s
  | .sstD d a o => Sys2Proof.Machine.execSstD d a o s
  | .br c n o => Sys2Proof.Machine.execBr c n o s
  | .call o => Sys2Proof.Machine.execCall o s
  | .jmpr a => Sys2Proof.Machine.execJmpr a s
  | .callr a => Sys2Proof.Machine.execCallr a s
  | .ret => Sys2Proof.Machine.execRet s
  | .cand d a b => Sys2Proof.Machine.execCand d a b s
  | .cor d a b => Sys2Proof.Machine.execCor d a b s
  | .cxor d a b => Sys2Proof.Machine.execCxor d a b s
  | .cnot d a => Sys2Proof.Machine.execCnot d a s
  | .looph a l => Sys2Proof.Machine.execLooph a l s
  | .loophi n l => Sys2Proof.Machine.execLoophi n l s
  | .lbrk => Sys2Proof.Machine.execLbrk s
  | .vif p => Sys2Proof.Machine.execVif p s
  | .velse => Sys2Proof.Machine.execVelse s
  | .vendif => Sys2Proof.Machine.execVendif s
  | .vloop => Sys2Proof.Machine.execVloop s
  | .vbrk p k => Sys2Proof.Machine.execVbrk p k s
  | .vcont p k => Sys2Proof.Machine.execVcont p k s
  | .endvl d => Sys2Proof.Machine.execEndvl d s
  | .exit => Sys2Proof.Machine.execExit s
  | .exitS a => Sys2Proof.Machine.execExitS a s
  | .yield => Sys2Proof.Machine.execYield s
  | .yieldc a b t => Sys2Proof.Machine.execYieldc a b t s
  | .split w => Sys2Proof.Machine.execSplit w s
  | .fuse d w t => Sys2Proof.Machine.execFuse d w t s
  | .lease a => Sys2Proof.Machine.execLease a s
  | .leasem => Sys2Proof.Machine.execLeasem s
  | .leaseq d k => Sys2Proof.Machine.execLeaseq d k s
  | .gbar g q o => Sys2Proof.Machine.execGbar g q o s
  | .garrive d g q o => Sys2Proof.Machine.execGarrive d g q o s
  | .gwait a g q o => Sys2Proof.Machine.execGwait a g q o s
  | .gqry d g k => Sys2Proof.Machine.execGqry d g k s
  | .vadd d a b p => Sys2Proof.Machine.execVadd d a b p s
  | .vsub d a b p => Sys2Proof.Machine.execVsub d a b p s
  | .vadds d a b p => Sys2Proof.Machine.execVadds d a b p s
  | .vsubs d a b p => Sys2Proof.Machine.execVsubs d a b p s
  | .vmul d a b p => Sys2Proof.Machine.execVmul d a b p s
  | .vmulh d a b p => Sys2Proof.Machine.execVmulh d a b p s
  | .vmulhu d a b p => Sys2Proof.Machine.execVmulhu d a b p s
  | .vmad d a b p => Sys2Proof.Machine.execVmad d a b p s
  | .vand d a b p => Sys2Proof.Machine.execVand d a b p s
  | .vor d a b p => Sys2Proof.Machine.execVor d a b p s
  | .vxor d a b p => Sys2Proof.Machine.execVxor d a b p s
  | .vandn d a b p => Sys2Proof.Machine.execVandn d a b p s
  | .vshl d a b p => Sys2Proof.Machine.execVshl d a b p s
  | .vshr d a b p => Sys2Proof.Machine.execVshr d a b p s
  | .vsra d a b p => Sys2Proof.Machine.execVsra d a b p s
  | .vrot d a b p => Sys2Proof.Machine.execVrot d a b p s
  | .vmin d a b p => Sys2Proof.Machine.execVmin d a b p s
  | .vmax d a b p => Sys2Proof.Machine.execVmax d a b p s
  | .vminu d a b p => Sys2Proof.Machine.execVminu d a b p s
  | .vmaxu d a b p => Sys2Proof.Machine.execVmaxu d a b p s
  | .vaddus d a b p => Sys2Proof.Machine.execVaddus d a b p s
  | .vsubus d a b p => Sys2Proof.Machine.execVsubus d a b p s
  | .vabsd d a b p => Sys2Proof.Machine.execVabsd d a b p s
  | .vavg d a b p => Sys2Proof.Machine.execVavg d a b p s
  | .vceq d a b p => Sys2Proof.Machine.execVceq d a b p s
  | .vcne d a b p => Sys2Proof.Machine.execVcne d a b p s
  | .vclt d a b p => Sys2Proof.Machine.execVclt d a b p s
  | .vcle d a b p => Sys2Proof.Machine.execVcle d a b p s
  | .vcltu d a b p => Sys2Proof.Machine.execVcltu d a b p s
  | .vcleu d a b p => Sys2Proof.Machine.execVcleu d a b p s
  | .vctst d a b p => Sys2Proof.Machine.execVctst d a b p s
  | .vaddh2 d a b p => Sys2Proof.Machine.execVaddh2 d a b p s
  | .vaddb4 d a b p => Sys2Proof.Machine.execVaddb4 d a b p s
  | .vmulh2 d a b p => Sys2Proof.Machine.execVmulh2 d a b p s
  | .vdot4 d a b p => Sys2Proof.Machine.execVdot4 d a b p s
  | .vsel d a b q => Sys2Proof.Machine.execVsel d a b q s
  | .vclz d a p => Sys2Proof.Machine.execVclz d a p s
  | .vpopc d a p => Sys2Proof.Machine.execVpopc d a p s
  | .vbrev d a p => Sys2Proof.Machine.execVbrev d a p s
  | .vaddi d a p m => Sys2Proof.Machine.execVaddi d a p m s
  | .vshli d a p n => Sys2Proof.Machine.execVshli d a p n s
  | .vshri d a p n => Sys2Proof.Machine.execVshri d a p n s
  | .vsrai d a p n => Sys2Proof.Machine.execVsrai d a p n s
  | .vmovi d p m => Sys2Proof.Machine.execVmovi d p m s
  | .vmovhi d p m => Sys2Proof.Machine.execVmovhi d p m s
  | .vcmpi d c a p m => Sys2Proof.Machine.execVcmpi d c a p m s
  | .fadd d a b p => Sys2Proof.Machine.execFadd d a b p s
  | .fsub d a b p => Sys2Proof.Machine.execFsub d a b p s
  | .fmul d a b p => Sys2Proof.Machine.execFmul d a b p s
  | .fmac d a b p => Sys2Proof.Machine.execFmac d a b p s
  | .fmin d a b p => Sys2Proof.Machine.execFmin d a b p s
  | .fmax d a b p => Sys2Proof.Machine.execFmax d a b p s
  | .fminm d a b p => Sys2Proof.Machine.execFminm d a b p s
  | .fmaxm d a b p => Sys2Proof.Machine.execFmaxm d a b p s
  | .fceq d a b p => Sys2Proof.Machine.execFceq d a b p s
  | .fclt d a b p => Sys2Proof.Machine.execFclt d a b p s
  | .fcle d a b p => Sys2Proof.Machine.execFcle d a b p s
  | .fcun d a b p => Sys2Proof.Machine.execFcun d a b p s
  | .fdiv d a b p => Sys2Proof.Machine.execFdiv d a b p s
  | .fsqrt d a p => Sys2Proof.Machine.execFsqrt d a p s
  | .frsq d a p => Sys2Proof.Machine.execFrsq d a p s
  | .frcp d a p => Sys2Proof.Machine.execFrcp d a p s
  | .fexp2 d a p => Sys2Proof.Machine.execFexp2 d a p s
  | .flog2 d a p => Sys2Proof.Machine.execFlog2 d a p s
  | .fsinpi d a p => Sys2Proof.Machine.execFsinpi d a p s
  | .fcospi d a p => Sys2Proof.Machine.execFcospi d a p s
  | .fma d a b c p => Sys2Proof.Machine.execFma d a b c p s
  | .fms d a b c p => Sys2Proof.Machine.execFms d a b c p s
  | .fnma d a b c p => Sys2Proof.Machine.execFnma d a b c p s
  | .fnms d a b c p => Sys2Proof.Machine.execFnms d a b c p s
  | .hadd2 d a b p => Sys2Proof.Machine.execHadd2 d a b p s
  | .hmul2 d a b p => Sys2Proof.Machine.execHmul2 d a b p s
  | .hfmac2 d a b p => Sys2Proof.Machine.execHfmac2 d a b p s
  | .hmax2 d a b p => Sys2Proof.Machine.execHmax2 d a b p s
  | .badd2 d a b p => Sys2Proof.Machine.execBadd2 d a b p s
  | .bmul2 d a b p => Sys2Proof.Machine.execBmul2 d a b p s
  | .bfmac2 d a b p => Sys2Proof.Machine.execBfmac2 d a b p s
  | .bmax2 d a b p => Sys2Proof.Machine.execBmax2 d a b p s
  | .cvt d a k p m => Sys2Proof.Machine.execCvt d a k p m s
  | .fclass d a p => Sys2Proof.Machine.execFclass d a p s
  | .frint d a p => Sys2Proof.Machine.execFrint d a p s
  | .fscalb d a b p => Sys2Proof.Machine.execFscalb d a b p s
  | .fgetexp d a p => Sys2Proof.Machine.execFgetexp d a p s
  | .pand d a b => Sys2Proof.Machine.execPand d a b s
  | .por d a b => Sys2Proof.Machine.execPor d a b s
  | .pxor d a b => Sys2Proof.Machine.execPxor d a b s
  | .pandn d a b => Sys2Proof.Machine.execPandn d a b s
  | .pnot d a => Sys2Proof.Machine.execPnot d a s
  | .pflag d f => Sys2Proof.Machine.execPflag d f s
  | .flclr m => Sys2Proof.Machine.execFlclr m s
  | .flrd d => Sys2Proof.Machine.execFlrd d s
  | .mfacc d t k b p => Sys2Proof.Machine.execMfacc d t k b p s
  | .mtacc d k b p => Sys2Proof.Machine.execMtacc d k b p s
  | .mfaccz d t k b p => Sys2Proof.Machine.execMfaccz d t k b p s
  | .shfli d a b p => Sys2Proof.Machine.execShfli d a b p s
  | .shflu d a b p => Sys2Proof.Machine.execShflu d a b p s
  | .shfld d a b p => Sys2Proof.Machine.execShfld d a b p s
  | .shflx d a b p => Sys2Proof.Machine.execShflx d a b p s
  | .vall j d k q => Sys2Proof.Machine.execVall j d k q s
  | .vany j d k q => Sys2Proof.Machine.execVany j d k q s
  | .vbal d k q => Sys2Proof.Machine.execVbal d k q s
  | .vcnt d k q => Sys2Proof.Machine.execVcnt d k q s
  | .vred d a t o p => Sys2Proof.Machine.execVred d a t o p s
  | .vscani d a o p => Sys2Proof.Machine.execVscani d a o p s
  | .vscanx d a o p => Sys2Proof.Machine.execVscanx d a o p s
  | .vbcast d a b => Sys2Proof.Machine.execVbcast d a b s
  | .vextr d a b => Sys2Proof.Machine.execVextr d a b s
  | .vinsr d a b => Sys2Proof.Machine.execVinsr d a b s
  | .vcprs d a p => Sys2Proof.Machine.execVcprs d a p s
  | .vlane d h => Sys2Proof.Machine.execVlane d h s
  | .vtid d => Sys2Proof.Machine.execVtid d s
  | .lds d a b p z => Sys2Proof.Machine.execLds d a b p z s
  | .sts d a b p z => Sys2Proof.Machine.execSts d a b p z s
  | .lda d a b p z => Sys2Proof.Machine.execLda d a b p z s
  | .sta d a b p z => Sys2Proof.Machine.execSta d a b p z s
  | .ldg d a b p z => Sys2Proof.Machine.execLdg d a b p z s
  | .stg d a b p z => Sys2Proof.Machine.execStg d a b p z s
  | .atom d a b o r => Sys2Proof.Machine.execAtom d a b o r s
  | .fence q o => Sys2Proof.Machine.execFence q o s
  | .acq d a q => Sys2Proof.Machine.execAcq d a q s
  | .rel b a q => Sys2Proof.Machine.execRel b a q s
  | .bind d a b => Sys2Proof.Machine.execBind d a b s
  | .unbind a => Sys2Proof.Machine.execUnbind a s
  | .cinv a b => Sys2Proof.Machine.execCinv a b s
  | .cwbWriteback a b => Sys2Proof.Machine.execCwbWriteback a b s
  | .satom o r d a b => Sys2Proof.Machine.execSatom o r d a b s
  | .wait l q c t r => Sys2Proof.Machine.execWait l q c t r s
  | .cpost a => Sys2Proof.Machine.execCpost a s
  | .waitge a b f q o => Sys2Proof.Machine.execWaitge a b f q o s
  | .waitgec a b f q o => Sys2Proof.Machine.execWaitgec a b f q o s
  | .launch a => Sys2Proof.Machine.execLaunch a s
  | .launchnb d a => Sys2Proof.Machine.execLaunchnb d a s
  | .armcnt d a b => Sys2Proof.Machine.execArmcnt d a b s
  | .disarm d b => Sys2Proof.Machine.execDisarm d b s
  | .cntrd d k b => Sys2Proof.Machine.execCntrd d k b s
  | .heat d a => Sys2Proof.Machine.execHeat d a s
  | .cool a => Sys2Proof.Machine.execCool a s
  | .cwbWaybill d a => Sys2Proof.Machine.execCwbWaybill d a s
  | .cwbr d a => Sys2Proof.Machine.execCwbr d a s
  | .cstra d a => Sys2Proof.Machine.execCstra d a s
  | .cstrb d a => Sys2Proof.Machine.execCstrb d a s
  | .cinbox d => Sys2Proof.Machine.execCinbox d s
  | .cdone => Sys2Proof.Machine.execCdone s
  | .ctladv d t => Sys2Proof.Machine.execCtladv d t s
  | .cwaitq d k => Sys2Proof.Machine.execCwaitq d k s
  | .mchb a b y c g => Sys2Proof.Machine.execMchb a b y c g s
  | .mche d => Sys2Proof.Machine.execMche d s
  | .mzacc a b => Sys2Proof.Machine.execMzacc a b s
  | .mcap d => Sys2Proof.Machine.execMcap d s
  | .mstat d c => Sys2Proof.Machine.execMstat d c s
  | .mma f v e b p q o => Sys2Proof.Machine.execMma f v e b p q o s
  | .rldW d a o b p => Sys2Proof.Machine.execRldW d a o b p s
  | .rldD d a o b p => Sys2Proof.Machine.execRldD d a o b p s
  | .rldQ d a o b p => Sys2Proof.Machine.execRldQ d a o b p s
  | .rstW d a o b p => Sys2Proof.Machine.execRstW d a o b p s
  | .rstD d a o b p => Sys2Proof.Machine.execRstD d a o b p s
  | .rstQ d a o b p => Sys2Proof.Machine.execRstQ d a o b p s
  | .ratom o r d a b => Sys2Proof.Machine.execRatom o r d a b s
  | .rnotify a b q r => Sys2Proof.Machine.execRnotify a b q r s
  | .rfence => Sys2Proof.Machine.execRfence s
  | .tready d a => Sys2Proof.Machine.execTready d a s
  | .clqry d a k => Sys2Proof.Machine.execClqry d a k s
  | .topo d a => Sys2Proof.Machine.execTopo d a s
  | .himm p => Sys2Proof.Machine.execHimm p s
  | .hmod c q r => Sys2Proof.Machine.execHmod c q r s
  | .hsched x c n => Sys2Proof.Machine.execHsched x c n s
  | .hnop p => Sys2Proof.Machine.execHnop p s
  | .hintKindNoop kind payload => Sys2Proof.Machine.execHintKindNoop kind payload s
  | .accessComplete => Sys2Proof.Machine.execAccessComplete s
  | .atomicPerform => Sys2Proof.Machine.execAtomicPerform s
  | .writeArrival => Sys2Proof.Machine.execWriteArrival s
  | .counterCarterMessage => Sys2Proof.Machine.execCounterCarterMessage s
  | .tlbInvalidationAck => Sys2Proof.Machine.execTlbInvalidationAck s
  | .islandTaskPush => Sys2Proof.Machine.execIslandTaskPush s
  | .pendingLaunchForward => Sys2Proof.Machine.execPendingLaunchForward s
  | .coachPlacement => Sys2Proof.Machine.execCoachPlacement s
  | .teamAdmission => Sys2Proof.Machine.execTeamAdmission s
  | .leaseWindowEnd => Sys2Proof.Machine.execLeaseWindowEnd s
  | .teamForced => Sys2Proof.Machine.execTeamForced s
  | .teamWake => Sys2Proof.Machine.execTeamWake s
  | .fuseTimeout => Sys2Proof.Machine.execFuseTimeout s
  | .swapOut => Sys2Proof.Machine.execSwapOut s
  | .coachRestore => Sys2Proof.Machine.execCoachRestore s
  | .quantumBoundary => Sys2Proof.Machine.execQuantumBoundary s
  | .successorPush => Sys2Proof.Machine.execSuccessorPush s
  | .taskCompletion => Sys2Proof.Machine.execTaskCompletion s
  | .joinDecrement => Sys2Proof.Machine.execJoinDecrement s
  | .heatGrant => Sys2Proof.Machine.execHeatGrant s
  | .waybillElementLand => Sys2Proof.Machine.execWaybillElementLand s
  | .waybillComplete => Sys2Proof.Machine.execWaybillComplete s
  | .streamBlockPush => Sys2Proof.Machine.execStreamBlockPush s
  | .chainDispatch => Sys2Proof.Machine.execChainDispatch s
  | .kblockApply => Sys2Proof.Machine.execKblockApply s
  | .frameReceive => Sys2Proof.Machine.execFrameReceive s
  | .frameRetry => Sys2Proof.Machine.execFrameRetry s
  | .relayForward => Sys2Proof.Machine.execRelayForward s
  | .rotorSlot => Sys2Proof.Machine.execRotorSlot s
  | .remoteReply => Sys2Proof.Machine.execRemoteReply s
  | .remoteTimeout => Sys2Proof.Machine.execRemoteTimeout s
  | .reportOnlyTimeout => Sys2Proof.Machine.execReportOnlyTimeout s
  | .bellowsSend => Sys2Proof.Machine.execBellowsSend s
  | .collectiveComplete => Sys2Proof.Machine.execCollectiveComplete s
  | .hcpselWrite => Sys2Proof.Machine.execHcpselWrite s
  | .queueEnable => Sys2Proof.Machine.execQueueEnable s
  | .queueDisable => Sys2Proof.Machine.execQueueDisable s
  | .doorbell => Sys2Proof.Machine.execDoorbell s
  | .cmdNop => Sys2Proof.Machine.execCmdNop s
  | .cmdLaunch => Sys2Proof.Machine.execCmdLaunch s
  | .cmdWrite => Sys2Proof.Machine.execCmdWrite s
  | .cmdCopy => Sys2Proof.Machine.execCmdCopy s
  | .cmdMctset => Sys2Proof.Machine.execCmdMctset s
  | .cmdKill => Sys2Proof.Machine.execCmdKill s
  | .launchDispatch => Sys2Proof.Machine.execLaunchDispatch s
  | .ctxCreate => Sys2Proof.Machine.execCtxCreate s
  | .ctxDestroy => Sys2Proof.Machine.execCtxDestroy s
  | .ctxSuspend => Sys2Proof.Machine.execCtxSuspend s
  | .ctxResume => Sys2Proof.Machine.execCtxResume s
  | .inval => Sys2Proof.Machine.execInval s
  | .pfDone => Sys2Proof.Machine.execPfDone s
  | .topoRead => Sys2Proof.Machine.execTopoRead s
  | .topoFence => Sys2Proof.Machine.execTopoFence s
  | .topoRemap => Sys2Proof.Machine.execTopoRemap s
  | .hearthBudgetWrite => Sys2Proof.Machine.execHearthBudgetWrite s
  | .fwmaskWrite => Sys2Proof.Machine.execFwmaskWrite s
  | .corectxWrite => Sys2Proof.Machine.execCorectxWrite s
  | .keyZeroise => Sys2Proof.Machine.execKeyZeroise s
  | .fareqAssign => Sys2Proof.Machine.execFareqAssign s
  | .fareqQuarantine => Sys2Proof.Machine.execFareqQuarantine s
  | .scrubStart => Sys2Proof.Machine.execScrubStart s
  | .scrubUnit => Sys2Proof.Machine.execScrubUnit s
  | .islandReset => Sys2Proof.Machine.execIslandReset s
  | .islandResetEnd => Sys2Proof.Machine.execIslandResetEnd s
  | .discard => Sys2Proof.Machine.execDiscard s
  | .hubWake => Sys2Proof.Machine.execHubWake s
  | .registerWrite => Sys2Proof.Machine.execRegisterWrite s
  | .energyWindow => Sys2Proof.Machine.execEnergyWindow s
  | .correctedError => Sys2Proof.Machine.execCorrectedError s
  | .uncorrectableError => Sys2Proof.Machine.execUncorrectableError s
  | .temperatureCrossing => Sys2Proof.Machine.execTemperatureCrossing s
  | .linkWindowEnd => Sys2Proof.Machine.execLinkWindowEnd s
  | .fwLoad => Sys2Proof.Machine.execFwLoad s
  | .fwVerifyComplete => Sys2Proof.Machine.execFwVerifyComplete s
  | .hubReset => Sys2Proof.Machine.execHubReset s
  | .spdmRequest => Sys2Proof.Machine.execSpdmRequest s
  | .powerOn => Sys2Proof.Machine.execPowerOn s
  | .illegalInsn => Sys2Proof.Machine.execIllegalInsn s
  | .instructionFetchFault => Sys2Proof.Machine.execInstructionFetchFault s
  | .invalidCommand => Sys2Proof.Machine.execInvalidCommand s
  | .invalidMailboxRequest => Sys2Proof.Machine.execInvalidMailboxRequest s
  | .edgePortLinkUp => Sys2Proof.Machine.execEdgePortLinkUp s
  | .powerLoss => Sys2Proof.Machine.execPowerLoss s

end Sys2Proof.Machine
end

