-- ==== Sys2Proof/Machine/Slots.lean ====
section
/-!
DEFINITION. An agent's turn: one instruction executed, or one taken by the front end into the vector queue, or one issued from a stream of it (R35-R38,
R44-R48); and the round of turns that follows (R76).
-/
namespace Sys2Proof.Machine

/-- The next state changed; a stop stands. -/
def after (r : Result) (f : State → State) : Result :=
  match r with
  | .next s => .next (f s)
  | .fault x => .fault x
  | .refused x => .refused x

/-- A step of the machine's own runs: its instruction, with its operands in `ev`. -/
def runEvent (e : Event) (s : State) : Result := exec e.instr (s.withEv e)

/-- The running agent executes a decoded word when it is ready. -/
def runReady (i : Instr) (w : Word32) (s : State) : Result := if s.cur.ready i then exec i ((s.latch w).pass w) else .next (stall s)

/-- One instruction of the running agent, whose vector queue is empty: fetched, decoded for the agent, and executed when it is ready. -/
def runCur (s : State) : Result :=
  match fetchWord s with
  | (s1, .bad _) => runEvent .instructionFetchFault s1
  | (s1, .word w) =>
    match decodeFor s1.cur w with
    | none => runEvent (.illegalInsn w) (s1.latch w)
    | some i => runReady i w s1

/-! ### The front end -/

/-- The entries of the vector queue (R35: 32 at most). -/
def Slots.entries (x : Slots) : Nat := x.first.length + x.second.length

/-- The front end passes an instruction without executing it: its hints are its own, and it goes on behind it. -/
def Thread.passBy (t : Thread) (w : Word32) : Thread := { t with sl := { t.sl with ifs := ifsAfter t w } }.fall.dropHints

/-- An instruction as the front end pushes it, with the scalar values at its position (R36). -/
def Thread.entry (t : Thread) (i : Instr) (w : Word32) : QEntry := { instr := i, word := w, sc := { t.sc with insn := w }, ifs := t.sl.ifs }

/-- The front end pushes an instruction into the queue of a stream (R35, R45). -/
def Thread.pushTo (second : Bool) (i : Instr) (w : Word32) (t : Thread) : Thread :=
  let e := t.entry i w
  let x := if second then { t.sl with second := t.sl.second ++ [e], two := t.sl.two.map (fun m => { m with seen := m.seen + 1 }) }
    else { t.sl with first := t.sl.first ++ [e] }
  { t with sl := x }.passBy w

/-- The open IF whose ELSE would enter two-slot mode, if the conditions of R44 hold. -/
def Thread.mayTwo (t : Thread) : Option OpenIf :=
  match t.sl.ifs with
  | [] => none
  | i :: _ => if t.id.kind = .team && i.even && i.clean && t.sl.two.isNone && t.sc.pc1.isNone then some i else none

/-- Two-slot mode entered at the ELSE of an IF: the instructions in the queue are the rest of the first stream, and the second PC slot holds the first
instruction of the else-arm (R44, R45). -/
def Thread.openTwo (i : OpenIf) (t : Thread) : Thread :=
  let u := t.fall.dropHints
  let dcB := (t.wrDcs (fun l => if i.thenLanes.contains l then 1 else 0) t.lanes).ln.dc
  let m : TwoSlot :=
    { base := t.sl.ifs.length, thenLanes := i.thenLanes, dcA := t.ln.dc, dcB := dcB, inElse := true, seen := 0, done := 0, second := false
      opsA := (t.fl.ops.map (fun o => o.id)).filter (fun o => !i.before.contains o), opsB := [] }
  { u with sl := { u.sl with two := some m }, sc := { u.sc with pc1 := some u.sc.pc } }

/-- Two-slot mode left at the ENDIF, which both streams have reached: the lanes of the first stream as its ELSE leaves them (R40, R47). -/
def Thread.closeTwo (t0 : Thread) : Thread :=
  let t := t0.mergeDc (fun d => if d = 0 then 1 else if d = 1 then 0 else d)
  { t with sl := { t.sl with two := none }, sc := { t.sc with pc1 := none } }

/-- Handler mode was entered meanwhile. -/
def Thread.entered (old t : Thread) : Bool := t.tr.handler && !old.tr.handler

/-- The front end executes an instruction of one arm itself, with both queues empty: under the depth counters of that arm's stream. -/
def runInArm (second : Bool) (i : Instr) (w : Word32) (s : State) : Result :=
  let t := s.cur
  after (runReady i w (s.updCur (fun t => { t with ln := { t.ln with dc := (t.sl.two.map (fun m => m.dc second)).getD t.ln.dc } })))
    (fun s' => s'.updT t.id.uid (fun u =>
      if t.entered u then u else { u with sl := { u.sl with two := u.sl.two.map (fun m => m.setDc second u.ln.dc) } }))

/-- The front end has stopped behind an instruction that has not completed (R37). -/
def Slots.halts (x : Slots) : Bool := (x.first ++ x.second).any (fun e => stops e.word)

/-- The front end outside two-slot mode: it executes what it may execute ahead, enters two-slot mode at an ELSE where it may, executes an IF and what no
queue takes with the queue empty, and else pushes, or waits. -/
def frontOne (i : Instr) (w : Word32) (s : State) : Result :=
  let t := s.cur
  if runsAhead t w then runReady i w s
  else if t.sl.quiet && (isIf w || !queues w) then runReady i w s
  else if isElse w && t.mayTwo.isSome then .next (((s.latch w).updCur (fun t => (t.mayTwo.map (fun o => t.openTwo o)).getD t)).count)
  else if queues w && t.sl.entries < 32 then .next (s.updCur (fun t => t.pushTo false i w))
  else .next (stall s)

/-- An access of the running agent that is performed late is under way. -/
def lateOpen (s : State) : Bool := s.ord.late.any (fun a => s.cur.holds a.op)

/-- The front end in two-slot mode: every scalar instruction of both arms once, in program order (R46); the ELSE passed again after a trap of the first
stream; the ENDIF once both streams have reached it, before any later access (R47, R48); any other instruction into the queue of its arm's stream, unless the second stream has issued
it already. -/
def frontTwo (m : TwoSlot) (i : Instr) (w : Word32) (s : State) : Result :=
  let t := s.cur
  let own := decide (t.sl.ifs.length ≤ m.base) && (isElse w || isEndif w)
  if runsAhead t w then runReady i w s
  else if own && isElse w && !m.inElse then
    .next (s.updCur (fun t => { t with sl := { t.sl with two := some { m with inElse := true } } }.fall.dropHints))
  else if own then
    (if t.sl.empty && !lateOpen s then runReady i w ((dropAhead s t.mIsl t.id.core).updCur Thread.closeTwo) else .next (stall s))
  else if queues w then
    (if m.inElse && decide (m.seen < m.done) then
      .next (s.updCur (fun t => { t with sl := { t.sl with two := some { m with seen := m.seen + 1 } } }.passBy w))
    else if t.sl.entries < 32 then .next (s.updCur (fun t => t.pushTo m.inElse i w)) else .next (stall s))
  else if t.sl.empty then runInArm m.inElse i w s
  else .next (stall s)

/-- The front end takes one instruction, unless it has stopped (R35, R37). A fetch that fails and a word that is no instruction trap once the queue is empty
(R181). -/
def frontStep (s : State) : Result :=
  if s.cur.sl.halts then .next (stall s)
  else match fetchWord s with
  | (s1, .bad _) => if s1.cur.sl.empty then runEvent .instructionFetchFault s1 else .next (stall s1)
  | (s1, .word w) =>
    match decodeFor s1.cur w with
    | none => if s1.cur.sl.empty then runEvent (.illegalInsn w) (s1.latch w) else .next (stall s1)
    | some i => match s1.cur.sl.two with
      | none => frontOne i w s1
      | some m => frontTwo m i w s1

/-! ### Issue -/

/-- The team at the entry that issues: the scalar values of its position, the depth counters of its stream, and the streams as a trap there keeps them. -/
def Thread.atEntry (second : Bool) (e : QEntry) (t : Thread) : Thread :=
  { t with
    sc := { e.sc with pc1 := t.sc.pc1 }
    ln := { t.ln with dc := (t.sl.two.map (fun m => m.dc second)).getD t.ln.dc }
    sl := t.sl.stopped second e }

/-- The operations of the team's stream after it has issued an instruction: those still under way, and those that it has begun. -/
def opsAfter (old t : Thread) (ops : List Nat) : List Nat :=
  ((t.fl.ops.map (fun o => o.id)).filter (fun o => ops.contains o || !(old.fl.ops.any (fun p => p.id = o))))

/-- Two-slot mode after a stream has issued an instruction. -/
def TwoSlot.issued (m : TwoSlot) (second : Bool) (old t : Thread) : TwoSlot :=
  let m1 := { m.setDc second t.ln.dc with second := second }
  if second then { m1 with done := m1.done + 1, opsB := opsAfter old t m1.opsB } else { m1 with opsA := opsAfter old t m1.opsA }

/-- The team after the entry's turn: it stands in its handler where the entry trapped; the entry has left the queue where it is done, and stays at its
head where it waits; the front end stands where it stood. -/
def Thread.afterEntry (second : Bool) (e : QEntry) (old t : Thread) : Thread :=
  let f := ({ t with sc := e.sc }.fall).sc
  if old.entered t then t
  else if t.sc.pc = f.pc && t.sc.loops = f.loops then
    { t with
      sc := { old.sc with pc1 := if second then some f.pc else old.sc.pc1 }
      sl := { old.sl with
        first := if second then old.sl.first else old.sl.first.drop 1
        second := if second then old.sl.second.drop 1 else old.sl.second
        two := old.sl.two.map (fun m => m.issued second old t) } }
  else { t with sc := old.sc, sl := old.sl, ln := { t.ln with dc := old.ln.dc } }

/-- The team after the turn of an entry behind which the front end has stopped: the entry has left the queue, and the front end goes on where the
instruction leaves it, which is at the instruction itself where that waits. -/
def Thread.afterStop (second : Bool) (e : QEntry) (old t : Thread) : Thread :=
  let back := t.sc.pc = e.sc.pc
  let two := old.sl.two.map (fun m =>
    let n := m.issued second old t
    if back && second then { n with seen := n.seen - 1, done := m.done } else n)
  if old.entered t then t
  else
    { t with
      sc := { t.sc with pc1 := if second then some t.sc.pc else old.sc.pc1 }
      sl := { old.sl with first := if second then old.sl.first else [], second := if second then [] else old.sl.second, two := two } }

/-- A stream issues the instruction at its head. -/
def issueFrom (second : Bool) (e : QEntry) (s : State) : Result :=
  let t := s.cur
  after (exec e.instr (s.updCur (Thread.atEntry second e))) (fun s' =>
    s'.updT t.id.uid (if stops e.word then Thread.afterStop second e t else Thread.afterEntry second e t))

/-- The head of a stream, if it can issue now (R45, R71). An instruction that waits for the first stream issues from the second once all of the first has
been issued and its registers are written (R46). -/
def Thread.issuable (t : Thread) (second : Bool) : Option QEntry :=
  ((if second then t.sl.second else t.sl.first).head?).filter (fun e =>
    t.ready e.instr && (!second || !joins e.word || (t.sl.first.isEmpty && t.fl.pendV.isEmpty && t.fl.pendS.isEmpty)))

/-- The loads, stores and atomics of a list that are outstanding (R45). -/
def Thread.outstanding (t : Thread) (ops : List Nat) : Nat :=
  (t.fl.ops.filter (fun o => ops.contains o.id && (o.cls = .ld || o.cls = .st))).length

/-- The heads that can issue, in the order in which they are tried: the stream that has been issuing; then the one with fewer loads, stores and atomics
outstanding, the first of two with as many; and the other (R45). -/
def Thread.nextStreams (t : Thread) : List (Bool × QEntry) :=
  match t.sl.two with
  | none => ((t.issuable false).map (fun e => (false, e))).toList
  | some m =>
    let fewer := decide (t.outstanding m.opsB < t.outstanding m.opsA)
    ([m.second, fewer, !fewer].eraseDups).filterMap (fun b => (t.issuable b).map (fun e => (b, e)))

/-- A stream's turn brought nothing: its instruction still waits at the head (R45). -/
def stalledAt (u : Nat) (e : QEntry) (r : Result) : Bool :=
  match r with
  | .next s => ((s.thread? u).map (fun t => t.runnable && (t.sl.first.head? = some e || t.sl.second.head? = some e))).getD false
  | .fault _ => false
  | .refused _ => false

/-- The first head of a list that does not wait when it issues; where each waits, the turn of the first. -/
def issueNext (s : State) : List (Bool × QEntry) → Result
  | [] => .next (stall s)
  | (b, e) :: r =>
    let x := issueFrom b e s
    if stalledAt s.cur.id.uid e x then (match r.find? (fun y => !stalledAt s.cur.id.uid y.2 (issueFrom y.1 y.2 s)) with
      | some y => issueFrom y.1 y.2 s
      | none => x)
    else x

/-- LAUNCH or LAUNCHNB (R293). -/
def isLaunch (w : Word32) : Bool := majorOf w = 0x39 && (fn8Of w = 3 || fn8Of w = 4)

/-- The running agent stands at a launch that can issue now: at the head of its queue, or at its pc with nothing in its queue. -/
def atLaunch (s : State) : Bool :=
  s.cur.runnable && s.cur.accessesDone && match s.cur.sl.first with
  | e :: _ => isLaunch e.word && s.cur.ready e.instr
  | [] => match fetchWord s with
    | (_, .bad _) => false
    | (s1, .word w) => isLaunch w && ((decodeFor s1.cur w).map s1.cur.ready).getD false

/-- Of the teams of one core that launch in a cycle with one entry of the pending-launch queue free, the oldest (R34). The older handle is the older
team. -/
def olderLauncher (s : State) : Option Nat :=
  if (s.launchQ.filter (fun e => e.isl = s.cur.id.isl && e.core = s.cur.id.core)).length = 3 && s.cur.id.kind = .team && atLaunch s then
    (((s.others.filter (fun t => t.id.kind = .team && t.id.isl = s.cur.id.isl && t.id.core = s.cur.id.core && decide (t.id.uid < s.cur.id.uid)
      && atLaunch (switchTo s t.id.uid))).foldr insertOld []).head?).map (fun t => t.id.uid)
  else none

/-- The agent whose turn it is when the running agent's comes: an older team of its core that launches in the same cycle goes first (R34). -/
def launchFirst (s : State) : State :=
  match olderLauncher s with
  | none => s
  | some u => switchTo s u

/-- One instruction of the running agent: with nothing in its queue the next of its program; else the next that a stream issues, or the front end's. -/
def runOne (s : State) : Result :=
  if s.cur.sl.quiet then runCur s
  else match s.cur.nextStreams with
    | x :: r => issueNext s (x :: r)
    | [] => if s.cur.sl.two.isSome then frontStep s else .next (stall s)

/-- The turn of the running agent. -/
def runAgent (s : State) : Result := runOne (launchFirst s)

/-! ### Turns -/

/-- The n-th owed step runs, and is owed no more; with none, the state stands. -/
def runDue (n : Nat) (s : State) : Result :=
  match s.due[n]? with
  | none => .next s
  | some e => runEvent e { s with due := s.due.eraseIdx n }

/-- Nothing can issue: the oldest owed step runs, or a cycle passes. -/
def idle (s : State) : Result := if s.due = [] then .next (passTime s 1) else runDue 0 s

/-- A turn of the agent with a handle, if it can take one. -/
def turnOf (u : Nat) (k : State → Result) (s : State) : Result :=
  let s1 := switchTo s u
  if s1.cur.id.uid = u && s1.cur.runnable then k s1 else .next s

/-- One instruction whose loads and stores are performed late (R425). -/
def runLate (s : State) : Result :=
  after (runAgent { s with ord := { s.ord with lag := true } }) (fun s => { s with ord := { s.ord with lag := false } })

/-- An agent reads an element ahead, at a place of a space: it executes instructions, every earlier access of it has completed, and the bytes are aligned
and not known to be bad (R79, R98, R425; log 6). -/
def readAhead (u space a n : Nat) (s : State) : State :=
  match s.thread? u with
  | none => s
  | some t =>
    let ok := t.runnable && t.accessesDone && t.fl.fenced.isEmpty && t.sl.two.isNone && t.id.kind ≠ .hub && [1, 2, 4, 8].contains n && a % n = 0
    let k := storeKey t.id.isl t.id.core space a
    if !ok then s
    else if space = 0 then
      if gBad s t.mIsl t.id.core a n then s
      else
        let bs := match l1Find s t.mIsl t.id.core (a / 128) with
          | some l => (List.range n).map (fun i => lineByte l.data (a % 128 + i))
          | none => s.physBytes t.mIsl a n
        { s with ord := { s.ord with ahead := { agent := u, isl := t.mIsl, core := t.id.core, space := 0, at_ := a, bytes := bs } :: s.ord.ahead } }
    else if 3 ≤ space || (s.island t.id.isl).marks.any (fun m => decide (k ≤ m) && decide (m < k + n)) then s
    else
      { s with ord := { s.ord with ahead :=
        { agent := u, isl := t.mIsl, core := t.id.core, space := space, at_ := a, bytes := s.storeBytes t.id.isl t.id.core space a n } :: s.ord.ahead } }

/-- The entry at the head of the agenda comes about. -/
def runTurn (t : Turn) (s : State) : Result :=
  match t with
  | .run u => turnOf u runAgent s
  | .lag u => turnOf u runLate s
  | .ahead u sp a n => .next (readAhead u sp a n s)
  | .push u => turnOf u frontStep s
  | .due n => runDue n s
  | .event e => runEvent e s
  | .evict isl core line => .next (evictLine s isl core line)
  | .tick n => .next (passTime s n)

/-- What follows a turn that no agenda names, so that every agent that can run does, and time passes (R76): each owed step, a turn of every other agent,
and a cycle. -/
def turnsOf (s : State) : List Turn :=
  s.due.map (fun _ => Turn.due 0) ++ (s.others.filter Thread.runnable).map (fun t => Turn.run t.id.uid) ++ [.tick 1]

/-- The state with a round behind what its agenda holds. -/
def State.withRound (s : State) : State := { s with agenda := s.agenda ++ turnsOf s }

end Sys2Proof.Machine
end

