-- ==== Sys2Proof/Machine/Step.lean ====
section
/-!
DEFINITION. One step of the panel: what the agenda names, else one instruction of the running agent, else one step that the panel owes.
-/
namespace Sys2Proof.Machine

/-- One step of the panel. -/
def step (s : State) : Host.Outcome State Fault Refusal :=
  match s.agenda with
  | t :: r => if s.panel.power || decide (t = .event .powerOn) then runTurn t { s with agenda := r } else .fault .unpowered
  | [] =>
    if !s.panel.power then .fault .unpowered
    else if s.cur.runnable then after (runAgent s) State.withRound
    else match nextAgent s with
      | some u => after (runAgent (switchTo s u)) State.withRound
      | none => idle s

/-- The state with a word placed where the next step fetches it: in a context with one page table, run by the agent whose set holds the
word (log 15). -/
def State.withFetchWord (s : State) (_nbits w : Nat) : State :=
  let k := probeKind w
  let code := cellsFrom probeCode (leBytes 4 w)
  { s with
    agenda := []
    cur := probeAgent k
    others := s.cur :: s.others
    mem := if k = .hub then s.mem else setCells (setCells s.mem probeTables) code
    hubMem := if k = .hub then setCells s.hubMem code else s.hubMem
    ctxs := probeCtx :: s.ctxs
    panel := { s.panel with power := true } }

end Sys2Proof.Machine
end

