-- ==== Sys2Proof/Safety.lean ====
section
/-!
DEFINITION. The terms of the statements: a well-kept state, a completed instruction, what an instruction writes, and its frame, which is what
stays as it was.
-/
namespace Sys2Proof.Machine

/-- Every memory is in its canonical form. -/
def State.memWf (s : State) : Bool := Memory.wf s.mem && Memory.wf s.stores && Memory.wf s.hubMem && Memory.wf s.hostMem

end Sys2Proof.Machine

namespace Sys2Proof.Spec

open Sys2Proof.Machine

/-! ### Frames -/

/-- A line of an island's memory as a core sees it: its L1's copy, else what the L2 holds (R81). -/
def lineSeen (s : State) (isl core line : Nat) : BitVec 1024 :=
  match l1Find s isl core line with
  | some l => l.data
  | none => BitVec.ofNat 1024 (s.physNat isl (line * 128) 128)

/-- A byte of an island's memory as a core sees it. -/
def seenByte (s : State) (isl core pa : Nat) : Byte := lineByte (lineSeen s isl core (pa / 128)) (pa % 128)

/-- Every memory reads as before: at the L2, through each core's L1, in the typed stores and in the host's memory. -/
def MemAs (s t : State) : Prop :=
  (∀ isl a, t.physGet isl a = s.physGet isl a)
  ∧ (∀ isl core a, seenByte t isl core a = seenByte s isl core a)
  ∧ (∀ isl core space a, t.storeGet isl core space a = s.storeGet isl core space a)
  ∧ (∀ a, spGet t.hostMem a = spGet s.hostMem a)

/-- The panel is as before but for the running agent and the model's own agenda: every other agent, every island, queue and table, and
every byte of memory, in the typed stores, in the L1s and at the L2, in the hub's memory and the host's. -/
def SameRest (s t : State) : Prop :=
  { t with cur := s.cur, agenda := s.agenda } = s ∧ MemAs s t

/-- An agent but for what the end of every instruction moves: the pc, the loops, the attached hints, and the window's count. -/
def still (t : Thread) : Thread :=
  { t with sc := { t.sc with pc := 0, loops := [], hints := Hints.none }, sch := { t.sch with winCount := 0 } }

/-- An agent but for its scalar registers. -/
def noS (t : Thread) : Thread := { t with sc := { t.sc with s := [] } }
/-- An agent but for its condition registers. -/
def noC (t : Thread) : Thread := { t with sc := { t.sc with c := 0 } }
/-- An agent but for its vector registers. -/
def noV (t : Thread) : Thread := { t with ln := { t.ln with v := [] } }
/-- An agent but for its predicates. -/
def noP (t : Thread) : Thread := { t with ln := { t.ln with p := [] } }
/-- An agent but for its flag registers. -/
def noFlags (t : Thread) : Thread := { t with ln := { t.ln with flags := [] } }
/-- An agent but for its depth counters. -/
def noDc (t : Thread) : Thread := { t with ln := { t.ln with dc := [] } }
/-- An agent but for its outstanding operations and the registers that wait for them. -/
def noFlow (t : Thread) : Thread := { t with fl := Flow.zero }
/-- An agent but for its scheduling state. -/
def noSch (t : Thread) : Thread := { t with sch := Sched.zero .active }
/-- An agent but for what an access moves besides its registers: its outstanding operations and its window's counts. -/
def noAcc (t : Thread) : Thread := noFlow (noSch t)

/-- The instruction falls through: the attached hints are used up, and where no hardware loop ends at it the pc moves on by one word
(R232, R334). -/
def Falls (s t : State) : Prop :=
  t.cur.sc.hints = Hints.none
  ∧ ((∀ l ∈ s.cur.sc.loops, l.last ≠ s.cur.sc.pc) → t.cur.sc.pc = s.cur.sc.pc + 4 ∧ t.cur.sc.loops = s.cur.sc.loops)

/-- The frame: the panel is the same, and so is the agent but for what is forgotten. -/
def Frame (forget : Thread → Thread) (s t : State) : Prop := SameRest s t ∧ still (forget t.cur) = still (forget s.cur)

/-- The instruction completes and changes nothing but what its end moves. -/
def Skips (s : State) (r : Result) : Prop := ∃ t, r = .next t ∧ Falls s t ∧ Frame id s t

/-- The instruction completes and writes x to scalar register d, or nothing where d is s0; nothing else changes. -/
def WritesS (s : State) (r : Result) (d : BitVec 6) (x : Word64) : Prop :=
  ∃ t, r = .next t ∧ (∀ k, t.rdS k = if k = d ∧ d ≠ 0 then x else s.rdS k) ∧ Falls s t ∧ Frame noS s t

/-- The instruction completes and writes b to condition register d, or nothing where d is c0; nothing else changes. -/
def WritesC (s : State) (r : Result) (d : BitVec 3) (b : Bool) : Prop :=
  ∃ t, r = .next t ∧ (∀ k : BitVec 3, t.cur.rdC k.toNat = if k = d ∧ d ≠ 0 then b else s.cur.rdC k.toNat)
    ∧ Falls s t ∧ Frame noC s t

/-- The instruction completes and writes f l to register d of each lane l of a set; nothing else changes. -/
def WritesV (s : State) (r : Result) (d : Nat) (on : Nat → Bool) (f : Nat → Word32) : Prop :=
  ∃ t, r = .next t
    ∧ (∀ k l, k < 128 → l < 64 → t.cur.rdV k l = if k = d ∧ on l then f l else s.cur.rdV k l)
    ∧ Falls s t ∧ Frame noV s t

/-- The instruction completes and writes f l to predicate d of each active lane l, or nothing where d is p0; nothing else changes. -/
def WritesP (s : State) (r : Result) (d : BitVec 3) (on : Nat → Bool) (f : Nat → Bool) : Prop :=
  ∃ t, r = .next t
    ∧ (∀ (k : BitVec 3) l, t.cur.rdP k.toNat l = if k = d ∧ d ≠ 0 ∧ on l then f l else s.cur.rdP k.toNat l)
    ∧ Falls s t ∧ Frame noP s t

/-- The state once a core's L1 has room for the line of an address: a line displaced where the set is full, and none where the L1 holds the line or
the policy allocates none (R81, R336). -/
def madeRoom (s : State) (isl core pa pol : Nat) : State :=
  if (l1Find s isl core (pa / 128)).isSome || polSkips pol then s else makeRoom s isl core (pa / 128) pol

/-- `madeRoom` after the running agent's touch is counted (R66). -/
def roomed (s : State) (isl core pa pol : Nat) : State := madeRoom (touchAt s isl core pa) isl core pa pol

/-- Bytes i = 0 … n − 1 of an access, as a core sees them in the line of its address. -/
def seenBytes (s : State) (isl core pa n : Nat) : List Byte :=
  (List.range n).map (fun i => lineByte (lineSeen s isl core (pa / 128)) (pa % 128 + i))

/-- An address is one of the n from pa on, in the same line: an aligned access lies in one line. -/
def within (pa n a : Nat) : Prop := a / 128 = pa / 128 ∧ pa ≤ a ∧ a < pa + n

/-- Register i of an element of size code z: the bytes extended, or 32 bits of them (R212, R273). -/
def elemReg (z : BitVec 3) (bs : List Byte) (i : Nat) : Word32 :=
  if z = 5 then BitVec.ofInt 32 (sextNat (leNat bs) 8) else if z = 6 then BitVec.ofInt 32 (sextNat (leNat bs) 16)
  else BitVec.ofNat 32 (leNat bs / 2 ^ (32 * i))

/-- The lanes of a set in which a flag is raised that FPTE traps; FPTE acts as zero in handler mode (R138, R182). -/
def trapping (s : State) (p : Nat) (fl : Nat → BitVec 5) : List Nat :=
  (s.cur.activeLanes p).filter (fun l => fl l &&& (if s.cur.tr.handler then 0 else s.cur.sc.fpte) ≠ 0)

/-- A float member: where no active lane raises a trapping flag it completes, writes (f l).1 to register d of each active lane l and
accumulates the flags (f l).2 there; else it traps FP with the mask of the lanes that raise one, and has no other effect (R240). -/
def FloatMember (s : State) (r : Result) (d p : Nat) (f : Nat → Word32 × BitVec 5) : Prop :=
  (trapping s p (fun l => (f l).2) = [] →
    ∃ t, r = .next t
      ∧ (∀ k l, k < 128 → l < 64 → t.cur.rdV k l = if k = d ∧ s.cur.active p l then (f l).1 else s.cur.rdV k l)
      ∧ (∀ l, t.cur.rdFlags l = if s.cur.active p l then s.cur.rdFlags l ||| (f l).2 else s.cur.rdFlags l)
      ∧ Falls s t ∧ Frame (fun u => noV (noFlags u)) s t)
  ∧ (trapping s p (fun l => (f l).2) ≠ [] →
    r = .next (takeTrap s { plainFx causeFp with lanes := laneMask (trapping s p (fun l => (f l).2)) }))

/-- A float compare: as `FloatMember`, with a predicate written (R240, R248). -/
def FloatCompare (s : State) (r : Result) (d : BitVec 3) (p : Nat) (f : Nat → Bool × BitVec 5) : Prop :=
  (trapping s p (fun l => (f l).2) = [] →
    ∃ t, r = .next t
      ∧ (∀ (k : BitVec 3) l, t.cur.rdP k.toNat l = if k = d ∧ d ≠ 0 ∧ s.cur.active p l then (f l).1 else s.cur.rdP k.toNat l)
      ∧ (∀ l, t.cur.rdFlags l = if s.cur.active p l then s.cur.rdFlags l ||| (f l).2 else s.cur.rdFlags l)
      ∧ Falls s t ∧ Frame (fun u => noP (noFlags u)) s t)
  ∧ (trapping s p (fun l => (f l).2) ≠ [] →
    r = .next (takeTrap s { plainFx causeFp with lanes := laneMask (trapping s p (fun l => (f l).2)) }))

end Sys2Proof.Spec
end

