-- ==== Sys2Proof/Certificates/Slice0/Obligations.lean ====
section
/-!
DEFINITION. The statements for the provers. Each names the rules of the manual that it formalises; the terms are those of `Spec`.
-/
section Statements

open Sys2Proof Sys2Proof.Machine Sys2Proof.Spec


namespace Sys2Proof.Spec

/-- The sign-extended immediate, with the payload of an attached HIMM above it (R335). -/
def immS {n : Nat} (s : State) (i : BitVec n) : Int :=
  match s.cur.sc.hints.himm with
  | none => i.toInt
  | some p => (p ++ i).toInt

/-- The zero-extended immediate, with the payload of an attached HIMM above it (R335). -/
def immU {n : Nat} (s : State) (i : BitVec n) : Int :=
  match s.cur.sc.hints.himm with
  | none => i.toNat
  | some p => (p ++ i).toNat

/-- The comparison that a cc code selects, on whole numbers (R215). -/
def ccHolds {w : Nat} (c : BitVec 3) (a b : BitVec w) : Bool :=
  if c = 0 then decide (a = b) else if c = 1 then decide (a ≠ b) else if c = 2 then decide (a.toInt < b.toInt)
  else if c = 3 then decide (a.toInt ≤ b.toInt) else if c = 4 then decide (a.toNat < b.toNat) else decide (a.toNat ≤ b.toNat)

end Sys2Proof.Spec

/-- R222, R223: every scalar arithmetic member writes its result, given on whole numbers, to sd and changes nothing else; a write to s0
is discarded (R209). -/
def Sys2Proof.Spec.ScalarArithmetic : Prop :=
  ∀ (s : State) (d a b : BitVec 6),
    WritesS s (exec (.sadd d a b) s) d (s.rdS a + s.rdS b)
    ∧ WritesS s (exec (.ssub d a b) s) d (s.rdS a - s.rdS b)
    ∧ WritesS s (exec (.smul d a b) s) d (s.rdS a * s.rdS b)
    ∧ WritesS s (exec (.smulh d a b) s) d (BitVec.ofInt 64 ((s.rdS a).toInt * (s.rdS b).toInt / 2 ^ 64))
    ∧ WritesS s (exec (.smulhu d a b) s) d (BitVec.ofNat 64 ((s.rdS a).toNat * (s.rdS b).toNat / 2 ^ 64))
    ∧ WritesS s (exec (.sdiv d a b) s) d (if s.rdS b = 0 then -1 else BitVec.ofInt 64 ((s.rdS a).toInt.tdiv (s.rdS b).toInt))
    ∧ WritesS s (exec (.sdivu d a b) s) d (if s.rdS b = 0 then -1 else BitVec.ofNat 64 ((s.rdS a).toNat / (s.rdS b).toNat))
    ∧ WritesS s (exec (.srem d a b) s) d (if s.rdS b = 0 then s.rdS a else BitVec.ofInt 64 ((s.rdS a).toInt.tmod (s.rdS b).toInt))
    ∧ WritesS s (exec (.sremu d a b) s) d (if s.rdS b = 0 then s.rdS a else BitVec.ofNat 64 ((s.rdS a).toNat % (s.rdS b).toNat))
    ∧ WritesS s (exec (.smin d a b) s) d (if (s.rdS a).toInt ≤ (s.rdS b).toInt then s.rdS a else s.rdS b)
    ∧ WritesS s (exec (.smax d a b) s) d (if (s.rdS a).toInt ≤ (s.rdS b).toInt then s.rdS b else s.rdS a)
    ∧ WritesS s (exec (.sminu d a b) s) d (if (s.rdS a).toNat ≤ (s.rdS b).toNat then s.rdS a else s.rdS b)
    ∧ WritesS s (exec (.smaxu d a b) s) d (if (s.rdS a).toNat ≤ (s.rdS b).toNat then s.rdS b else s.rdS a)

/-- R222: the logical and shift members, whose shift count is s[b] mod 64, and the two counts of bits. -/
def Sys2Proof.Spec.ScalarLogicAndShifts : Prop :=
  ∀ (s : State) (d a b : BitVec 6),
    WritesS s (exec (.sand d a b) s) d (s.rdS a &&& s.rdS b)
    ∧ WritesS s (exec (.sor d a b) s) d (s.rdS a ||| s.rdS b)
    ∧ WritesS s (exec (.sxor d a b) s) d (s.rdS a ^^^ s.rdS b)
    ∧ WritesS s (exec (.sshl d a b) s) d (BitVec.ofNat 64 ((s.rdS a).toNat * 2 ^ ((s.rdS b).toNat % 64)))
    ∧ WritesS s (exec (.sshr d a b) s) d (BitVec.ofNat 64 ((s.rdS a).toNat / 2 ^ ((s.rdS b).toNat % 64)))
    ∧ WritesS s (exec (.ssra d a b) s) d (BitVec.ofInt 64 ((s.rdS a).toInt / 2 ^ ((s.rdS b).toNat % 64)))
    ∧ WritesS s (exec (.sclz d a) s) d (if s.rdS a = 0 then 64 else BitVec.ofNat 64 (63 - Nat.log2 (s.rdS a).toNat))
    ∧ WritesS s (exec (.spopc d a) s) d (BitVec.ofNat 64 ((List.range 64).countP (fun i => (s.rdS a).getLsbD i)))

/-- R224, R335: the scalar immediates, with the payload of an attached HIMM above SADDI's immediate. -/
def Sys2Proof.Spec.ScalarImmediates : Prop :=
  ∀ (s : State) (d a n : BitVec 6) (i : BitVec 14) (u : BitVec 20),
    WritesS s (exec (.saddi d a i) s) d (s.rdS a + BitVec.ofInt 64 (immS s i))
    ∧ WritesS s (exec (.sshli d a n) s) d (BitVec.ofNat 64 ((s.rdS a).toNat * 2 ^ n.toNat))
    ∧ WritesS s (exec (.sshri d a n) s) d (BitVec.ofNat 64 ((s.rdS a).toNat / 2 ^ n.toNat))
    ∧ WritesS s (exec (.ssrai d a n) s) d (BitVec.ofInt 64 ((s.rdS a).toInt / 2 ^ n.toNat))
    ∧ WritesS s (exec (.slui d u) s) d (BitVec.ofInt 64 (u.toInt * 4096))

/-- R225, R229: compares and condition logic write cd alone; a write to c0 is discarded (R209), and SCMPI's immediate is extended as its
cc code says (R215). -/
def Sys2Proof.Spec.ScalarConditions : Prop :=
  ∀ (s : State) (d x y : BitVec 3) (a b : BitVec 6) (i : BitVec 14),
    (∀ c : BitVec 3, c.toNat ≤ 5 →
      WritesC s (exec (.scmp d c a b) s) d (ccHolds c (s.rdS a) (s.rdS b))
      ∧ WritesC s (exec (.scmpi d c a i) s) d
          (ccHolds c (s.rdS a) (BitVec.ofInt 64 (if c.toNat < 4 then immS s i else immU s i))))
    ∧ WritesC s (exec (.cand d x y) s) d (s.cur.rdC x.toNat && s.cur.rdC y.toNat)
    ∧ WritesC s (exec (.cor d x y) s) d (s.cur.rdC x.toNat || s.cur.rdC y.toNat)
    ∧ WritesC s (exec (.cxor d x y) s) d (s.cur.rdC x.toNat != s.cur.rdC y.toNat)
    ∧ WritesC s (exec (.cnot d x) s) d (!s.cur.rdC x.toNat)

/-- `ScalarArithmetic`, `ScalarLogicAndShifts`, `ScalarImmediates` and `ScalarConditions` together. -/
def Obligations.ScalarRegisterMembers : Prop := Sys2Proof.Spec.ScalarArithmetic ∧ Sys2Proof.Spec.ScalarLogicAndShifts ∧ Sys2Proof.Spec.ScalarImmediates ∧ Sys2Proof.Spec.ScalarConditions

/-- R223: a division by zero and the overflow of −2^63 by −1 deliver fixed values; the example encodes as its rule says. -/
def Obligations.DivisionCorners : Prop :=
  (∀ (s : State) (d a b : BitVec 6),
    (s.rdS b = 0 → WritesS s (exec (.sdiv d a b) s) d (-1) ∧ WritesS s (exec (.sdivu d a b) s) d (BitVec.ofNat 64 (2 ^ 64 - 1))
      ∧ WritesS s (exec (.srem d a b) s) d (s.rdS a) ∧ WritesS s (exec (.sremu d a b) s) d (s.rdS a))
    ∧ (s.rdS a = BitVec.ofInt 64 (-2 ^ 63) → s.rdS b = -1 → WritesS s (exec (.sdiv d a b) s) d (BitVec.ofInt 64 (-2 ^ 63))
      ∧ WritesS s (exec (.srem d a b) s) d 0))
  ∧ decodeWord 0x04518700 = .ok (.sadd 5 6 7) ∧ encodeWord (.sadd 5 6 7) = some 0x04518700


namespace Sys2Proof.Spec

/-- A whole number brought to the nearest value of a range. -/
def clampTo (lo hi x : Int) : Int := if x < lo then lo else if hi < x then hi else x

/-- Field i of n bits of a lane. -/
def field (n : Nat) (x : Word32) (i : Nat) : Int := (x.extractLsb' (n * i) n).toInt

/-- A lane put together from k fields of n bits. -/
def packFields (n : Nat) (k : Nat) (f : Nat → Int) : Word32 :=
  BitVec.ofNat 32 (((List.range k).map (fun i => (BitVec.ofInt n (f i)).toNat * 2 ^ (n * i))).sum)

end Sys2Proof.Spec

/-- R239, R241, R242: the vector integer members with two sources write each active lane's result, given on whole numbers, to vd, and
change nothing else. -/
def Sys2Proof.Spec.VectorArithmetic : Prop :=
  ∀ (s : State) (d a b : BitVec 7) (p : BitVec 3),
    let on := s.cur.active p.toNat
    let x := fun l => s.cur.rdV a.toNat l
    let y := fun l => s.cur.rdV b.toNat l
    let w := fun (i : Instr) (f : Nat → Word32) => WritesV s (exec i s) d.toNat on f
    w (.vadd d a b p) (fun l => x l + y l)
    ∧ w (.vsub d a b p) (fun l => x l - y l)
    ∧ w (.vadds d a b p) (fun l => BitVec.ofInt 32 (clampTo (-2 ^ 31) (2 ^ 31 - 1) ((x l).toInt + (y l).toInt)))
    ∧ w (.vsubs d a b p) (fun l => BitVec.ofInt 32 (clampTo (-2 ^ 31) (2 ^ 31 - 1) ((x l).toInt - (y l).toInt)))
    ∧ w (.vaddus d a b p) (fun l => BitVec.ofInt 32 (clampTo 0 (2 ^ 32 - 1) ((x l).toNat + (y l).toNat)))
    ∧ w (.vsubus d a b p) (fun l => BitVec.ofInt 32 (clampTo 0 (2 ^ 32 - 1) ((x l).toNat - (y l).toNat)))
    ∧ w (.vmul d a b p) (fun l => x l * y l)
    ∧ w (.vmulh d a b p) (fun l => BitVec.ofInt 32 ((x l).toInt * (y l).toInt / 2 ^ 32))
    ∧ w (.vmulhu d a b p) (fun l => BitVec.ofNat 32 ((x l).toNat * (y l).toNat / 2 ^ 32))
    ∧ w (.vmad d a b p) (fun l => s.cur.rdV d.toNat l + x l * y l)
    ∧ w (.vmin d a b p) (fun l => if (x l).toInt ≤ (y l).toInt then x l else y l)
    ∧ w (.vmax d a b p) (fun l => if (x l).toInt ≤ (y l).toInt then y l else x l)
    ∧ w (.vminu d a b p) (fun l => if (x l).toNat ≤ (y l).toNat then x l else y l)
    ∧ w (.vmaxu d a b p) (fun l => if (x l).toNat ≤ (y l).toNat then y l else x l)
    ∧ w (.vabsd d a b p) (fun l => BitVec.ofNat 32 ((x l).toInt - (y l).toInt).natAbs)
    ∧ w (.vavg d a b p) (fun l => BitVec.ofInt 32 (((x l).toInt + (y l).toInt + 1) / 2))

/-- R241 to R243: logic, shifts and rotations by lane(vb) mod 32, the packed members, and VSEL, which has no guard. -/
def Sys2Proof.Spec.VectorLogicAndPacked : Prop :=
  ∀ (s : State) (d a b : BitVec 7) (p : BitVec 3),
    let on := s.cur.active p.toNat
    let x := fun l => s.cur.rdV a.toNat l
    let y := fun l => s.cur.rdV b.toNat l
    let w := fun (i : Instr) (f : Nat → Word32) => WritesV s (exec i s) d.toNat on f
    w (.vand d a b p) (fun l => x l &&& y l)
    ∧ w (.vor d a b p) (fun l => x l ||| y l)
    ∧ w (.vxor d a b p) (fun l => x l ^^^ y l)
    ∧ w (.vandn d a b p) (fun l => x l &&& ~~~ y l)
    ∧ w (.vshl d a b p) (fun l => BitVec.ofNat 32 ((x l).toNat * 2 ^ ((y l).toNat % 32)))
    ∧ w (.vshr d a b p) (fun l => BitVec.ofNat 32 ((x l).toNat / 2 ^ ((y l).toNat % 32)))
    ∧ w (.vsra d a b p) (fun l => BitVec.ofInt 32 ((x l).toInt / 2 ^ ((y l).toNat % 32)))
    ∧ w (.vrot d a b p) (fun l => BitVec.ofNat 32 ((x l).toNat * 2 ^ ((y l).toNat % 32) + (x l).toNat / 2 ^ (32 - (y l).toNat % 32)))
    ∧ w (.vaddh2 d a b p) (fun l => packFields 16 2 (fun i => field 16 (x l) i + field 16 (y l) i))
    ∧ w (.vmulh2 d a b p) (fun l => packFields 16 2 (fun i => field 16 (x l) i * field 16 (y l) i))
    ∧ w (.vaddb4 d a b p) (fun l => packFields 8 4 (fun i => field 8 (x l) i + field 8 (y l) i))
    ∧ w (.vdot4 d a b p)
        (fun l => s.cur.rdV d.toNat l + BitVec.ofInt 32 (((List.range 4).map (fun i => field 8 (x l) i * field 8 (y l) i)).sum))
    ∧ WritesV s (exec (.vsel d a b p) s) d.toNat (s.cur.active 0) (fun l => if s.cur.rdP p.toNat l then x l else y l)

/-- R242, R245, R335: the members with one source, and the immediates with the payload of an attached HIMM above them. -/
def Sys2Proof.Spec.VectorUnaryAndImmediates : Prop :=
  ∀ (s : State) (d a : BitVec 7) (p : BitVec 3) (i : BitVec 9) (n : BitVec 5) (m : BitVec 16),
    let on := s.cur.active p.toNat
    let x := fun l => s.cur.rdV a.toNat l
    let w := fun (i : Instr) (f : Nat → Word32) => WritesV s (exec i s) d.toNat on f
    w (.vclz d a p) (fun l => if x l = 0 then 32 else BitVec.ofNat 32 (31 - Nat.log2 (x l).toNat))
    ∧ w (.vpopc d a p) (fun l => BitVec.ofNat 32 ((List.range 32).countP (fun i => (x l).getLsbD i)))
    ∧ w (.vbrev d a p) (fun l => (x l).reverse)
    ∧ w (.vaddi d a p i) (fun l => x l + BitVec.ofInt 32 (immS s i))
    ∧ w (.vshli d a p n) (fun l => BitVec.ofNat 32 ((x l).toNat * 2 ^ n.toNat))
    ∧ w (.vshri d a p n) (fun l => BitVec.ofNat 32 ((x l).toNat / 2 ^ n.toNat))
    ∧ w (.vsrai d a p n) (fun l => BitVec.ofInt 32 ((x l).toInt / 2 ^ n.toNat))
    ∧ w (.vmovi d p m) (fun _ => BitVec.ofInt 32 (immS s m))
    ∧ w (.vmovhi d p m) (fun l => BitVec.ofNat 32 (m.toNat * 2 ^ 16 + (s.cur.rdV d.toNat l).toNat % 2 ^ 16))

/-- `VectorArithmetic`, `VectorLogicAndPacked` and `VectorUnaryAndImmediates` together. -/
def Obligations.VectorIntegerMembers : Prop := Sys2Proof.Spec.VectorArithmetic ∧ Sys2Proof.Spec.VectorLogicAndPacked ∧ Sys2Proof.Spec.VectorUnaryAndImmediates

/-- R244, R245, R257: the integer compares and the predicate members write predicate pd in the active lanes and change nothing else; a write
to p0 is discarded (R209). -/
def Obligations.VectorPredicates : Prop :=
  ∀ (s : State) (d q r : BitVec 3) (a b : BitVec 7) (p : BitVec 3) (i : BitVec 9),
    let x := fun l => s.cur.rdV a.toNat l
    let y := fun l => s.cur.rdV b.toNat l
    let w := fun (i : Instr) (f : Nat → Bool) => WritesP s (exec i s) d (s.cur.active p.toNat) f
    let w0 := fun (i : Instr) (f : Nat → Bool) => WritesP s (exec i s) d (s.cur.active 0) f
    w (.vceq d a b p) (fun l => decide (x l = y l))
    ∧ w (.vcne d a b p) (fun l => decide (x l ≠ y l))
    ∧ w (.vclt d a b p) (fun l => decide ((x l).toInt < (y l).toInt))
    ∧ w (.vcle d a b p) (fun l => decide ((x l).toInt ≤ (y l).toInt))
    ∧ w (.vcltu d a b p) (fun l => decide ((x l).toNat < (y l).toNat))
    ∧ w (.vcleu d a b p) (fun l => decide ((x l).toNat ≤ (y l).toNat))
    ∧ w (.vctst d a b p) (fun l => decide (x l &&& y l ≠ 0))
    ∧ (∀ c : BitVec 3, c.toNat ≤ 5 →
        w (.vcmpi d c a p i) (fun l => ccHolds c (x l) (BitVec.ofInt 32 (if c.toNat < 4 then immS s i else immU s i))))
    ∧ w0 (.pand d q r) (fun l => s.cur.rdP q.toNat l && s.cur.rdP r.toNat l)
    ∧ w0 (.por d q r) (fun l => s.cur.rdP q.toNat l || s.cur.rdP r.toNat l)
    ∧ w0 (.pxor d q r) (fun l => s.cur.rdP q.toNat l != s.cur.rdP r.toNat l)
    ∧ w0 (.pandn d q r) (fun l => s.cur.rdP q.toNat l && !s.cur.rdP r.toNat l)
    ∧ w0 (.pnot d q) (fun l => !s.cur.rdP q.toNat l)
    ∧ w0 (.pflag d q) (fun l => (s.cur.rdFlags l).getLsbD q.toNat)

/-- R246, R247, R249 to R251, R253: the FP32 members. Each active lane's result and flags are those of the exact value rounded once in the
current mode; a trapping flag makes the instruction trap FP with no effect (R240). -/
def Obligations.FloatMembers : Prop :=
  ∀ (s : State) (d a b : BitVec 7) (p : BitVec 3),
    let x := fun l => (s.cur.rdV a.toNat l).toNat
    let y := fun l => (s.cur.rdV b.toNat l).toNat
    let z := fun l => (s.cur.rdV d.toNat l).toNat
    let m := s.cur.mode
    let w := fun (i : Instr) (f : Nat → Nat × BitVec 5) => FloatMember s (exec i s) d.toNat p.toNat (fun l => word32 (f l))
    w (.fadd d a b p) (fun l => fAdd fp32 m (x l) (y l))
    ∧ w (.fsub d a b p) (fun l => fSub fp32 m (x l) (y l))
    ∧ w (.fmul d a b p) (fun l => fMul fp32 m (x l) (y l))
    ∧ w (.fmac d a b p) (fun l => fFma fp32 m false false (x l) (y l) (z l))
    ∧ w (.fmin d a b p) (fun l => fPick fp32 false false (x l) (y l))
    ∧ w (.fmax d a b p) (fun l => fPick fp32 true false (x l) (y l))
    ∧ w (.fminm d a b p) (fun l => fPick fp32 false true (x l) (y l))
    ∧ w (.fmaxm d a b p) (fun l => fPick fp32 true true (x l) (y l))
    ∧ w (.fdiv d a b p) (fun l => fpDiv m (fp32.decode (x l)) (fp32.decode (y l)))
    ∧ w (.frcp d a p) (fun l => fpDiv m fpOne (fp32.decode (x l)))
    ∧ w (.fsqrt d a p) (fun l => fSqrt m (x l))
    ∧ w (.frsq d a p) (fun l => fRsq m (x l))
    ∧ w (.fexp2 d a p) (fun l => fExp2 m (x l))
    ∧ w (.flog2 d a p) (fun l => fLog2 m (x l))
    ∧ w (.fsinpi d a p) (fun l => fSinPi m (x l))
    ∧ w (.fcospi d a p) (fun l => fCosPi m (x l))
    ∧ w (.fclass d a p) (fun l => (fClass (x l), 0))
    ∧ w (.frint d a p) (fun l => fRint m (x l))
    ∧ w (.fscalb d a b p) (fun l => fScalb m (x l) (s.cur.rdV b.toNat l).toInt)
    ∧ w (.fgetexp d a p) (fun l => fGetexp (x l))

/-- R251, R252, R254: the fused members of three sources, the packed members of both halves, and the conversions, which round in the mode
of their own rm field. -/
def Obligations.FloatFusedPackedAndConverted : Prop :=
  ∀ (s : State) (d a b : BitVec 7) (p : BitVec 3) (e g h c : BitVec 5) (k : BitVec 7) (rm : BitVec 2),
    let x := fun l => s.cur.rdV a.toNat l
    let y := fun l => s.cur.rdV b.toNat l
    let z := fun l => s.cur.rdV d.toNat l
    let m := s.cur.mode
    let w := fun (i : Instr) (f : Nat → Word32 × BitVec 5) => FloatMember s (exec i s) d.toNat p.toNat f
    let w3 := fun (i : Instr) (f : Nat → Nat → Nat → Nat × BitVec 5) => FloatMember s (exec i s) e.toNat p.toNat
      (fun l => word32 (f (s.cur.rdV g.toNat l).toNat (s.cur.rdV h.toNat l).toNat (s.cur.rdV c.toNat l).toNat))
    w3 (.fma e g h c p) (fun u v t => fFma fp32 m false false u v t)
    ∧ w3 (.fms e g h c p) (fun u v t => fFma fp32 m false true u v t)
    ∧ w3 (.fnma e g h c p) (fun u v t => fFma fp32 m true false u v t)
    ∧ w3 (.fnms e g h c p) (fun u v t => fFma fp32 m true true u v t)
    ∧ w (.hadd2 d a b p) (fun l => fHalves (fun _ u v => fAdd fp16 m u v) (z l) (x l) (y l))
    ∧ w (.hmul2 d a b p) (fun l => fHalves (fun _ u v => fMul fp16 m u v) (z l) (x l) (y l))
    ∧ w (.hfmac2 d a b p) (fun l => fHalves (fun t u v => fFma fp16 m false false u v t) (z l) (x l) (y l))
    ∧ w (.hmax2 d a b p) (fun l => fHalves (fun _ u v => fPick fp16 true false u v) (z l) (x l) (y l))
    ∧ w (.badd2 d a b p) (fun l => fHalves (fun _ u v => fAdd bf16 m u v) (z l) (x l) (y l))
    ∧ w (.bmul2 d a b p) (fun l => fHalves (fun _ u v => fMul bf16 m u v) (z l) (x l) (y l))
    ∧ w (.bfmac2 d a b p) (fun l => fHalves (fun t u v => fFma bf16 m false false u v t) (z l) (x l) (y l))
    ∧ w (.bmax2 d a b p) (fun l => fHalves (fun _ u v => fPick bf16 true false u v) (z l) (x l) (y l))
    ∧ w (.cvt d a k p rm) (fun l => word32 (cvtCode k.toNat rm (x l).toNat))

/-- R240, R248: the float compares write pd in the active lanes; a NaN gives false, and FCLT and FCLE raise NV on it. FCUN is true where an
operand is a NaN. -/
def Obligations.FloatCompares : Prop :=
  ∀ (s : State) (d : BitVec 3) (a b : BitVec 7) (p : BitVec 3),
    let x := fun l => (s.cur.rdV a.toNat l).toNat
    let y := fun l => (s.cur.rdV b.toNat l).toNat
    let un := fun l => fp32.isNan (x l) || fp32.isNan (y l)
    let w := fun (i : Instr) (f : Nat → Bool × BitVec 5) => FloatCompare s (exec i s) d p.toNat f
    w (.fceq d a b p) (fun l => (!un l && decide (fp32.value (x l) = fp32.value (y l)), 0))
    ∧ w (.fclt d a b p) (fun l => (!un l && decide (fp32.value (x l) < fp32.value (y l)), if un l then fNV else 0))
    ∧ w (.fcle d a b p) (fun l => (!un l && decide (fp32.value (x l) ≤ fp32.value (y l)), if un l then fNV else 0))
    ∧ w (.fcun d a b p) (fun l => (un l, 0))


/-- R258, R259, R264: flags read and cleared, shuffles, whose lane numbers wrap to the current width, and the moves and identities of lanes. A lane
that reads an inactive lane reads what it holds. -/
def Sys2Proof.Spec.LaneMoves : Prop :=
  ∀ (s : State) (d a b : BitVec 7) (p : BitVec 3) (e f : BitVec 6) (h : BitVec 1),
    let w : Int := s.cur.id.width
    let on := s.cur.active p.toNat
    let x := fun (l : Nat) => s.cur.rdV a.toNat l
    let y := fun (l : Nat) => (s.cur.rdV b.toNat l).toNat
    let at_ := fun (i : Int) => x (i % w).toNat
    let idx := ((((s.rdS f).toNat % 2 ^ 32 : Nat) : Int) % w).toNat
    WritesV s (exec (.shfli d a b p) s) d.toNat on (fun l => at_ (y l))
    ∧ WritesV s (exec (.shflu d a b p) s) d.toNat on (fun l => at_ ((l : Int) - y l))
    ∧ WritesV s (exec (.shfld d a b p) s) d.toNat on (fun l => at_ ((l : Int) + y l))
    ∧ WritesV s (exec (.shflx d a b p) s) d.toNat on (fun l => at_ ((l ^^^ y l : Nat) : Int))
    ∧ WritesV s (exec (.vbcast e (a.truncate 6) f) s) e.toNat (s.cur.active 0) (fun _ => s.cur.rdV (a.truncate 6 : BitVec 6).toNat idx)
    ∧ WritesS s (exec (.vextr e (a.truncate 6) f) s) e ((s.cur.rdV (a.truncate 6 : BitVec 6).toNat idx).zeroExtend 64)
    ∧ WritesV s (exec (.vinsr e (b.truncate 6) f) s) e.toNat (fun l => s.cur.active 0 l && decide (l = idx))
        (fun _ => (s.rdS (b.truncate 6)).truncate 32)
    ∧ WritesV s (exec (.vlane e h) s) e.toNat (s.cur.active 0)
        (fun l => BitVec.ofNat 32 (if h = 0 then l else s.cur.id.hitch + l / 4))
    ∧ WritesV s (exec (.vtid e) s) e.toNat (s.cur.active 0)
        (fun l => BitVec.ofNat 32 (s.cur.id.team * s.cur.id.launchWidth + s.cur.id.launchPos + l))
    ∧ WritesV s (exec (.flrd e) s) e.toNat (s.cur.active 0) (fun l => (s.cur.rdFlags l).zeroExtend 32)

/-- R264: VCPRS writes the values of the active lanes where p is true, in lane order, to the first active lanes, and changes nothing else. The
n-th active lane, counted from 0, receives the n-th such value. -/
def Sys2Proof.Spec.CompressWritesFirstLanes : Prop :=
  ∀ (s : State) (d a : BitVec 6) (p : BitVec 3),
    let ls := s.cur.activeLanes 0
    let vs := (ls.filter (fun l => s.cur.rdP p.toNat l)).map (fun l => s.cur.rdV a.toNat l)
    ∃ t, exec (.vcprs d a p) s = .next t ∧ Falls s t ∧ Frame noV s t
      ∧ (∀ n (h : n < ls.length) (k : Nat), k < 128 →
          t.cur.rdV k ls[n] = if h' : k = d.toNat ∧ n < vs.length then vs[n]'h'.2 else s.cur.rdV k ls[n])
      ∧ (∀ k l, k < 128 → l < 64 → l ∉ ls → t.cur.rdV k l = s.cur.rdV k l)

/-- `LaneMoves` and `CompressWritesFirstLanes` together. -/
def Obligations.LaneMovesAndCompress : Prop := Sys2Proof.Spec.LaneMoves ∧ Sys2Proof.Spec.CompressWritesFirstLanes

/-- R258: FLCLR clears the flags of its mask in the active lanes and changes nothing else. -/
def Sys2Proof.Spec.FlagsCleared : Prop :=
  ∀ (s : State) (m : BitVec 5), ∃ t, exec (.flclr m) s = .next t ∧ Falls s t ∧ Frame noFlags s t
    ∧ ∀ l, t.cur.rdFlags l = if s.cur.active 0 l then s.cur.rdFlags l &&& ~~~m else s.cur.rdFlags l

/-- R260: votes over the active lanes, of a predicate or of a flag. With no active lane VALL gives true and VANY false. -/
def Sys2Proof.Spec.Votes : Prop :=
  ∀ (s : State) (d q : BitVec 3) (k : BitVec 1) (e : BitVec 6),
    let src := fun l => if k = 0 then s.cur.rdP q.toNat l else (s.cur.rdFlags l).getLsbD q.toNat
    let all := decide (∀ l ∈ s.cur.activeLanes 0, src l = true)
    let any := decide (∃ l ∈ s.cur.activeLanes 0, src l = true)
    WritesP s (exec (.vall 0 d k q) s) d (s.cur.active 0) (fun _ => all)
    ∧ WritesC s (exec (.vall 1 d k q) s) d all
    ∧ WritesP s (exec (.vany 0 d k q) s) d (s.cur.active 0) (fun _ => any)
    ∧ WritesC s (exec (.vany 1 d k q) s) d any
    ∧ WritesS s (exec (.vbal e k q) s) e (BitVec.ofNat 64 (((List.range 64).map (fun l =>
        if s.cur.active 0 l && src l then 2 ^ l else 0)).sum))
    ∧ WritesS s (exec (.vcnt e k q) s) e (BitVec.ofNat 64 ((s.cur.activeLanes 0).countP src))

/-- `FlagsCleared` and `Votes` together. -/
def Obligations.VotesAndFlagsCleared : Prop := Sys2Proof.Spec.FlagsCleared ∧ Sys2Proof.Spec.Votes

namespace Sys2Proof.Spec

/-- The values that a reduction takes: the active lanes' va, or for code 13 their flag registers (R262). -/
def redSource (s : State) (c a p : Nat) : List Word32 :=
  (s.cur.activeLanes p).map (fun l => if c = 13 then (s.cur.rdFlags l).zeroExtend 32 else s.cur.rdV a l)

/-- The fold of some values by an operation code, from its identity, lowest lane first, with the flags raised (R262, R263). -/
def redFold (s : State) (c : Nat) (xs : List Word32) : Word32 × BitVec 5 :=
  let r := xs.foldl (fun r x => let q := redStep c s.cur.mode r.1 x; (q.1, r.2 ||| q.2)) (redIdent c, 0)
  (redNarrow c r.1, r.2)

end Sys2Proof.Spec

/-- R261 to R263: VRED folds the values of the active lanes from the lowest; the vector form delivers the result to every active lane, the
scalar form widened to s[vd]. A scan delivers to the n-th active lane the fold of the first n + 1 values, or of the first n. -/
def Obligations.ReductionsAndScans : Prop :=
  ∀ (s : State) (d a : BitVec 7) (o : BitVec 6) (p : BitVec 3),
    let xs := redSource s o.toNat a.toNat p.toNat
    let pos := fun l => (s.cur.activeLanes p.toNat).idxOf l
    FloatMember s (exec (.vred d a 0 o p) s) d.toNat p.toNat (fun _ => redFold s o.toNat xs)
    ∧ FloatMember s (exec (.vscani d a o p) s) d.toNat p.toNat (fun l => redFold s o.toNat (xs.take (pos l + 1)))
    ∧ FloatMember s (exec (.vscanx d a o p) s) d.toNat p.toNat (fun l => redFold s o.toNat (xs.take (pos l)))
    ∧ (trapping s p.toNat (fun _ => (redFold s o.toNat xs).2) = [] →
        ∃ t, exec (.vred d a 1 o p) s = .next t
          ∧ (∀ k : BitVec 6, t.rdS k = if k = d.truncate 6 ∧ k ≠ 0 then redExt o.toNat (redFold s o.toNat xs).1 else s.rdS k)
          ∧ (∀ l, t.cur.rdFlags l = if s.cur.active p.toNat l then s.cur.rdFlags l ||| (redFold s o.toNat xs).2 else s.cur.rdFlags l)
          ∧ Falls s t ∧ Frame (fun u => noS (noFlags u)) s t)

namespace Sys2Proof.Spec

/-- The depth counters rewritten where f gives a value of at most 255 everywhere, else a DEPTH_OVERFLOW trap and no change (R41). -/
def DepthMember (s : State) (r : Result) (on : Nat → Bool) (f : Nat → Nat) : Prop :=
  ((∀ l < s.cur.nlanes, on l = true → f l ≤ 255) →
    ∃ t, r = .next t ∧ (∀ l, t.cur.rdDc l = if l < s.cur.nlanes ∧ on l then BitVec.ofNat 8 (f l) else s.cur.rdDc l)
      ∧ Falls s t ∧ Frame noDc s t)
  ∧ ((∃ l < s.cur.nlanes, on l = true ∧ 255 < f l) → r = .next (takeTrap s (plainFx causeDepth)))

end Sys2Proof.Spec

/-- R40, R41, R233, R234: what the members of structured control do to each lane's depth counter. -/
def Sys2Proof.Spec.DepthCounters : Prop :=
  ∀ (s : State) (p : BitVec 3) (k : BitVec 6),
    let dc := fun l => (s.cur.rdDc l).toNat
    let every := fun (_ : Nat) => true
    DepthMember s (exec (.vif p) s) every (fun l => if 0 < dc l then dc l + 1 else if s.cur.rdP p.toNat l then 0 else 1)
    ∧ DepthMember s (exec .velse s) every (fun l => if dc l = 0 then 1 else if dc l = 1 then 0 else dc l)
    ∧ DepthMember s (exec .vendif s) every (fun l => dc l - 1)
    ∧ DepthMember s (exec .vloop s) every (fun l => if 0 < dc l then dc l + 2 else 0)
    ∧ DepthMember s (exec (.vbrk p k) s) (s.cur.active p.toNat) (fun _ => k.toNat + 2)
    ∧ DepthMember s (exec (.vcont p k) s) (s.cur.active p.toNat) (fun _ => k.toNat + 1)

/-- R40, R234: ENDVL first brings back the lanes at 1. With a lane then at 0 it branches back by `d` words; else every lane leaves the
loop, losing 2, and the instruction falls through. Nothing else changes. -/
def Sys2Proof.Spec.EndOfVectorLoop : Prop :=
  ∀ (s : State) (d : BitVec 18),
    let dc := fun l => (s.cur.rdDc l).toNat
    let goesOn := ∃ l < s.cur.nlanes, dc l ≤ 1
    ∃ t, exec (.endvl d) s = .next t ∧ Frame noDc s t ∧ t.cur.sc.hints = Hints.none
      ∧ (goesOn → (∀ l, (t.cur.rdDc l).toNat = if l < s.cur.nlanes ∧ dc l = 1 then 0 else dc l)
          ∧ t.cur.sc.pc = s.cur.sc.pc - BitVec.ofNat 64 (4 * d.toNat))
      ∧ (¬ goesOn → (∀ l, (t.cur.rdDc l).toNat = if l < s.cur.nlanes then dc l - 2 else dc l) ∧ Falls s t)


/-- `DepthCounters` and `EndOfVectorLoop` together. -/
def Obligations.DepthCountersAndVectorLoops : Prop := Sys2Proof.Spec.DepthCounters ∧ Sys2Proof.Spec.EndOfVectorLoop

namespace Sys2Proof.Spec

/-- The running agent's accesses pass: the probe of a scalar member's address is passed, and no atomic of the agent is under way in the
line (R180, R276). -/
def ScalarOk (s : State) (a : BitVec 6) (o : BitVec 12) (n : Nat) (acc : Acc) (s1 : State) (pa mt : Nat) : Prop :=
  probeGlobal s (scalarAddr s a o) n acc = (s1, .ok pa mt) ∧ atomAhead s1 s1.cur.mIsl [pa / 128] = false

/-- Every frame's key is in place (R408): no byte reads as lost. -/
def KeysHeld (s : State) : Prop := ∀ f ∈ s.frameInfo, f.lost = false

/-- An island's byte is one of the n from pa on. -/
def inBytes (isl pa n isl' k : Nat) : Prop := isl' = isl ∧ pa ≤ k ∧ k < pa + n

/-- An access counted in a class, to be completed by a step that the panel owes (R275). -/
def Counted (c : Cls) (s1 t : State) : Prop :=
  (∃ id, t.cur.fl = s1.cur.fl.begin_ id c 1 ∧ Event.accessComplete id ∈ t.due)

end Sys2Proof.Spec

/-- R226, R275, R5: SLD, where the step performs it as it issues, reads the bytes that its core sees at the address, or has read ahead there (R98, R425),
little-endian and zero-extended, into sd, and is counted. Every memory reads as it did once the L1 had room for the line, and nothing else of the
agent changes. The moment of an access is log 6. -/
def Obligations.ScalarLoads : Prop :=
  ∀ (s s1 : State) (d a : BitVec 6) (o : BitVec 12) (pa mt n : Nat) (i : Instr),
    (n = 4 ∧ i = .sldW d a o) ∨ (n = 8 ∧ i = .sldD d a o) →
    ScalarOk s a o n .read s1 pa mt → s1.goesLate = false →
    let room := roomed s1 s1.cur.mIsl s1.cur.id.core pa (s.policyOn (decide (mt = 1)))
    ∃ t, exec i s = .next t
      ∧ (∀ k, t.rdS k = if k = d ∧ d ≠ 0 then BitVec.ofNat 64 (leNat (earlyOr s1 s1.cur.mIsl s1.cur.id.core 0 pa
          (seenBytes room s1.cur.mIsl s1.cur.id.core pa n))) else s.rdS k)
      ∧ MemAs room t ∧ Counted .ld s1 t ∧ Falls s t ∧ still (noS (noAcc t.cur)) = still (noS (noAcc s.cur))

/-- R226, R275, R5, R81, R336: SST, where the step performs it as it issues, writes the low bytes of sd, little-endian, to the address as its core
sees it. Every other byte of every memory reads as it did once the L1 had room for the line, and no register changes. The bytes go to the line in
the L1, and to the L2 alone where the policy allocates no line and the L1 holds none. -/
def Sys2Proof.Spec.ScalarStores : Prop :=
  ∀ (s s1 : State) (d a : BitVec 6) (o : BitVec 12) (pa mt n : Nat) (i : Instr),
    (n = 4 ∧ i = .sstW d a o) ∨ (n = 8 ∧ i = .sstD d a o) →
    ScalarOk s a o n .write s1 pa mt → s1.goesLate = false → KeysHeld s1 →
    let isl := s1.cur.mIsl
    let core := s1.cur.id.core
    let pol := s.policyOn (decide (mt = 1))
    let room := roomed s1 isl core pa pol
    let through := polSkips pol && (l1Find s1 isl core (pa / 128)).isNone
    ∃ t, exec i s = .next t
      ∧ (∀ j, j < n → within pa n (pa + j) → seenByte t isl core (pa + j) = BitVec.ofNat 8 ((s.rdS d).toNat / 256 ^ j))
      ∧ (∀ isl' core' b, ¬ (isl' = isl ∧ (through = false → core' = core) ∧ within pa n b) → b < 2 ^ 48 → pa + n ≤ 2 ^ 48 →
          seenByte t isl' core' b = seenByte room isl' core' b)
      ∧ (∀ isl' b, ¬ (through = true ∧ inBytes isl pa n isl' b) → b < 2 ^ 48 → pa + n ≤ 2 ^ 48 → t.physGet isl' b = room.physGet isl' b)
      ∧ (∀ isl' core' sp b, t.storeGet isl' core' sp b = s.storeGet isl' core' sp b)
      ∧ (∀ b, spGet t.hostMem b = spGet room.hostMem b)
      ∧ Counted .st s1 t ∧ Falls s t ∧ still (noAcc t.cur) = still (noAcc s.cur)

/-- R180, R226: a misaligned address of SLD or SST traps MISALIGN with the address in XADDR, whatever lies there. -/
def Sys2Proof.Spec.MisalignedScalarAccessTraps : Prop :=
  ∀ (s : State) (d a : BitVec 6) (o : BitVec 12),
    let va := BitVec.ofInt 64 (scalarAddr s a o)
    (scalarAddr s a o % 4 ≠ 0 → exec (.sldW d a o) s = .next (takeTrap s (addrFx causeMisalign va 1 0))
      ∧ exec (.sstW d a o) s = .next (takeTrap s (addrFx causeMisalign va 2 0)))
    ∧ (scalarAddr s a o % 8 ≠ 0 → exec (.sldD d a o) s = .next (takeTrap s (addrFx causeMisalign va 1 0))
      ∧ exec (.sstD d a o) s = .next (takeTrap s (addrFx causeMisalign va 2 0)))

/-- `ScalarStores` and `MisalignedScalarAccessTraps` together. -/
def Obligations.ScalarStoresAndMisalignment : Prop := Sys2Proof.Spec.ScalarStores ∧ Sys2Proof.Spec.MisalignedScalarAccessTraps

namespace Sys2Proof.Spec

/-- Where a lane's element lies in its coach's allocation of a store (R78, R273). -/
def storeOff (s : State) (space : Nat) (a : BitVec 7) (b : BitVec 6) (l : Nat) : Nat := (coachRange s space).1 + laneAddr s a b l

/-- Every active lane's element of n bytes is aligned and lies in the allocation of its coach (R78, R274). -/
def StoreOk (s : State) (space n : Nat) (a : BitVec 7) (b : BitVec 6) (p : Nat) : Prop :=
  ∀ l, s.cur.active p l = true → laneAddr s a b l % n = 0 ∧ laneAddr s a b l + n ≤ (coachRange s space).2

/-- No byte that a lane would read is marked uncorrectable (R420). -/
def StoreClean (s : State) (space n : Nat) (a : BitVec 7) (b : BitVec 6) (p : Nat) : Prop :=
  ∀ l, s.cur.active p l = true → ∀ m ∈ (s.island s.cur.id.isl).marks,
    let k := storeKey s.cur.id.isl s.cur.id.core space (storeOff s space a b l)
    ¬ (k ≤ m ∧ m < k + n)

/-- No store of the agent to the lanes' elements is under way (R98). -/
def StoreQuiet (s : State) (space n : Nat) (a : BitVec 7) (b : BitVec 6) (p : Nat) : Prop :=
  storeAhead s space n ((s.cur.activeLanes p).map (storeOff s space a b)) = false

/-- The step performs the access as it issues (R425, log 6). -/
def StoreAtOnce (s : State) (space n : Nat) (a : BitVec 7) (b : BitVec 6) (p : Nat) : Prop := StoreQuiet s space n a b p ∧ s.goesLate = false

end Sys2Proof.Spec

/-- R78, R79, R273 to R275: LDS and LDA, performed as they issue and with nothing read ahead, load each active lane's element from the coach's SP or AB, extended by its size code, into vd and the
registers above it. No memory changes, and nothing else of the agent but the count. -/
def Obligations.StoreLoads : Prop :=
  ∀ (s : State) (d a : BitVec 7) (b : BitVec 6) (p z : BitVec 3) (space : Nat) (i : Instr),
    (space = 1 ∧ i = .lds d a b p z) ∨ (space = 2 ∧ i = .lda d a b p z) → z.toNat ≤ 6 → d.toNat + elemRegs z ≤ 128 →
    StoreOk s space (elemBytes z) a b p.toNat → StoreClean s space (elemBytes z) a b p.toNat → StoreAtOnce s space (elemBytes z) a b p.toNat →
    s.ord.ahead = [] →
    ∃ t, exec i s = .next t
      ∧ (∀ k l, k < 128 → l < 64 → t.cur.rdV k l =
          if d.toNat ≤ k ∧ k < d.toNat + elemRegs z ∧ s.cur.active p.toNat l then
            elemReg z (s.storeBytes s.cur.id.isl s.cur.id.core space (storeOff s space a b l) (elemBytes z)) (k - d.toNat)
          else s.cur.rdV k l)
      ∧ MemAs s t ∧ Falls s t ∧ still (noV (noFlow t.cur)) = still (noV (noFlow s.cur))
      ∧ t.cur.fl.ld = s.cur.fl.ld + (if s.cur.activeLanes p.toNat = [] then 0 else 1)

/-- R78, R79, R273 to R275: STS and STA, performed as they issue, store each active lane's element to the coach's SP or AB. Every byte that a lane's element covers holds
that byte of one such lane's element; every other byte of every memory reads as before, and no register changes. -/
def Obligations.StoreStores : Prop :=
  ∀ (s : State) (d a : BitVec 7) (b : BitVec 6) (p z : BitVec 3) (space : Nat) (i : Instr),
    (space = 1 ∧ i = .sts d a b p z) ∨ (space = 2 ∧ i = .sta d a b p z) → z.toNat ≤ 4 →
    StoreOk s space (elemBytes z) a b p.toNat → StoreAtOnce s space (elemBytes z) a b p.toNat →
    let covers := fun l k => s.cur.active p.toNat l = true ∧ storeOff s space a b l ≤ k ∧ k < storeOff s space a b l + elemBytes z
    ∃ t, exec i s = .next t
      ∧ (∀ k, (∃ l, covers l k) → ∃ l, covers l k ∧
          some (t.storeGet s.cur.id.isl s.cur.id.core space k) = (s.cur.rdElem d.toNat z l)[k - storeOff s space a b l]?)
      ∧ (∀ isl core sp k,
          (∀ l, s.cur.active p.toNat l = true → ∀ j < elemBytes z,
            storeKey isl core sp k ≠ storeKey s.cur.id.isl s.cur.id.core space (storeOff s space a b l + j)) →
          t.storeGet isl core sp k = s.storeGet isl core sp k)
      ∧ (∀ isl b, t.physGet isl b = s.physGet isl b) ∧ (∀ isl core b, seenByte t isl core b = seenByte s isl core b)
      ∧ (∀ b, spGet t.hostMem b = spGet s.hostMem b)
      ∧ Falls s t ∧ still (noAcc t.cur) = still (noAcc s.cur)
      ∧ t.cur.fl.st = s.cur.fl.st + (if s.cur.activeLanes p.toNat = [] then 0 else 1)

namespace Sys2Proof.Spec

/-- The lanes of a global access: each active lane's probe passes and none names a control word of the hub cores; no atomic of the agent is
under way in their lines (R274, R276, R381). -/
def LanesOk (s : State) (a : BitVec 7) (b : BitVec 6) (p n : Nat) (acc : Acc) (s1 : State) (ps : List (Nat × Probe)) : Prop :=
  probeLanes (fun s l => probeLane s (laneAddr s a b l) n acc) s (s.cur.activeLanes p) = (s1, ps)
  ∧ (∀ q ∈ ps, ∃ pa mt, q.2 = .ok pa mt ∧ mt ≠ mtHub)
  ∧ atomAhead s1 s1.cur.mIsl (ps.map (fun q => q.2.pa / 128)) = false

/-- Every line that the probes name is in the core's L1, so that the access displaces none and no policy passes the L1 by. -/
def LinesHeld (s1 : State) (ps : List (Nat × Probe)) : Prop :=
  ∀ q ∈ ps, (l1Find s1 s1.cur.mIsl s1.cur.id.core (q.2.pa / 128)).isSome = true

end Sys2Proof.Spec

/-- R273 to R275: LDG, performed as it issues and with nothing read ahead, completes whenever its lanes' probes pass, is counted, and changes no register
of the agent but vd and those above it in the active lanes. Where the L1 holds the lines, each lane's registers hold the bytes that the core sees, and every memory reads as before. -/
def Obligations.GlobalLoads : Prop :=
  ∀ (s s1 : State) (d a : BitVec 7) (b : BitVec 6) (p z : BitVec 3) (ps : List (Nat × Probe)),
    z.toNat ≤ 6 → d.toNat + elemRegs z ≤ 128 → LanesOk s a b p.toNat (elemBytes z) .read s1 ps → s1.goesLate = false →
    s1.ord.ahead = [] →
    ∃ t, exec (.ldg d a b p z) s = .next t
      ∧ Falls s t ∧ still (noV (noAcc t.cur)) = still (noV (noAcc s.cur))
      ∧ t.cur.fl.ld = s.cur.fl.ld + (if ps = [] then 0 else 1)
      ∧ (∀ k l, k < 128 → l < 64 → ¬ (d.toNat ≤ k ∧ k < d.toNat + elemRegs z ∧ s.cur.active p.toNat l = true) →
          t.cur.rdV k l = s.cur.rdV k l)
      ∧ (LinesHeld s1 ps → MemAs s1 t ∧ ∀ q ∈ ps, ∀ i < elemRegs z,
          t.cur.rdV (d.toNat + i) q.1 = elemReg z (seenBytes s1 s1.cur.mIsl s1.cur.id.core q.2.pa (elemBytes z)) i)

/-- R273 to R275, R79: STG, performed as it issues, completes whenever its lanes' probes pass, is counted, and changes no register. Where the L1 holds the lines, every
byte that a lane's element covers is seen by the core as that byte of one such lane's element, and every byte outside reads as before. -/
def Obligations.GlobalStores : Prop :=
  ∀ (s s1 : State) (d a : BitVec 7) (b : BitVec 6) (p z : BitVec 3) (ps : List (Nat × Probe)),
    z.toNat ≤ 4 → LanesOk s a b p.toNat (elemBytes z) .write s1 ps → s1.goesLate = false →
    ∃ t, exec (.stg d a b p z) s = .next t
      ∧ Falls s t ∧ still (noAcc t.cur) = still (noAcc s.cur)
      ∧ t.cur.fl.st = s.cur.fl.st + (if ps = [] then 0 else 1)
      ∧ (∀ isl core sp k, t.storeGet isl core sp k = s.storeGet isl core sp k)
      ∧ (LinesHeld s1 ps →
          (∀ isl k, t.physGet isl k = s1.physGet isl k)
          ∧ (∀ q ∈ ps, ∀ i < elemBytes z, within q.2.pa (elemBytes z) (q.2.pa + i) →
              ∃ r ∈ ps, r.2.pa ≤ q.2.pa + i ∧ some (seenByte t s1.cur.mIsl s1.cur.id.core (q.2.pa + i))
                = (s.cur.rdElem d.toNat z r.1)[q.2.pa + i - r.2.pa]?)
          ∧ ∀ isl core k, (isl = s1.cur.mIsl → core = s1.cur.id.core → ∀ q ∈ ps, ¬ within q.2.pa (elemBytes z) k) →
              seenByte t isl core k = seenByte s1 isl core k)



/-- R82, R277, R279: ATOM and SATOM, once their probes pass, send one operation for each active lane, or one of 8 bytes, to the atomic unit: it is
pending with the lane's word, and a step for it is owed. The destination waits for it, ld rises by 1, and no register changes. One that
releases or acquires waits first for the agent's earlier accesses (R103). Memory is as the release half and the dropping of the addressed lines leave it. With no active lane ATOM does nothing. -/
def Sys2Proof.Spec.AtomicsAreSent : Prop :=
  ∀ (s s1 : State) (d a : BitVec 7) (b e f : BitVec 6) (o : BitVec 4) (r : BitVec 2),
    s.cur.atomScope ≠ 3 → (hasRel r = true ∨ hasAcq r = true → s.cur.accessesDone = true) →
    (∀ ps, s.cur.activeLanes 0 ≠ [] → probeLanes (fun s l => probeAtom s (laneAddr s a b l) 4) s (s.cur.activeLanes 0) = (s1, ps) →
      (∀ q ∈ ps, ∃ pa mt, q.2 = .ok pa mt) → atomAhead s1 s1.cur.mIsl (ps.map (fun q => q.2.pa / 128)) = false →
      ∃ t id reqs, exec (.atom d a b o r) s = .next t ∧ t.atoms = s.atoms ++ reqs
        ∧ reqs.map (fun q => (q.op, q.lane, q.aop, q.key)) = ps.map (fun q => (id, 4 * s.cur.id.hitch + q.1, o.toNat, memKey s.cur.mIsl q.2.pa))
        ∧ (∀ q ∈ reqs, q.wide = false ∧ q.dst = d.toNat ∧ Event.atomicPerform id q.lane ∈ t.due)
        ∧ t.cur.fl.ld = s.cur.fl.ld + 1 ∧ d.toNat ∈ t.cur.fl.pendV ∧ Falls s t ∧ still (noAcc t.cur) = still (noAcc s.cur)
        ∧ MemAs (beforeAtoms s1 (hasRel r) ((s.cur.activeLanes 0).map (laneAddr s a b)) (ps.map (fun q => q.2))) t)
    ∧ (s.cur.activeLanes 0 = [] → Skips s (exec (.atom d a b o r) s))
    ∧ (∀ pa mt, probeAtom s (s.rdS f).toNat 8 = (s1, .ok pa mt) → mt ≠ mtHub → atomAhead s1 s.cur.mIsl [pa / 128] = false →
      ∃ t id, exec (.satom o r e f b) s = .next t
        ∧ (∃ q : AtomReq, t.atoms = s.atoms ++ [q] ∧ q.op = id ∧ q.wide = true ∧ q.aop = o.toNat ∧ q.key = memKey s.cur.mIsl pa
            ∧ q.val = s.rdS b ∧ q.cmp = s.rdS e ∧ q.dst = e.toNat)
        ∧ Event.atomicPerform id 0 ∈ t.due ∧ t.cur.fl.ld = s.cur.fl.ld + 1 ∧ e.toNat ∈ t.cur.fl.pendS
        ∧ Falls s t ∧ still (noAcc t.cur) = still (noAcc s.cur)
        ∧ MemAs (beforeAtoms s1 (hasRel r) [(s.rdS f).toNat] [.ok pa mt]) t)

namespace Sys2Proof.Spec

/-- The instruction completes and begins access x, of s1, that is performed late: it is held last, counted, and its step is owed; every memory reads as
it did, and no register changes. -/
def Begun (s s1 : State) (i : Instr) (t : State) (x : LateAcc) : Prop :=
  exec i s = .next t ∧ t.ord.late = s1.ord.late ++ [x] ∧ x.isl = s1.cur.mIsl ∧ x.core = s1.cur.id.core
  ∧ x.agent = s1.cur.id.uid ∧ t.cur.fl = { (s1.cur.fl.begin_ x.op (if x.load then .ld else .st) 1) with pendV := t.cur.fl.pendV, pendS := t.cur.fl.pendS }
  ∧ Event.accessComplete x.op ∈ t.due ∧ MemAs s1 t ∧ Falls s t ∧ still (noAcc t.cur) = still (noAcc s.cur)

/-- The bytes of the dirty copies of some lines have reached the L2, but for the places of a set: each reads there as that byte of a copy that held it
dirty (R104). -/
def ReachedL2 (s t : State) (p : L1Line → Bool) (but : Nat → Prop) : Prop :=
  ∀ l ∈ s.l1, p l = true → ∀ i < 128, l.dirty.getLsbD i = true → ¬ but (l.line * 128 + i) →
    ∃ m ∈ s.l1, m.isl = l.isl ∧ m.line = l.line ∧ m.dirty.getLsbD i = true ∧ t.physGet l.isl (l.line * 128 + i) = lineByte m.data i

end Sys2Proof.Spec

/-- R98, R275, R425, R65: where the step performs its accesses late (log 6), a load or a store whose probes pass is begun and counted, and held with its
lanes' addresses and, for a store, its bytes; every memory reads as before, no register changes, and the destinations wait for a load. -/
def Sys2Proof.Spec.AccessesBegin : Prop :=
  (∀ (s s1 : State) (d a : BitVec 6) (o : BitVec 12) (pa mt n : Nat) (i : Instr) (load : Bool),
    (n = 4 ∧ load = true ∧ i = .sldW d a o) ∨ (n = 8 ∧ load = true ∧ i = .sldD d a o)
      ∨ (n = 4 ∧ load = false ∧ i = .sstW d a o) ∨ (n = 8 ∧ load = false ∧ i = .sstD d a o) →
    ScalarOk s a o n (if load then .read else .write) s1 pa mt → s1.goesLate = true →
    ∃ t x, Begun s s1 i t x ∧ x.load = load ∧ x.scalar = true ∧ x.space = 0 ∧ x.dst = d.toNat
      ∧ (load = true → d ≠ 0 → d.toNat ∈ t.cur.fl.pendS)
      ∧ ∃ e, x.elems = [e] ∧ e.2.2.1 = pa ∧ e.2.2.2.2.length = n ∧ (load = false → e.2.2.2.2 = leBytes n (s.rdS d).toNat))
  ∧ (∀ (s : State) (d a : BitVec 7) (b : BitVec 6) (p z : BitVec 3) (space : Nat) (i : Instr),
    (space = 1 ∧ i = .lds d a b p z) ∨ (space = 2 ∧ i = .lda d a b p z) → z.toNat ≤ 6 → d.toNat + elemRegs z ≤ 128 →
    s.cur.activeLanes p.toNat ≠ [] → StoreOk s space (elemBytes z) a b p.toNat → StoreClean s space (elemBytes z) a b p.toNat →
    StoreQuiet s space (elemBytes z) a b p.toNat → s.goesLate = true →
    ∃ t x, Begun s s i t x ∧ x.load = true ∧ x.scalar = false ∧ x.space = space ∧ x.dst = d.toNat ∧ x.elem = z
      ∧ (∀ k < elemRegs z, d.toNat + k ∈ t.cur.fl.pendV)
      ∧ x.elems.map (fun e => (e.1, e.2.2.1, e.2.2.2.2.length))
        = (s.cur.activeLanes p.toNat).map (fun l => (4 * s.cur.id.hitch + l, storeOff s space a b l, elemBytes z)))
  ∧ (∀ (s : State) (d a : BitVec 7) (b : BitVec 6) (p z : BitVec 3) (space : Nat) (i : Instr),
    (space = 1 ∧ i = .sts d a b p z) ∨ (space = 2 ∧ i = .sta d a b p z) → z.toNat ≤ 4 →
    s.cur.activeLanes p.toNat ≠ [] → StoreOk s space (elemBytes z) a b p.toNat →
    StoreQuiet s space (elemBytes z) a b p.toNat → s.goesLate = true →
    ∃ t x, Begun s s i t x ∧ x.load = false ∧ x.space = space
      ∧ (∀ l, s.cur.active p.toNat l = true → ∃ e ∈ x.elems, e.2.2.1 = storeOff s space a b l))
  ∧ (∀ (s s1 : State) (d a : BitVec 7) (b : BitVec 6) (p z : BitVec 3) (ps : List (Nat × Probe)),
    z.toNat ≤ 6 → d.toNat + elemRegs z ≤ 128 → LanesOk s a b p.toNat (elemBytes z) .read s1 ps → ps ≠ [] → s1.goesLate = true →
    ∃ t x, Begun s s1 (.ldg d a b p z) t x ∧ x.load = true ∧ x.scalar = false ∧ x.space = 0 ∧ x.dst = d.toNat ∧ x.elem = z
      ∧ (∀ k < elemRegs z, d.toNat + k ∈ t.cur.fl.pendV)
      ∧ x.elems.map (fun e => (e.1, e.2.2.1)) = ps.map (fun q => (4 * s.cur.id.hitch + q.1, q.2.pa)))
  ∧ (∀ (s s1 : State) (d a : BitVec 7) (b : BitVec 6) (p z : BitVec 3) (ps : List (Nat × Probe)),
    z.toNat ≤ 4 → LanesOk s a b p.toNat (elemBytes z) .write s1 ps → ps ≠ [] → s1.goesLate = true →
    ∃ t x, Begun s s1 (.stg d a b p z) t x ∧ x.load = false ∧ x.space = 0
      ∧ ∀ q ∈ ps, ∃ e ∈ x.elems, e.2.2.1 = q.2.pa)

/-- R98, R275, R425: an access begun late is performed by its own step (log 6), which takes it off the list. A scalar load then puts the bytes that its
core sees into sd, a load from a typed store each lane's element into its registers; a store's bytes are then seen by its core, or lie in the typed store. -/
def Sys2Proof.Spec.AccessesArePerformed : Prop :=
  ∀ (s : State) (u : Nat) (x : LateAcc), s.ev = .accessComplete u → s.ord.late.find? (fun a => a.op = u) = some x →
    ∃ t, exec .accessComplete s = .next t ∧ (∀ y ∈ t.ord.late, y.op ≠ u)
      ∧ (∀ e, x.load = true → x.scalar = true → x.space = 0 → x.elems = [e] → s.cur.holds u = true → x.dst < 64 → e.2.2.1 % 128 + e.2.2.2.2.length ≤ 128 →
        let room := madeRoom s x.isl x.core e.2.2.1 e.2.2.2.1
        (∀ k : BitVec 6, t.rdS k = if k.toNat = x.dst ∧ k ≠ 0 then BitVec.ofNat 64 (leNat (seenBytes room x.isl x.core e.2.2.1 e.2.2.2.2.length)) else s.rdS k)
        ∧ MemAs room t ∧ noS (noFlow t.cur) = noS (noFlow s.cur))
      ∧ (x.load = true → x.scalar = false → x.space ≠ 0 → s.cur.holds u = true → x.elem.toNat ≤ 6 → x.dst + elemRegs x.elem ≤ 128 →
        (x.elems.map (fun e => e.1)).Nodup → s.cur.id.width ≤ 64 →
        MemAs s t ∧ noV (noFlow t.cur) = noV (noFlow s.cur)
        ∧ (∀ e ∈ x.elems, 4 * s.cur.id.hitch ≤ e.1 → e.1 < 4 * s.cur.id.hitch + s.cur.id.width → e.2.2.2.2.length = elemBytes x.elem →
          ∀ i < elemRegs x.elem, t.cur.rdV (x.dst + i) (e.1 - 4 * s.cur.id.hitch)
            = elemReg x.elem (s.storeBytes x.isl x.core x.space e.2.2.1 (elemBytes x.elem)) i))
      ∧ (∀ e, x.load = false → x.space = 0 → x.elems = [e] → polSkips e.2.2.2.1 = false → ∀ i (h : i < e.2.2.2.2.length), within e.2.2.1 e.2.2.2.2.length (e.2.2.1 + i) →
          seenByte t x.isl x.core (e.2.2.1 + i) = e.2.2.2.2[i])
      ∧ (x.load = false → x.space ≠ 0 →
          (∀ e ∈ x.elems, (∀ f ∈ x.elems, f = e ∨ f.2.2.1 + f.2.2.2.2.length ≤ e.2.2.1 ∨ e.2.2.1 + e.2.2.2.2.length ≤ f.2.2.1) →
            ∀ i (h : i < e.2.2.2.2.length), t.storeGet x.isl x.core x.space (e.2.2.1 + i) = e.2.2.2.2[i])
          ∧ noFlow t.cur = noFlow s.cur ∧ (∀ isl b, t.physGet isl b = s.physGet isl b))

/-- R82, R278, R280, R275, R127: a pending atomic is performed at its word, once the issuing core has dropped a copy of its line that it filled meanwhile.
The word takes the new value, read and written as one, and every other byte at the L2 stays where nothing is acquired at .i; the request is gone. With the
last part of one that acquires at .i, no line that holds its bound regions stays in the core's L1, and the word's value stands. An access that was issued completes: its count falls by 1, after a wake of
a hub core that it owes. A write that arrives from another unit puts its bytes where they go. -/
def Sys2Proof.Spec.AtomicsAndAccessesComplete : Prop :=
  (∀ (s : State) (u l : Nat) (a : AtomReq), s.ev = .atomicPerform u l → s.atoms.find? (fun a => a.op = u && a.lane = l) = some a →
    KeysHeld s → a.key % 2 ^ 48 + (if a.wide then 8 else 4) ≤ 2 ^ 48 →
    let n := if a.wide then 8 else 4
    let isl := a.key / 2 ^ 48
    let pa := a.key % 2 ^ 48
    let s0 := dropLine s isl a.core (pa / 128)
    let old := s0.physNat isl pa n
    ∃ t, exec .atomicPerform s = .next t
      ∧ (∀ q ∈ t.atoms, ¬ (q.op = u ∧ q.lane = l))
      ∧ (a.acq = true → a.scope = scopeI → (∀ q ∈ t.atoms, q.op ≠ u) →
          ∀ l ∈ t.l1, ownLine a.isl a.core a.ctx l = true → inRegions a.regs l = false)
      ∧ ((a.acq = true → a.scope = scopeI → a.isl = isl) → ∀ i < n, t.physGet isl (pa + i) = BitVec.ofNat 8 ((if a.wide then (atomicNew a.aop (BitVec.ofNat 64 old) a.val a.cmp).toNat
          else (atomicNew a.aop (BitVec.ofNat 32 old) (a.val.truncate 32) (a.cmp.truncate 32)).toNat) / 256 ^ i))
      ∧ ((a.acq = true → a.scope ≠ scopeI) → ∀ isl' k, ¬ inBytes isl pa n isl' k → k < 2 ^ 48 → t.physGet isl' k = s0.physGet isl' k)
      ∧ (a.wide = true → s.cur.holds u = true → ∀ k : BitVec 6, t.rdS k =
          if k.toNat = a.dst ∧ k ≠ 0 then BitVec.ofNat 64 old else s.rdS k))
  ∧ (∀ (s : State) (u : Nat), s.ev = .accessComplete u → s.atoms.all (fun a => a.op ≠ u) = true →
    s.ord.late.all (fun a => a.op ≠ u) = true → s.cur.fl.ops.find? (fun o => o.id = u) = some { id := u, cls := .st, left := 1 } →
    (wakeOwed s u = true → exec .accessComplete s = .next (waitStep s (.accessComplete u)))
    ∧ (wakeOwed s u = false → ∃ t, exec .accessComplete s = .next t ∧ t.cur.fl.st = s.cur.fl.st - 1 ∧ t.cur.fl.ld = s.cur.fl.ld
      ∧ noFlow t.cur = noFlow s.cur ∧ MemAs s t))
  ∧ (∀ (s : State) (isl core sp addr : Nat) (bs : List Byte) (ctx va : Nat), s.ev = .writeArrival sp isl core addr bs ctx va → KeysHeld s →
    let s0 := markAD s isl ctx va true
    ∃ t, exec .writeArrival s = .next t
      ∧ (sp = 0 → (∀ i (h : i < bs.length), t.physGet isl (addr + i) = bs[i])
          ∧ (∀ isl' k, ¬ inBytes isl addr bs.length isl' k → addr + bs.length ≤ 2 ^ 48 → k < 2 ^ 48 →
              t.physGet isl' k = s0.physGet isl' k))
      ∧ (sp ≠ 0 → (∀ i (h : i < bs.length), t.storeGet isl core sp (addr + i) = bs[i])
          ∧ (∀ isl' k, t.physGet isl' k = s.physGet isl' k)))

/-- `AtomicsAreSent`, `AccessesBegin`, `AccessesArePerformed` and `AtomicsAndAccessesComplete` together. -/
def Obligations.Atomics : Prop := Sys2Proof.Spec.AtomicsAreSent ∧ Sys2Proof.Spec.AccessesBegin ∧ Sys2Proof.Spec.AccessesArePerformed ∧ Sys2Proof.Spec.AtomicsAndAccessesComplete

/-- R99, R103, R104, R281 to R285: the members that order and maintain take effect once every earlier access of the agent has completed. FENCE.rel.i
leaves no line of the agent's context dirty in its core's L1, and the dirty bytes have reached the L2; FENCE.acq.i leaves no line there. At the other
scopes the L1 stays; .p is no valid code here (R281). ACQ delivers the word at the L2, and at .i leaves no line of the regions bound to its object in the core's L1; REL writes the
word there, after the dirty bytes of those regions at .i. CWB leaves no line of the region dirty, its bytes at the L2, and CINV none at all. What the
core has read ahead is dropped (R98). -/
def Sys2Proof.Spec.OrderingMembers : Prop :=
  ∀ (s : State) (d a b : BitVec 6) (c o : BitVec 2), s.cur.accessesDone = true → KeysHeld s →
    let isl := s.cur.mIsl
    let core := s.cur.id.core
    let own := ownLine isl core s.cur.id.ctx
    let obj := (s.rdS a).toNat
    let bound := boundRegions s isl s.cur.id.ctx obj
    (∃ t, exec (.fence c o) s = .next t ∧ Falls s t ∧ still (noAcc t.cur) = still (noAcc s.cur)
      ∧ (c = 2 → hasRel o = true → (∀ l ∈ t.l1, own l = true → l.dirty = 0) ∧ ReachedL2 s t own (fun _ => False))
      ∧ (c = 2 → hasAcq o = true → (∀ l ∈ t.l1, own l = false) ∧ ReachedL2 s t own (fun _ => False))
      ∧ (c ≠ 2 → SameRest (dropAhead s isl core) t))
    ∧ (∀ s1 pa mt, probeUnit s obj 8 = (s1, .ok pa mt) →
      ∃ t, exec (.acq d a c) s = .next t ∧ Falls s t ∧ still (noS (noAcc t.cur)) = still (noS (noAcc s.cur))
        ∧ (∀ k, t.rdS k = if k = d ∧ d ≠ 0 then BitVec.ofNat 64 ((dropLine s1 isl core (pa / 128)).physNat isl pa 8) else s.rdS k)
        ∧ (c = 2 → (∀ g ∈ bound, g.1 + g.2 ≤ 2 ^ 64) → ∀ l ∈ t.l1, own l = true → inRegions bound l = false)
        ∧ (c ≠ 2 → MemAs (dropLine s1 isl core (pa / 128)) t ∧ t.l1 = (dropLine s1 isl core (pa / 128)).l1))
    ∧ (∀ s1 pa mt, probeGlobal s obj 8 .write = (s1, .ok pa mt) → pa + 8 ≤ 2 ^ 48 → KeysHeld s1 →
      ∃ t, exec (.rel b a c) s = .next t ∧ Falls s t ∧ still (noAcc t.cur) = still (noAcc s.cur)
        ∧ (∀ i < 8, t.physGet isl (pa + i) = BitVec.ofNat 8 ((s.rdS b).toNat / 256 ^ i))
        ∧ (c = 2 → (∀ l ∈ t.l1, own l = true → inRegions bound l = true → l.dirty = 0)
          ∧ ReachedL2 s1 t (fun l => own l && inRegions bound l) (inBytes isl pa 8 isl)))
    ∧ (∃ t, exec (.cwbWriteback a b) s = .next t ∧ Falls s t ∧ still (noAcc t.cur) = still (noAcc s.cur)
      ∧ (∀ l ∈ t.l1, regionLines s a b l = true → l.dirty = 0) ∧ ReachedL2 s t (regionLines s a b) (fun _ => False))
    ∧ (∃ t, exec (.cinv a b) s = .next t ∧ Falls s t ∧ still (noAcc t.cur) = still (noAcc s.cur)
      ∧ (∀ l ∈ t.l1, regionLines s a b l = false) ∧ ReachedL2 s t (regionLines s a b) (fun _ => False))

/-- R99, R284: BIND gives a region, named by an even pair, and an object to the lowest free entry of its context's table, and delivers its
index: −2 for a region or an object that is not allowed, −1 for a full table. UNBIND frees an entry. Nothing else changes but that what the core has read ahead is dropped. -/
def Sys2Proof.Spec.BindingMembers : Prop :=
  ∀ (s : State) (d a b : BitVec 6), s.cur.accessesDone = true →
    let isl := s.cur.mIsl
    let ctx := s.cur.id.ctx
    let base := (s.rdS a).toNat
    let len := (s.cur.rdS (a.toNat + 1)).toNat
    let obj := (s.rdS b).toNat
    let ok := base % 128 = 0 ∧ len % 128 = 0 ∧ 128 ≤ len ∧ len ≤ 2 ^ 48 ∧ obj % 8 = 0
    let s0 := dropAhead s isl s.cur.id.core
    let free := fun i => ∀ e ∈ s.bindings, ¬ (e.isl = isl ∧ e.ctx = ctx ∧ e.idx = i)
    (¬ ok → WritesS s0 (exec (.bind d a b) s) d (-2))
    ∧ (ok → (∀ i < 1024, ¬ free i) → WritesS s0 (exec (.bind d a b) s) d (-1))
    ∧ (∀ i, ok → i < 1024 → free i → (∀ j < i, ¬ free j) →
      ∃ t, exec (.bind d a b) s = .next t ∧ (∀ k, t.rdS k = if k = d ∧ d ≠ 0 then BitVec.ofNat 64 i else s.rdS k)
        ∧ t.bindings = { isl := isl, ctx := ctx, idx := i, base := base, len := len, obj := obj } :: s.bindings
        ∧ Falls s t ∧ Frame noS { s0 with bindings := t.bindings } t)
    ∧ (∃ t, exec (.unbind a) s = .next t ∧ Falls s t ∧ Frame id { s0 with bindings := t.bindings } t
        ∧ ∀ e, e ∈ t.bindings ↔ e ∈ s.bindings ∧ ¬ (e.isl = isl ∧ e.ctx = ctx ∧ e.idx = base))


/-- `OrderingMembers` and `BindingMembers` together. -/
def Obligations.OrderingAndBinding : Prop := Sys2Proof.Spec.OrderingMembers ∧ Sys2Proof.Spec.BindingMembers

namespace Sys2Proof.Spec

/-- The agent parks in a wait with its continuation at the next instruction, a Carter at the same one; it executes nothing until it is woken
(R73, R288). -/
def ParksIn (s t : State) (p : Park) : Prop :=
  t.cur.sch.life = .parked ∧ t.cur.sch.park = p ∧ t.cur.id = s.cur.id
  ∧ (s.cur.id.kind = .carter → t.cur.sc.pc = s.cur.sc.pc)
  ∧ (s.cur.id.kind ≠ .carter → (∀ l ∈ s.cur.sc.loops, l.last ≠ s.cur.sc.pc) → t.cur.sc.pc = s.cur.sc.pc + 4)

/-- A counter word that R294 allows: bits 15 and 10:0 alone, and an index of at most 31 for a counter of the core. -/
def counterWordOk (w : Word64) : Prop := w &&& 0xFFFFFFFFFFFF7800 = 0 ∧ (w.getLsbD 15 = false → w.toNat ≤ 31)

/-- The counter that a word names: a counter of the island (core 128) with bit 15 set, else of the agent's core (R294). -/
def counterNamed (s : State) (w : Word64) : Counter :=
  counterOf s s.cur.id.isl (if w.getLsbD 15 then 128 else s.cur.id.core) (w.toNat % 2048)

end Sys2Proof.Spec

/-- R153, R275, R287: with no deferred cause pending, WAIT completes once each class's count is at most its limit, a limit of 15 placing no
condition, and changes nothing but that what its core has read ahead is dropped (R98, R425); while one is above, the instruction stands at its pc and nothing of it happens. -/
def Sys2Proof.Spec.WaitHoldsUntilTheCountsAllow : Prop :=
  ∀ (s : State) (l st c t r : BitVec 4), s.cur.an.deferred = [] →
    let below := fun (n : BitVec 4) (k : Nat) => n = 15 ∨ k ≤ n.toNat
    let f := s.cur.fl
    ((below l f.ld ∧ below st f.st ∧ below c f.cp ∧ below t f.tl ∧ below r f.rm) →
        Skips (dropAhead s s.cur.mIsl s.cur.id.core) (exec (.wait l st c t r) s))
    ∧ (¬ (below l f.ld ∧ below st f.st ∧ below c f.cp ∧ below t f.tl ∧ below r f.rm) →
        exec (.wait l st c t r) s = .next (stall s))

/-- R114, R289: CPOST puts the eight registers, with the team's tag, at the end of the inbox of its core's Carter where that holds fewer than
64 messages, and cp rises by 1; no register changes. With a full inbox the instruction waits. -/
def Obligations.PostingToTheCarter : Prop :=
  ∀ (s : State) (a : BitVec 6),
    let box := fun (s : State) => (s.carter s.cur.id.isl s.cur.id.core).inbox
    ((box s).length < 64 → ∃ t m, exec (.cpost a) s = .next t ∧ box t = box s ++ [m]
      ∧ m.words = (List.range 8).map (fun i => s.cur.rdS (a.toNat + i))
      ∧ m.tag = BitVec.ofNat 64 (s.cur.id.slot * 2 ^ 8 + s.cur.id.team * 2 ^ 16)
      ∧ t.cur.fl.cp = s.cur.fl.cp + 1 ∧ Falls s t ∧ still (noFlow t.cur) = still (noFlow s.cur) ∧ MemAs s t)
    ∧ (64 ≤ (box s).length → exec (.cpost a) s = .next (stall s))

/-- R290, R291, R294, R103, R107, R108: WAITGE and WAITGEC complete at once where their condition holds, and else park the agent in the wait. The word
form reads its word at the L2, the timeline form its timeline's word, and the counter form the counter's fired bit; WAITGE asks for at least the value,
WAITGEC for at most, as unsigned numbers. An acquiring form (o = 1) waits first for the agent's earlier accesses, and where it completes at .i leaves no
line of the agent's context in its core's L1 that holds the regions bound to the word, the destinations of the timeline's covered operations, or the
counter's counted bytes. -/
def Sys2Proof.Spec.WaitsOnValues : Prop :=
  ∀ (s : State) (a b : BitVec 6) (c : BitVec 2) (o : BitVec 1) (m : Bool),
    let i := fun (f : BitVec 2) => if m then Instr.waitgec a b f c o else Instr.waitge a b f c o
    let holds := fun (x v : Word64) => if m then x.toNat ≤ v.toNat else v.toNat ≤ x.toNat
    let gone := fun (t : State) (p : L1Line → Bool) =>
      o = 1 → c = 2 → ∀ l ∈ t.l1, ownLine s.cur.mIsl s.cur.id.core s.cur.id.ctx l = true → p l = false
    (o = 1 → s.cur.accessesDone = false → ∀ f, exec (i f) s = .next (stall s))
    ∧ ((o = 1 → s.cur.accessesDone = true) →
      (∀ s1 pa mt, probeUnit s (s.rdS a).toNat 8 = (s1, .ok pa mt) → atomAhead s1 s1.cur.mIsl [pa / 128] = false →
        let s2 := dropLine s1 s1.cur.mIsl s1.cur.id.core (pa / 128)
        let bound := boundRegions s s.cur.mIsl s.cur.id.ctx (s.rdS a).toNat
        ∃ t, exec (i 0) s = .next t
          ∧ (holds (BitVec.ofNat 64 (s2.physNat s1.cur.mIsl pa 8)) (s.rdS b) → Falls s t ∧ still (noAcc t.cur) = still (noAcc s.cur)
              ∧ (o = 0 → MemAs s2 t) ∧ ((∀ g ∈ bound, g.1 + g.2 ≤ 2 ^ 64) → gone t (inRegions bound)))
          ∧ (¬ holds (BitVec.ofNat 64 (s2.physNat s1.cur.mIsl pa 8)) (s.rdS b) →
              ParksIn s t (.word (s.rdS a) (memKey s1.cur.mIsl pa) (s.rdS b) m (decide (o = 1)) c.toNat)))
      ∧ (timelineOk (s.rdS a).toNat = true → (s.rdS a).toNat ≠ 4 → ∀ pa,
        timelinePa s s.cur.id.isl s.cur.id.ctx (timelineUnit s.cur (s.rdS a).toNat) (s.rdS a).toNat = some pa →
        atomAhead s s.cur.mIsl [pa / 128] = false → unitBad s s.cur.mIsl s.cur.id.core pa = false →
        let s2 := readTimeline s (s.rdS a).toNat pa
        let x := wordAt s2 (memKey s.cur.id.isl pa)
        ∃ t, exec (i 1) s = .next t
          ∧ (holds x (s.rdS b) → Falls s t ∧ still (noAcc t.cur) = still (noAcc s.cur) ∧ (o = 0 → MemAs s2 t)
              ∧ gone t (holdsPhys (coveredBytes (s.timeline s.cur.id.isl s.cur.id.ctx (timelineUnit s.cur (s.rdS a).toNat) (s.rdS a).toNat) x)))
          ∧ (¬ holds x (s.rdS b) → ParksIn s t (.timeline (s.rdS a).toNat (memKey s.cur.id.isl pa) (s.rdS b) m (decide (o = 1)) c.toNat)))
      ∧ (counterWordOk (s.rdS a) →
        ((counterNamed s (s.rdS a)).fired = true → ∃ t, exec (.waitge a b 2 c o) s = .next t ∧ Falls s t ∧ still (noAcc t.cur) = still (noAcc s.cur)
            ∧ (o = 0 → SameRest s t)
            ∧ ((counterNamed s (s.rdS a)).store = 0 → gone t (holdsPhys (counterNamed s (s.rdS a)).regs)))
        ∧ ((counterNamed s (s.rdS a)).fired = false → ∃ t, exec (.waitge a b 2 c o) s = .next t
            ∧ ParksIn s t (.counter (decide ((if (s.rdS a).getLsbD 15 then 128 else s.cur.id.core) = 128)) ((s.rdS a).toNat % 2048)
              (decide (o = 1)) c.toNat))))

/-- `WaitHoldsUntilTheCountsAllow` and `WaitsOnValues` together. -/
def Obligations.Waits : Prop := Sys2Proof.Spec.WaitHoldsUntilTheCountsAllow ∧ Sys2Proof.Spec.WaitsOnValues

/-- R33, R34, R293: with an aligned address and every earlier access complete, LAUNCH and LAUNCHNB append the address to their core's
pending-launch queue of four entries; LAUNCHNB delivers 0. With a full queue LAUNCH waits, to run again, and LAUNCHNB delivers 1. An address that
is not a multiple of 64 traps MISALIGN. -/
def Obligations.TaskLaunches : Prop :=
  ∀ (s : State) (d a : BitVec 6),
    let q := fun (s : State) => launchEnts s s.cur.id.isl s.cur.id.core
    ((s.rdS a).toNat % 64 ≠ 0 →
      exec (.launch a) s = .next (takeTrap s (addrFx causeMisalign (s.rdS a) 0xFF 0xFF))
      ∧ exec (.launchnb d a) s = .next (takeTrap s (addrFx causeMisalign (s.rdS a) 0xFF 0xFF)))
    ∧ ((s.rdS a).toNat % 64 = 0 → s.cur.accessesDone = true →
      ((q s).length < 4 → ∃ t u e e', exec (.launch a) s = .next t ∧ exec (.launchnb d a) s = .next u
        ∧ q t = q s ++ [e] ∧ q u = q s ++ [e'] ∧ e.addr = s.rdS a ∧ e'.addr = s.rdS a ∧ e.team = s.cur.id
        ∧ Falls s t ∧ still (noAcc t.cur) = still (noAcc s.cur)
        ∧ (∀ k, u.rdS k = if k = d ∧ d ≠ 0 then 0 else s.rdS k) ∧ still (noS (noAcc u.cur)) = still (noS (noAcc s.cur)))
      ∧ (4 ≤ (q s).length → ∃ t u, exec (.launch a) s = .next t ∧ exec (.launchnb d a) s = .next u
        ∧ q t = q s ∧ q u = q s ∧ t.cur.sch.life = .parked ∧ t.cur.sch.park = .launch ∧ t.cur.sc.pc = s.cur.sc.pc
        ∧ (∀ k, u.rdS k = if k = d ∧ d ≠ 0 then 1 else s.rdS k) ∧ still (noS (noAcc u.cur)) = still (noS (noAcc s.cur))))

/-- R126, R128, R294 to R297: ARMCNT reads its descriptor and delivers the status of arming it; the counter named is then the armed one. DISARM
delivers 0 for a counter that was armed, else 1, and the counter is neither armed nor counting; 3 for a word that names none. CNTRD delivers the
figure that its k selects, and all ones for a word that names none. -/
def Sys2Proof.Spec.CounterMembers : Prop :=
  ∀ (s : State) (d b a k : BitVec 6),
    let w := s.rdS b
    let c := counterNamed s w
    (¬ counterWordOk w → WritesS s (exec (.disarm d b) s) d 3 ∧ WritesS s (exec (.cntrd d k b) s) d (-1))
    ∧ (counterWordOk w →
      (∃ t, exec (.disarm d b) s = .next t ∧ (∀ k, t.rdS k = if k = d ∧ d ≠ 0 then (if c.armed then 0 else 1) else s.rdS k)
        ∧ (counterNamed t w).armed = false ∧ (counterNamed t w).counting = false
        ∧ (counterNamed t w).count = c.count ∧ (counterNamed t w).fired = c.fired
        ∧ Falls s t ∧ Frame noS { s with counters := t.counters } t)
      ∧ WritesS s (exec (.cntrd d 0 b) s) d (BitVec.ofNat 64 c.count)
      ∧ WritesS s (exec (.cntrd d 1 b) s) d (BitVec.ofNat 64 c.overrun)
      ∧ WritesS s (exec (.cntrd d 2 b) s) d (BitVec.ofNat 64 ((if c.armed then 1 else 0) + (if c.fired then 2 else 0)
          + (if c.counting then 4 else 0) + 2 ^ 8 * c.action + 2 ^ 16 * c.scope))
      ∧ WritesS s (exec (.cntrd d 3 b) s) d (BitVec.ofNat 64 c.total))
    ∧ (s.cur.accessesDone = true → ∀ s1 pa mt, probeGlobal s (s.rdS a).toNat 64 .read = (s1, .ok pa mt) →
      let r := gRead s1 s1.cur.mIsl s1.cur.id.core s1.cur.id.ctx (s.rdS a).toNat pa 64 (typePolicy (decide (mt = 1)))
      let q := armCounter r.1 (parseDesc r.2) w
      ∃ t, exec (.armcnt d a b) s = .next t ∧ Falls s t
        ∧ (∀ k, t.rdS k = if k = d ∧ d ≠ 0 then BitVec.ofNat 64 q.2 else s.rdS k) ∧ q.2 ≤ 4
        ∧ still (noS (noAcc t.cur)) = still (noS (noAcc s.cur))
        ∧ (q.2 = 0 → 0 < (parseDesc r.2).total → (counterNamed t w).armed = true ∧ (counterNamed t w).count = 0
            ∧ (counterNamed t w).total = (parseDesc r.2).total)
        ∧ (q.2 ≠ 0 → t.counters = r.1.counters))

/-- R298: HEAT of 0 delivers the units held; a request beyond 255 held or beyond the Hearth's budget delivers all ones; another request joins
the Hearth's queue and the agent waits, and after the grant HEAT delivers what it holds. COOL returns at most what is held. -/
def Sys2Proof.Spec.HeatMembers : Prop :=
  ∀ (s : State) (d a : BitVec 6),
    let n := (s.rdS a).toNat
    let held := s.cur.an.heat
    (s.cur.an.heatWait = none → n = 0 → WritesS s (exec (.heat d a) s) d (BitVec.ofNat 64 held))
    ∧ (s.cur.an.heatWait = none → n ≠ 0 → 255 < held + n ∨ (s.island s.cur.id.isl).budget < n →
        WritesS s (exec (.heat d a) s) d (-1))
    ∧ (∀ w g, s.cur.an.heatWait = some (w, g + 1) → ∃ t, exec (.heat d a) s = .next t ∧ t.cur.an.heatWait = none
        ∧ (∀ k, t.rdS k = if k = d ∧ d ≠ 0 then BitVec.ofNat 64 held else s.rdS k) ∧ Falls s t)
    ∧ (s.cur.an.heatWait = none → n ≠ 0 → held + n ≤ 255 → n ≤ (s.island s.cur.id.isl).budget →
        exec (.heat d a) s = .next (stall (heatRequest (s.heatWaits (some (n, 0))) s.cur.id.isl
          { kind := 3, who := s.cur.id.uid, units := n, prio := heatPrio s })))
    ∧ (∃ t, exec (.cool a) s = .next t ∧ t.cur.an.heat = held - min n held ∧ Falls s t
        ∧ (t.island s.cur.id.isl).held = (s.island s.cur.id.isl).held - min n held)


/-- `CounterMembers` and `HeatMembers` together. -/
def Obligations.CountersAndHeat : Prop := Sys2Proof.Spec.CounterMembers ∧ Sys2Proof.Spec.HeatMembers

/-- R180, R235, R236, R27, R340: EXIT, with no open chain, no deferred cause and nothing outstanding, ends the stream, and its coach counts one more
plain exit while another of its streams lives. EXIT.S reads and checks its record, which it keeps while it waits, and ends the stream likewise with the
successor recorded. A record that fails traps SUCCESSOR_TOO_BIG; with an open chain both trap CHAIN_STATE, before any cause of the record's address; while an
operation is outstanding they wait. -/
def Sys2Proof.Spec.StreamsEnd : Prop :=
  ∀ (s : State) (a : BitVec 6),
    let lives := ∃ u ∈ s.others, u.live = true ∧ u.id.coach = s.cur.id.coach
    (s.cur.an.chain ≠ none → exec .exit s = .next (takeTrap s (plainFx causeChainState)))
    ∧ (∀ s1 x v, s.cur.sch.exitRec = none → probeGlobal s (s.rdS a).toNat 64 .read = (s1, .bad x v) → s.cur.an.chain ≠ none →
      exec (.exitS a) s = .next (takeTrap s1 (plainFx causeChainState)))
    ∧ (∀ s1 pa mt, s.cur.sch.exitRec = none → probeGlobal s (s.rdS a).toNat 64 .read = (s1, .ok pa mt) →
      atomAhead s1 s1.cur.mIsl [pa / 128] = false →
      let b := gRead s1 s1.cur.mIsl s1.cur.id.core s1.cur.id.ctx (s.rdS a).toNat pa 64 (typePolicy (decide (mt = 1)))
      let r := parseRec b.2
      (successorOk b.1 b.1.cur r = false → exec (.exitS a) s = .next (takeTrap b.1 (plainFx causeSuccessor)))
      ∧ (successorOk b.1 b.1.cur r = true → s.cur.an.chain ≠ none → exec (.exitS a) s = .next (takeTrap b.1 (plainFx causeChainState)))
      ∧ (successorOk b.1 b.1.cur r = true → s.cur.an.chain = none → s.cur.an.deferred = [] →
        (s.cur.fl.quiet = false → exec (.exitS a) s = .next (stall (b.1.keepExit (some (s.rdS a, r)))))
        ∧ (s.cur.fl.quiet = true → ∃ t, exec (.exitS a) s = .next t ∧ t.cur.id = s.cur.id ∧ t.cur.sch.life = .ended ∧ MemAs b.1 t
          ∧ (lives → ∀ c, s.coach? s.cur.id.coach = some c →
              t.coach? c.uid = some { c with succ := c.succ ++ [(s.cur.id.team, (s.rdS a, r))] }))))
    ∧ (s.cur.an.chain = none → s.cur.an.deferred = [] →
      (s.cur.fl.quiet = false → exec .exit s = .next (stall (s.keepExit none)))
      ∧ (s.cur.fl.quiet = true →
        (∃ t, exec .exit s = .next t ∧ t.cur.id = s.cur.id ∧ t.cur.sch.life = .ended ∧ t.cur.an.heat = 0 ∧ MemAs s t
          ∧ (lives → ∀ c, s.coach? s.cur.id.coach = some c → t.coach? c.uid = some { c with exits := c.exits + 1 }))
        ∧ (∀ x, s.cur.sch.exitRec = some x → ∃ t, exec (.exitS a) s = .next t ∧ t.cur.id = s.cur.id ∧ t.cur.sch.life = .ended
          ∧ t.cur.an.heat = 0
          ∧ (lives → ∀ c, s.coach? s.cur.id.coach = some c → t.coach? c.uid = some { c with succ := c.succ ++ [(s.cur.id.team, x)] }))))

/-- R237, R238, R124: YIELD makes the team inactive at its next instruction. YIELDC, with an aligned continuation and a timeline below 4
or from 8 on, parks it on the timeline's word with the continuation as its pc. A misaligned continuation traps MISALIGN. -/
def Sys2Proof.Spec.YieldingMembers : Prop :=
  ∀ (s : State) (a b n : BitVec 6),
    (∃ t, exec .yield s = .next t ∧ t.cur.sch.life = .inactive ∧ Falls s t ∧ still (noSch t.cur) = still (noSch s.cur) ∧ MemAs s t)
    ∧ ((s.rdS a).toNat % 4 ≠ 0 → exec (.yieldc a b n) s = .next (takeTrap s (addrFx causeMisalign (s.rdS a) 0xFF 0xFF)))
    ∧ ((s.rdS a).toNat % 4 = 0 → n ≠ 4 → ∀ pa,
      timelinePa s s.cur.id.isl s.cur.id.ctx (timelineUnit s.cur n.toNat) n.toNat = some pa →
      atomAhead s s.cur.mIsl [pa / 128] = false → unitBad s s.cur.mIsl s.cur.id.core pa = false →
      ∃ t key scope, exec (.yieldc a b n) s = .next t ∧ t.cur.sch.life = .parked
        ∧ t.cur.sch.park = .timeline n.toNat key (s.rdS b) false true scope ∧ key = memKey s.cur.id.isl pa
        ∧ t.cur.sc.pc = s.rdS a ∧ t.cur.sc.loops = s.cur.sc.loops ∧ still (noSch t.cur) = still (noSch s.cur) ∧ MemAs (readTimeline s n.toNat pa) t)

/-- `StreamsEnd` and `YieldingMembers` together. -/
def Obligations.EndingAndYielding : Prop := Sys2Proof.Spec.StreamsEnd ∧ Sys2Proof.Spec.YieldingMembers

/-- R65, R286: LEASE declares a lease of at most 224 KiB and leaves measured mode, LEASEM enters it; both begin a new window. LEASEQ delivers
the declared lease, the effective lease, the last window's lines or lost locality, or the mode. -/
def Obligations.LeaseMembers : Prop :=
  ∀ (s : State) (d a : BitVec 6),
    (∃ t, exec (.lease a) s = .next t ∧ t.cur.sch.lease = min (s.rdS a).toNat 224 ∧ t.cur.sch.effLease = min (s.rdS a).toNat 224
      ∧ t.cur.sch.measured = false ∧ t.cur.sch.winLines = [] ∧ t.cur.sch.winMisses = 0 ∧ t.cur.sch.winLost = 0
      ∧ Falls s t ∧ still (noSch t.cur) = still (noSch s.cur) ∧ MemAs s t)
    ∧ (∃ t, exec .leasem s = .next t ∧ t.cur.sch.lease = s.cur.sch.lease ∧ t.cur.sch.measured = true ∧ t.cur.sch.winLines = []
      ∧ Falls s t ∧ still (noSch t.cur) = still (noSch s.cur) ∧ MemAs s t)
    ∧ WritesS s (exec (.leaseq d 0) s) d (BitVec.ofNat 64 s.cur.sch.lease)
    ∧ WritesS s (exec (.leaseq d 1) s) d (BitVec.ofNat 64 s.cur.sch.effLease)
    ∧ WritesS s (exec (.leaseq d 2) s) d (BitVec.ofNat 64 s.cur.sch.lastLines)
    ∧ WritesS s (exec (.leaseq d 3) s) d (BitVec.ofNat 64 s.cur.sch.lastLost)
    ∧ WritesS s (exec (.leaseq d 4) s) d (if s.cur.sch.measured then 1 else 0)

/-- R53, R265: SPLIT divides a team whose depth counters are 0, with no loop and no chain open, into subteams of n lanes. The first goes on
with lanes 0 to n − 1; each further one becomes an agent with its own lanes and a copy of the scalar registers. A team that may not split traps
SPLIT. -/
def Sys2Proof.Spec.TeamsSplit : Prop :=
  ∀ (s : State) (w : BitVec 6),
    let n := 4 * 2 ^ w.toNat
    let may := w.toNat ≤ 3 ∧ n < s.cur.id.width ∧ (∀ l < s.cur.nlanes, s.cur.rdDc l = 0) ∧ s.cur.sc.loops = [] ∧ s.cur.sc.pc1 = none
    (¬ may → exec (.split w) s = .next (takeTrap s (plainFx causeSplit)))
    ∧ (may → s.cur.an.chain = none →
      ∃ t, exec (.split w) s = .next t ∧ t.cur.id.uid = s.cur.id.uid ∧ t.cur.id.width = n ∧ t.cur.id.launchPos = s.cur.id.launchPos
        ∧ (∀ k l, k < 128 → l < n → t.cur.rdV k l = s.cur.rdV k l) ∧ (∀ k, t.rdS k = s.rdS k)
        ∧ (∀ j, 0 < j → (j + 1) * n ≤ 64 → j < s.cur.id.width / n →
            ∃ u ∈ t.others, u.id.width = n ∧ u.id.launchPos = s.cur.id.launchPos + j * n ∧ u.id.hitch = s.cur.id.hitch + j * n / 4
              ∧ u.id.task = s.cur.id.task ∧ u.sc = t.cur.sc ∧ ∀ k l, k < 128 → l < n → u.rdV k l = s.cur.rdV k (j * n + l))
        ∧ MemAs s t)

/-- R54, R55, R266: FUSE with a wanted width that is not twice the team's delivers 7. With the buddy half gone it delivers 2. Where the buddy
waits at the same FUSE in a like state, both deliver 0 and the two teams become one, the lower team's lanes below the upper's; the upper stream
is gone, whichever of the two comes last. Where the two do not match, both deliver the first of the codes 3 to 6 that applies and go on. With no buddy
there, or one whose period has ended, the team parks for its own period; code 1 comes with that period's end (`PlacementAdmissionAndHeat`). -/
def Sys2Proof.Spec.TeamsFuse : Prop :=
  ∀ (s : State) (d w : BitVec 6) (e : BitVec 5), s.cur.an.chain = none → s.cur.fl.quiet = true →
    let n := s.cur.id.width
    (w = 0 ∨ 4 * 2 ^ w.toNat ≠ 2 * n → WritesS s (exec (.fuse d w e) s) d 7)
    ∧ (w ≠ 0 → 4 * 2 ^ w.toNat = 2 * n →
      (halfLive s s.cur.id.coach (buddyHitch s.cur) (n / 4) = false → WritesS s (exec (.fuse d w e) s) d 2)
      ∧ (halfLive s s.cur.id.coach (buddyHitch s.cur) (n / 4) = true → ∀ b ww sd left since,
          s.others.find? (fun b => b.live && b.id.coach = s.cur.id.coach && b.id.hitch = buddyHitch s.cur && b.id.width = s.cur.id.width
            && b.sch.life = .parked) = some b →
          b.sch.park = .fuse ww sd left since → s.cycle - since ≤ left → b.id.uid ≠ s.cur.id.uid → s.cur.id.hitch < b.id.hitch → n ≤ 32 →
          fuseCode s.cur b = 0 →
          ∃ t, exec (.fuse d w e) s = .next t ∧ t.cur.id.uid = s.cur.id.uid ∧ t.cur.id.width = 2 * n
            ∧ (∀ u ∈ t.others, u.id.uid ≠ b.id.uid)
            ∧ (∀ k, t.rdS k = if k = d ∧ d ≠ 0 then 0 else s.rdS k)
            ∧ (∀ k l, k < 128 → l < n → t.cur.rdV k l = s.cur.rdV k l ∧ t.cur.rdV k (n + l) = b.rdV k l)
            ∧ MemAs s t)
      ∧ (halfLive s s.cur.id.coach (buddyHitch s.cur) (n / 4) = true →
        let buddy := s.others.find? (fun b => b.live && b.id.coach = s.cur.id.coach && b.id.hitch = buddyHitch s.cur && b.id.width = s.cur.id.width
            && b.sch.life = .parked)
        let parks := ∃ t, exec (.fuse d w e) s = .next t ∧ t.cur.sch.life = .parked ∧ t.cur.sch.park = .fuse (2 * n) d.toNat (2 ^ e.toNat) s.cycle
            ∧ t.cur.sc = s.cur.sc ∧ t.cur.id = s.cur.id ∧ MemAs s t
        (buddy = none → parks)
        ∧ (∀ b ww sd left since, buddy = some b → b.sch.park = .fuse ww sd left since → left < s.cycle - since → parks)
        ∧ (∀ b ww sd left since, buddy = some b → b.sch.park = .fuse ww sd left since → s.cycle - since ≤ left → b.id.uid ≠ s.cur.id.uid → sd < 64 →
          let code := if s.cur.sc.pc ≠ b.sc.pc then 3
            else if (∃ l < s.cur.nlanes, s.cur.rdDc l ≠ 0) ∨ (∃ l < b.nlanes, b.rdDc l ≠ 0) ∨ s.cur.sc.pc1 ≠ none ∨ b.sc.pc1 ≠ none then 4
            else if s.cur.sc.loops ≠ [] ∨ b.sc.loops ≠ [] then 5 else if s.cur.id.groups ≠ b.id.groups then 6 else 0
          (code ≠ 0 → ∃ t, exec (.fuse d w e) s = .next t ∧ Falls s t ∧ (∀ k, t.rdS k = if k = d ∧ d ≠ 0 then BitVec.ofNat 64 code else s.rdS k)
              ∧ t.cur.id = s.cur.id ∧ t.cur.ln = s.cur.ln
              ∧ (∃ u ∈ t.others, u.id = b.id ∧ u.ln = b.ln ∧ u.sch.life = .inactive
                  ∧ (∀ k < 64, u.rdS k = if k = sd ∧ sd ≠ 0 then BitVec.ofNat 64 code else b.rdS k))
              ∧ MemAs s t)
          ∧ (code = 0 → b.id.hitch < s.cur.id.hitch → n ≤ 32 → ∃ t, exec (.fuse d w e) s = .next t ∧ t.cur.sch.life = .ended ∧ t.cur.id.uid = s.cur.id.uid
              ∧ (∃ u ∈ t.others, u.id.uid = b.id.uid ∧ u.id.width = 2 * n ∧ u.sch.life = .inactive
                  ∧ (∀ k < 64, u.rdS k = if k = sd ∧ sd ≠ 0 then 0 else b.rdS k)
                  ∧ (∀ k l, k < 128 → l < n → u.rdV k l = b.rdV k l ∧ u.rdV k (n + l) = s.cur.rdV k l))
              ∧ MemAs s t))))

/-- `TeamsSplit` and `TeamsFuse` together. -/
def Obligations.TeamsSplitAndFuse : Prop := Sys2Proof.Spec.TeamsSplit ∧ Sys2Proof.Spec.TeamsFuse

/-- R267 to R270: the barrier members of a group slot, with no ordering code. An empty slot is a barrier of the team alone: an arrival delivers its
phase and advances it, and a wait passes. On a slot with a group, a first arrival delivers the phase, and the team is then among
the arrived or the phase has advanced; a wait passes for a phase that has passed, else the team parks on it. Stated for a group at which no counter
has arrived; where one has, a wait that passes acquires its bytes, once the team's earlier accesses have completed (R108). The forms with an ordering
code are `GroupBarriersOrder`. -/
def Sys2Proof.Spec.GroupBarriersMove : Prop :=
  ∀ (s : State) (d a : BitVec 6) (g c : BitVec 2),
    let p := soloPhase s.cur g
    let q : BitVec 32 := (s.rdS a).truncate 32
    let grp := fun (s : State) => (slotEntry s.cur g).bind (fun e => s.group? s.cur.id.isl s.cur.id.ctx e)
    (grp s = none →
      (∃ t, exec (.garrive d g c 0) s = .next t ∧ (∀ k, t.rdS k = if k = d ∧ d ≠ 0 then p.zeroExtend 64 else s.rdS k)
        ∧ soloPhase t.cur g = p + 1 ∧ Falls s t ∧ still (noS (noSch t.cur)) = still (noS (noSch s.cur)) ∧ MemAs s t)
      ∧ Skips s (exec (.gwait a g c 0) s)
      ∧ (∃ t, exec (.gbar g c 0) s = .next t ∧ soloPhase t.cur g = p + 1 ∧ Falls s t ∧ still (noSch t.cur) = still (noSch s.cur)
        ∧ MemAs s t))
    ∧ (∀ e, grp s = some e → e.syncs = false →
      (hasArrived s e s.cur = false →
        (∃ t, exec (.garrive d g c 0) s = .next t ∧ (∀ k, t.rdS k = if k = d ∧ d ≠ 0 then e.phase.zeroExtend 64 else s.rdS k)
          ∧ (∀ f, grp t = some f → s.cur.id.uid ∈ f.arrived ∨ f.phase = e.phase + 1)
          ∧ Falls s t ∧ still (noS (noSch t.cur)) = still (noS (noSch s.cur)) ∧ MemAs s t))
      ∧ (hasArrived s e s.cur = false → ∃ t, exec (.gbar g c 0) s = .next t ∧ MemAs s t
          ∧ (Falls s t ∨ (t.cur.sch.life = .parked ∧ t.cur.sch.park = .group e.entry e.phase false c.toNat)))
      ∧ (phasePassed e.phase q = true → Skips s (exec (.gwait a g c 0) s))
      ∧ (phasePassed e.phase q = false → ∃ t, exec (.gwait a g c 0) s = .next t ∧ t.cur.sch.life = .parked
          ∧ t.cur.sch.park = .group e.entry q false c.toNat ∧ MemAs s t)
      ∧ WritesS s (exec (.gqry d g 1) s) d (e.phase.zeroExtend 64))
    ∧ (∀ e, grp s = some e → phasePassed e.phase q = true → s.cur.accessesDone = true →
      ∃ t, exec (.gwait a g c 0) s = .next t ∧ Falls s t ∧ still (noSch t.cur) = still (noSch s.cur)
        ∧ ∀ l ∈ t.l1, ownLine s.cur.mIsl s.cur.id.core s.cur.id.ctx l = true → holdsPhys e.regs l = false)
    ∧ (slotEntry s.cur g = none → WritesS s (exec (.gqry d g 0) s) d (-1) ∧ WritesS s (exec (.gqry d g 1) s) d (p.zeroExtend 64)
      ∧ WritesS s (exec (.gqry d g 2) s) d 1 ∧ WritesS s (exec (.gqry d g 3) s) d 0)
    ∧ (∀ e, slotEntry s.cur g = some e → WritesS s (exec (.gqry d g 0) s) d (BitVec.ofNat 64 e))

/-- R268, R269, R103, R104, R282: the ordering codes of the group barrier. An arrival that releases and a wait that acquires stand until the team's earlier
accesses have completed. An arrival at .i with .rel then has the dirty bytes of the agent's context at the L2, and a wait at .i with .acq that passes
leaves no line of the context in the core's L1. A second arrival in one phase parks until the phase completes, to run again. -/
def Sys2Proof.Spec.GroupBarriersOrder : Prop :=
  ∀ (s : State) (d a : BitVec 6) (g c o : BitVec 2),
    let own := ownLine s.cur.mIsl s.cur.id.core s.cur.id.ctx
    let q : BitVec 32 := (s.rdS a).truncate 32
    let grp := fun (s : State) => (slotEntry s.cur g).bind (fun e => s.group? s.cur.id.isl s.cur.id.ctx e)
    let rel := if hasRel o then releaseAll s s.cur.mIsl s.cur.id.core s.cur.id.ctx c.toNat else s
    let clean := fun (t : State) => c = 2 → hasRel o = true → ReachedL2 s t own (fun _ => False)
    let gone := fun (t : State) => c = 2 → hasAcq o = true → ∀ l ∈ t.l1, own l = false
    let waits := fun (e : Group) (p : BitVec 32) (t : State) => t.cur.sch.life = .parked ∧ t.cur.sch.park = .group e.entry p (hasAcq o) c.toNat
    (s.cur.accessesDone = false →
      (hasRel o = true → exec (.garrive d g c o) s = .next (stall s) ∧ exec (.gbar g c o) s = .next (stall s))
      ∧ (hasAcq o = true → exec (.gwait a g c o) s = .next (stall s) ∧ exec (.gbar g c o) s = .next (stall s)))
    ∧ (s.cur.accessesDone = true → KeysHeld s →
      (grp s = none →
        (∃ t, exec (.garrive d g c o) s = .next t ∧ soloPhase t.cur g = soloPhase s.cur g + 1
          ∧ (∀ k, t.rdS k = if k = d ∧ d ≠ 0 then (soloPhase s.cur g).zeroExtend 64 else s.rdS k)
          ∧ Falls s t ∧ still (noS (noSch t.cur)) = still (noS (noSch s.cur)) ∧ clean t)
        ∧ (∃ t, exec (.gwait a g c o) s = .next t ∧ Falls s t ∧ still (noSch t.cur) = still (noSch s.cur) ∧ gone t)
        ∧ (∃ t, exec (.gbar g c o) s = .next t ∧ soloPhase t.cur g = soloPhase s.cur g + 1 ∧ Falls s t
          ∧ still (noSch t.cur) = still (noSch s.cur) ∧ clean t ∧ gone t))
      ∧ (∀ e, grp s = some e →
        (hasArrived s e s.cur = true →
          (∃ t, exec (.garrive d g c o) s = .next t ∧ t.cur.sch.life = .parked ∧ t.cur.sch.park = .arrive e.entry e.phase
            ∧ t.cur.sc = s.cur.sc ∧ grp t = some e ∧ MemAs s t)
          ∧ (∃ t, exec (.gbar g c o) s = .next t ∧ t.cur.sch.life = .parked ∧ t.cur.sch.park = .arrive e.entry e.phase
            ∧ t.cur.sc = s.cur.sc ∧ grp t = some e ∧ MemAs s t))
        ∧ (hasArrived s e s.cur = false → ∀ e1, grp rel = some e1 →
          (∃ t, exec (.garrive d g c o) s = .next t ∧ (∀ k, t.rdS k = if k = d ∧ d ≠ 0 then e1.phase.zeroExtend 64 else s.rdS k)
            ∧ (∀ f, grp t = some f → s.cur.id.uid ∈ f.arrived ∨ f.phase = e1.phase + 1)
            ∧ Falls s t ∧ still (noS (noSch t.cur)) = still (noS (noSch s.cur)) ∧ clean t)
          ∧ (∃ t, exec (.gbar g c o) s = .next t ∧ clean t
            ∧ ((Falls s t ∧ still (noSch t.cur) = still (noSch s.cur) ∧ gone t) ∨ waits e1 e1.phase t)))
        ∧ (phasePassed e.phase q = true → ∃ t, exec (.gwait a g c o) s = .next t ∧ Falls s t ∧ still (noSch t.cur) = still (noSch s.cur) ∧ gone t)
        ∧ (phasePassed e.phase q = false → ∃ t, exec (.gwait a g c o) s = .next t ∧ waits e q t ∧ MemAs s t)))


/-- `GroupBarriersMove` and `GroupBarriersOrder` together. -/
def Obligations.GroupBarriers : Prop := Sys2Proof.Spec.GroupBarriersMove ∧ Sys2Proof.Spec.GroupBarriersOrder

namespace Sys2Proof.Spec

/-- The Carter of the running agent's core. -/
def box (s : State) : CarterSt := s.carter s.cur.id.isl s.cur.id.core

end Sys2Proof.Spec

/-- R114, R301 to R303: CINBOX takes the oldest message of the inbox into eight registers, once its poster's earlier accesses have completed; an
empty inbox makes it wait, and 64 pending messages trap ILLEGAL_INSN. CDONE ends the oldest pending message. CWAITQ delivers the figure that k
selects. CTLADV closes an operation of a Carter timeline and delivers its number. -/
def Obligations.CarterInboxMembers : Prop :=
  ∀ (s : State) (d : BitVec 6) (tl : BitVec 2),
    let c := box s
    (64 ≤ c.pending.length → exec (.cinbox d) s = .next (takeTrap s (plainFx causeIllegal)))
    ∧ (c.pending.length < 64 → c.inbox = [] → exec (.cinbox d) s = .next (stall s))
    ∧ (∀ m r, c.pending.length < 64 → c.inbox = m :: r → posterDone s m = true → d.toNat + 8 ≤ 64 →
      ∃ t, exec (.cinbox d) s = .next t ∧ (box t).inbox = r ∧ (box t).pending = c.pending ++ [m] ∧ (box t).last = some m
        ∧ (∀ k : BitVec 6, t.rdS k =
            if k ≠ 0 ∧ d.toNat ≤ k.toNat ∧ k.toNat < d.toNat + 8 then m.words.getD (k.toNat - d.toNat) 0 else s.rdS k)
        ∧ Falls s t ∧ still (noS (noAcc t.cur)) = still (noS (noAcc s.cur)))
    ∧ (c.pending = [] → Skips s (exec .cdone s))
    ∧ (∀ m r, c.pending = m :: r → ∃ t, exec .cdone s = .next t ∧ (box t).pending = r ∧ (box t).inbox = c.inbox ∧ Falls s t ∧ MemAs s t)
    ∧ WritesS s (exec (.cwaitq d 0) s) d (BitVec.ofNat 64 c.inbox.length)
    ∧ (c.inbox ≠ [] → WritesS s (exec (.cwaitq d 1) s) d (BitVec.ofNat 64 c.inbox.length))
    ∧ (c.inbox = [] → exec (.cwaitq d 1) s = .next (stall s))
    ∧ WritesS s (exec (.cwaitq d 2) s) d ((c.last.map (fun m => m.tag)).getD 0)
    ∧ WritesS s (exec (.cwaitq d 3) s) d (BitVec.ofNat 64 c.pending.length)
    ∧ WritesS s (exec (.cwaitq d 4) s) d
        (BitVec.ofNat 64 (s.waybills.filter (fun w => w.isl = s.cur.id.isl && w.core = s.cur.id.core)).length)
    ∧ (timelinePa s s.cur.id.isl s.cur.id.ctx s.cur.id.core tl.toNat ≠ none → ∃ t, exec (.ctladv d tl) s = .next t ∧ Falls s t
      ∧ (∀ k, t.rdS k = if k = d ∧ d ≠ 0 then
          BitVec.ofNat 64 ((s.timeline s.cur.id.isl s.cur.id.ctx s.cur.id.core tl.toNat).given + 1) else s.rdS k)
      ∧ (t.timeline s.cur.id.isl s.cur.id.ctx s.cur.id.core tl.toNat).given
          = (s.timeline s.cur.id.isl s.cur.id.ctx s.cur.id.core tl.toNat).given + 1)

namespace Sys2Proof.Spec

/-- A waybill of these words starts for the running Carter: it is valid for the member, a place among the 32 is free, a stream has a FIFO
entry, and no order of remote operations holds it back (R119, R120, R299). -/
def Starts (s : State) (kinds : List Nat) (raw : List Word64) : Prop :=
  let f := parseWb raw
  wbOk s kinds f = true ∧ (s.waybills.filter (fun w => w.isl = s.cur.id.isl && w.core = s.cur.id.core)).length < 32
  ∧ (f.isStream = true → streamsOn s s.cur.id.isl s.cur.id.core (f.kind = 1) < 4) ∧ (f.remote = true → remoteGate s = true)

/-- What starting it does: the waybill is among those of the panel, as the last, and sd holds the number of its operation, or 0 without TLINC. -/
def Started (s t : State) (d : BitVec 6) (raw : List Word64) : Prop :=
  (∃ w : Waybill, t.waybills = s.waybills ++ [w] ∧ w.raw = raw ∧ w.isl = s.cur.id.isl ∧ w.core = s.cur.id.core ∧ w.ctx = s.cur.id.ctx
    ∧ w.landed = [] ∧ w.sent = [] ∧ w.fault = none)
  ∧ (∀ k, t.rdS k = if k = d ∧ d ≠ 0 then (if (parseWb raw).tlinc = 1 then
      BitVec.ofNat 64 ((s.timeline s.cur.id.isl s.cur.id.ctx s.cur.id.core (parseWb raw).tlx).given + 1) else 0) else s.rdS k)
  ∧ Falls s t ∧ still (noS (noAcc t.cur)) = still (noS (noAcc s.cur))

end Sys2Proof.Spec

/-- R119 to R121, R299, R300: CWB.R starts the waybill in its eight registers; CWB, CSTRA and CSTRB read theirs from memory first, once the Carter's
earlier accesses are complete. An invalid waybill, or one of a kind that the member does not accept, traps WAYBILL. -/
def Obligations.WaybillsStart : Prop :=
  ∀ (s : State) (d a : BitVec 6), s.cur.accessesDone = true →
    let raw := (List.range 8).map (fun i => s.cur.rdS (a.toNat + i))
    (Starts s [0, 3, 4] raw → ∃ t, exec (.cwbr d a) s = .next t ∧ Started s t d raw)
    ∧ (wbOk s [0, 3, 4] (parseWb raw) = false → exec (.cwbr d a) s = .next (takeTrap s (plainFx causeWaybill)))
    ∧ (∀ s1 pa mt kinds i, (kinds = [0, 3, 4] ∧ i = .cwbWaybill d a) ∨ (kinds = [1] ∧ i = .cstra d a) ∨ (kinds = [2] ∧ i = .cstrb d a) →
      probeGlobal s (s.rdS a).toNat 64 .read = (s1, .ok pa mt) →
      let r := gRead s1 s1.cur.mIsl s1.cur.id.core s1.cur.id.ctx (s.rdS a).toNat pa 64 (typePolicy (decide (mt = 1)))
      let words := (List.range 8).map (fun k => BitVec.ofNat 64 (leNat ((r.2.drop (8 * k)).take 8)))
      (Starts r.1 kinds words → ∃ t, exec i s = .next t ∧ Started r.1 t d words)
      ∧ (wbOk r.1 kinds (parseWb words) = false → exec i s = .next (takeTrap r.1 (plainFx causeWaybill))))

/-- R78, R143, R144, R314 to R316: MFACC and MFACCZ deliver each active lane's slot by the conversion code, MFACCZ clearing it; with the .t form c7
tells whether a conversion was out of range. MTACC writes each slot. All other slots and every other byte stay. A slot outside the
coach's CB traps UNMAPPED, with the lowest such lane's slot in XADDR. -/
def Obligations.AccumulatorMoves : Prop :=
  ∀ (s : State) (d : BitVec 7) (tt : BitVec 1) (k b : BitVec 6) (p : BitVec 3),
    let on := s.cur.active p.toNat
    let slot := fun (l : Nat) => (s.rdS b).toNat + l
    let phys := fun (l : Nat) => (cbRange s).1 + slot l
    let old := fun (l : Nat) => (s.cbSlot s.cur.id.isl s.cur.id.core (phys l)).toNat
    let ok := ∀ l, on l = true → slot l < (cbRange s).2
    let clean := ∀ l, on l = true → slotBad s s.cur.id.isl s.cur.id.core (phys l) = false
    let outside := (s.cur.activeLanes p.toNat).filter (fun l => decide ((cbRange s).2 ≤ slot l))
    let unmapped : Nat → Nat → Result := fun x l0 => .next (takeTrap s
      { cause := causeUnmapped, xaddr := BitVec.ofNat 64 (slot l0), lanes := laneMask outside, atype := x, space := 4, risl := 0 })
    (∀ l0, on l0 = true → (cbRange s).2 ≤ slot l0 → (∀ l < l0, on l = true → slot l < (cbRange s).2) →
      exec (.mfacc d tt k b p) s = unmapped 1 l0 ∧ exec (.mfaccz d tt k b p) s = unmapped 1 l0 ∧ exec (.mtacc d k b p) s = unmapped 2 l0)
    ∧ (ok → clean → ∀ z i, (z = false ∧ i = .mfacc d tt k b p) ∨ (z = true ∧ i = .mfaccz d tt k b p) →
      ∃ t, exec i s = .next t
        ∧ (∀ r l, r < 128 → l < 64 → t.cur.rdV r l = if r = d.toNat ∧ on l then (slotToLane k.toNat (old l)).1 else s.cur.rdV r l)
        ∧ (∀ c : BitVec 3, tt = 0 ∨ c ≠ 7 → t.cur.rdC c.toNat = s.cur.rdC c.toNat)
        ∧ (tt = 1 → t.cur.rdC 7 = decide (∃ l ∈ s.cur.activeLanes p.toNat, (slotToLane k.toNat (old l)).2 = true))
        ∧ (z = true → ∀ l, on l = true → t.cbSlot s.cur.id.isl s.cur.id.core (phys l) = 0)
        ∧ (∀ isl core sp x, (z = true → ∀ l, on l = true → ∀ j < 8, storeKey isl core sp x ≠ storeKey s.cur.id.isl s.cur.id.core 4 (8 * phys l + j)) →
            t.storeGet isl core sp x = s.storeGet isl core sp x)
        ∧ Falls s t ∧ still (noV (noC (noAcc t.cur))) = still (noV (noC (noAcc s.cur))) ∧ (∀ isl x, t.physGet isl x = s.physGet isl x))
    ∧ (ok → clean → ∃ t, exec (.mtacc d k b p) s = .next t
        ∧ (∀ l, on l = true → t.cbSlot s.cur.id.isl s.cur.id.core (phys l) = laneToSlot k.toNat (old l) (s.cur.rdV d.toNat l))
        ∧ (∀ isl core sp x,
            (∀ l, on l = true → ∀ j < 8, storeKey isl core sp x ≠ storeKey s.cur.id.isl s.cur.id.core 4 (8 * phys l + j)) →
            t.storeGet isl core sp x = s.storeGet isl core sp x)
        ∧ Falls s t ∧ still (noAcc t.cur) = still (noAcc s.cur) ∧ (∀ isl x, t.physGet isl x = s.physGet isl x))

/-- R149 to R151, R157, R304 to R313: MCHB with a valid shape and its slots inside the CB opens a chain in a yard with room, and waits at a full one; its
traps are CHAIN_STATE with a chain open, then SHAPE_INVALID, then UNMAPPED with the first slot outside. MMA adds a record to the open chain, whose later
records have the format and scaling of its first and do not set ov; else it traps CHAIN_STATE, and SHAPE_INVALID for a bad count. MCHE closes the chain,
which stays in the yard under the next number of the Anvil timeline and waits for its counters, or asks for heat where they have fired. Without an open
chain both trap CHAIN_STATE. MZACC clears its slots and no other byte of the stores. MCAP and MSTAT deliver the capabilities and the status. -/
def Obligations.ChainMembers : Prop :=
  ∀ (s : State) (d a b : BitVec 6) (y co sc ov : BitVec 1) (f : BitVec 5) (v : BitVec 7) (e : BitVec 2) (p : BitVec 3) (g : BitVec 2),
    let w := (s.rdS a).toNat
    let m := w % 2 ^ 16
    let n := w / 2 ^ 16 % 2 ^ 16
    let count := (s.rdS b).toNat
    let isl := s.cur.id.isl
    let core := s.cur.id.core
    let shape := shapeOk (s.maxM8 isl core) w (co = 1) = true ∧ (co = 1 → slotEntry s.cur g ≠ none)
    let room := (s.yard.filter (fun c => c.isl = isl && c.core = core)).length < 64
    (s.cur.an.chain ≠ none → exec (.mchb a b y co g) s = .next (takeTrap s (plainFx causeChainState)))
    ∧ (s.cur.an.chain = none →
      (¬ shape → exec (.mchb a b y co g) s = .next (takeTrap s (plainFx causeShape)))
      ∧ (shape → (cbRange s).2 < count + m * n → exec (.mchb a b y co g) s
          = .next (takeTrap s (addrFx causeUnmapped (BitVec.ofNat 64 (max count (cbRange s).2)) 0xFF 4)))
      ∧ (shape → count + m * n ≤ (cbRange s).2 → ¬ room → ∃ t, exec (.mchb a b y co g) s = .next t ∧ t.cur.sch.life = .parked
          ∧ t.cur.sch.park = .yard ∧ t.cur.sc.pc = s.cur.sc.pc ∧ t.yard = s.yard)
      ∧ (shape → count + m * n ≤ (cbRange s).2 → room →
        ∃ t c, exec (.mchb a b y co g) s = .next t ∧ t.yard = s.yard ++ [c] ∧ t.cur.an.chain = some c.uid ∧ c.m = m ∧ c.n = n ∧ c.k = shapeK w
          ∧ c.base = count ∧ c.mask = (s.cur.rdS (b.toNat + 1)).truncate 32 ∧ c.any = decide (y = 1)
          ∧ c.group = (if co = 1 then slotEntry s.cur g else none) ∧ c.isl = isl ∧ c.core = core ∧ c.st = .open_ ∧ c.mmas = []
          ∧ t.cur.fl.tl = s.cur.fl.tl + 1 ∧ Falls s t ∧ MemAs s t ∧ ∀ k, t.rdS k = s.rdS k))
    ∧ (openChain s = none → exec (.mma f v e b p sc ov) s = .next (takeTrap s (plainFx causeChainState))
        ∧ exec (.mche d) s = .next (takeTrap s (plainFx causeChainState)))
    ∧ (∀ c, openChain s = some c →
      let like := ∀ r ∈ c.mmas.head?, r.fmt = f.toNat ∧ r.scaled = decide (sc = 1) ∧ ov = 0
      let fits := 0 < count ∧ count ≤ 2048 ∧ (sc = 1 → c.m ≤ 4 * s.cur.id.width ∧ e.toNat + count ≤ 4)
      (¬ like → exec (.mma f v e b p sc ov) s = .next (takeTrap s (plainFx causeChainState)))
      ∧ (like → ¬ fits → exec (.mma f v e b p sc ov) s = .next (takeTrap s (plainFx causeShape)))
      ∧ (like → fits → ∃ t r, exec (.mma f v e b p sc ov) s = .next t ∧ openChain t = some { c with mmas := c.mmas ++ [r] } ∧ r.count = count
          ∧ r.fmt = f.toNat ∧ r.scaled = decide (sc = 1) ∧ r.ov = decide (ov = 1) ∧ r.width = s.cur.id.width
          ∧ r.active = laneMask (s.cur.activeLanes p.toNat)
          ∧ (sc = 1 → ∀ j < count, ∀ i < c.m,
              ((r.scales.getD j []).getD i 0) = s.cur.rdV (v.toNat + 4 * (e.toNat + j) + i / s.cur.id.width) (i % s.cur.id.width))
          ∧ (∀ x ∈ s.yard, x.uid ≠ c.uid → x ∈ t.yard) ∧ Falls s t ∧ Frame id { s with yard := t.yard } t)
      ∧ (∃ (t : State) (x : Chain), exec (.mche d) s = .next t ∧ t.cur.an.chain = none ∧ Falls s t
        ∧ t.chain? c.uid = some { c with num := (s.timeline isl s.cur.id.ctx core 4).given + 1, mche := x.mche, st := x.st }
        ∧ (maskFired s isl core c.mask = false → x.st = .waiting)
        ∧ (c.isl = isl → c.core = core → maskFired s isl core c.mask = true → x.st = .wantsHeat ∧ Event.heatGrant isl ∈ t.due)
        ∧ (∀ z ∈ s.yard, z.uid ≠ c.uid → z.st ≠ .waiting → z ∈ t.yard)
        ∧ (∀ k, t.rdS k = if k = d ∧ d ≠ 0 then BitVec.ofNat 64 ((s.timeline isl s.cur.id.ctx core 4).given + 1) else s.rdS k)
        ∧ MemAs s t))
    ∧ (count = 0 ∨ w + count ≤ (cbRange s).2 → ∃ t, exec (.mzacc a b) s = .next t ∧ Falls s t ∧ still (noAcc t.cur) = still (noAcc s.cur)
      ∧ (∀ k < count, t.cbSlot isl core ((cbRange s).1 + w + k) = 0)
      ∧ (∀ isl' core' sp x, (∀ k < count, ∀ j < 8, storeKey isl' core' sp x ≠ storeKey isl core 4 (8 * ((cbRange s).1 + w + k) + j)) →
          t.storeGet isl' core' sp x = s.storeGet isl' core' sp x)
      ∧ (∀ isl x, t.physGet isl x = s.physGet isl x))
    ∧ WritesS s (exec (.mcap d) s) d (BitVec.ofNat 64 (32 * 2 ^ 16 + 32 * 2 ^ 8 + s.maxM8 isl core))
    ∧ WritesS s (exec (.mstat d 0) s) d (s.cur.an.mstat.zeroExtend 64)
    ∧ (∃ t, exec (.mstat d 1) s = .next t ∧ t.cur.an.mstat = 0 ∧ Falls s t
      ∧ ∀ k, t.rdS k = if k = d ∧ d ≠ 0 then s.cur.an.mstat.zeroExtend 64 else s.rdS k)


namespace Sys2Proof.Spec

/-- The instruction completes and control goes to a; the loops are ls, the attached hints are used up, and nothing else changes but what is
forgotten. -/
def GoesTo (forget : Thread → Thread) (s : State) (r : Result) (a : Word64) (ls : List Loop) : Prop :=
  ∃ t, r = .next t ∧ t.cur.sc.pc = a ∧ t.cur.sc.loops = ls ∧ t.cur.sc.hints = Hints.none ∧ Frame forget s t

/-- The instruction completes, control goes to a, and scalar register 62 holds the address of the next word. -/
def Calls (s : State) (r : Result) (a : Word64) : Prop :=
  GoesTo noS s r a s.cur.sc.loops ∧ ∀ t, r = .next t → ∀ k, t.rdS k = if k = 62 then s.cur.sc.pc + 4 else s.rdS k

end Sys2Proof.Spec

/-- R50, R227 to R229: BR is taken when its condition differs from neg, and a taken BR or a JMPR ends each loop whose body does not hold the target.
CALL, CALLR and RET leave the loops; s62 is the link. JMPR, CALLR and RET to an address that is no multiple of 4 trap MISALIGN with it
in XADDR. -/
def Obligations.BranchesAndCalls : Prop :=
  ∀ (s : State) (c : BitVec 3) (n : BitVec 1) (o : BitVec 22) (o' : BitVec 26) (a : BitVec 6),
    let pc := s.cur.sc.pc
    let near := pc + BitVec.ofInt 64 (4 * o.toInt)
    let x := s.rdS a
    let bad := fun y : Word64 => Host.Outcome.next (takeTrap s (addrFx causeMisalign y 0xFF 0xFF))
    (s.cur.rdC c.toNat ≠ decide (n = 1) → GoesTo id s (exec (.br c n o) s) near (loopsAfterBranch near s.cur.sc.loops))
    ∧ (s.cur.rdC c.toNat = decide (n = 1) → Skips s (exec (.br c n o) s))
    ∧ Calls s (exec (.call o') s) (pc + BitVec.ofInt 64 (4 * o'.toInt))
    ∧ (x.toNat % 4 = 0 → GoesTo id s (exec (.jmpr a) s) x (loopsAfterBranch x s.cur.sc.loops) ∧ Calls s (exec (.callr a) s) x)
    ∧ (x.toNat % 4 ≠ 0 → exec (.jmpr a) s = bad x ∧ exec (.callr a) s = bad x)
    ∧ ((s.rdS 62).toNat % 4 = 0 → GoesTo id s (exec .ret s) (s.rdS 62) s.cur.sc.loops)
    ∧ ((s.rdS 62).toNat % 4 ≠ 0 → exec .ret s = bad (s.rdS 62))

/-- R49, R50, R230 to R232: LOOPH and LOOPHI open a loop on the lowest counter that is not in use, with a body of the len words that follow; a count
of 0 skips the body, and with three loops open they trap LOOP_DEPTH. At the last word of the innermost body a count above 1 falls and
the body repeats, else the loop is freed. LBRK frees the innermost loop and goes on after its body, or does nothing. -/
def Obligations.HardwareLoops : Prop :=
  ∀ (s : State) (a : BitVec 6) (n : BitVec 16) (l : BitVec 8),
    let pc := s.cur.sc.pc
    let last := pc + 4 + BitVec.ofNat 64 (4 * l.toNat)
    (∀ i (w : BitVec 32), (i = .looph a l ∧ w = (s.rdS a).truncate 32) ∨ (i = .loophi n l ∧ w = n.zeroExtend 32) →
      (∀ lc < 3, (∀ k < lc, ∃ x ∈ s.cur.sc.loops, x.lc = k) → (∀ x ∈ s.cur.sc.loops, x.lc ≠ lc) →
        (w = 0 → GoesTo id s (exec i s) (last + 4) s.cur.sc.loops)
        ∧ (w ≠ 0 → (∀ x ∈ s.cur.sc.loops, x.last ≠ pc) →
          GoesTo id s (exec i s) (pc + 4) ({ lc := lc, count := w, len := l.toNat + 1, last := last } :: s.cur.sc.loops)))
      ∧ ((∀ k < 3, ∃ x ∈ s.cur.sc.loops, x.lc = k) → exec i s = .next (takeTrap s (plainFx causeLoopDepth))))
    ∧ (s.cur.sc.loops = [] → Skips s (exec .lbrk s))
    ∧ (∀ x r, s.cur.sc.loops = x :: r →
      GoesTo id s (exec .lbrk s) (x.last + 4) r
      ∧ (x.last = pc → 1 < x.count.toNat → GoesTo id s (exec .nop s) (x.last - BitVec.ofNat 64 (4 * (x.len - 1))) ({ x with count := x.count - 1 } :: r))
      ∧ (x.last = pc → x.count.toNat ≤ 1 → (∀ y ∈ r, y.last ≠ pc) → GoesTo id s (exec .nop s) (pc + 4) r))


namespace Sys2Proof.Spec

/-- The operations that a remote member sent: the frames fs joined those on their way and a step is owed for each; rm rose by 1, and the
operation has as many parts (R167, R275). -/
def Sent (s t : State) (fs : List Machine.Frame) : Prop :=
  t.frames = s.frames ++ fs ∧ (∀ f ∈ fs, Event.frameReceive f.uid ∈ t.due ∧ f.phase = 0 ∧ f.wb = none ∧ f.agent = s.cur.id.uid)
  ∧ t.cur.fl.rm = s.cur.fl.rm + 1 ∧ (∃ id, (∀ f ∈ fs, f.op = id ∧ f.seq = id) ∧ t.cur.fl.ops = s.cur.fl.ops ++ [{ id := id, cls := .rm, left := fs.length }])
  ∧ Falls s t ∧ still (noFlow t.cur) = still (noFlow s.cur) ∧ MemAs s t

/-- What a frame asks of its target: kind, bytes, panel, island, address, lane, register and order. -/
def asks (f : Machine.Frame) : Nat × Nat × Nat × Nat × Word64 × Nat × Nat × Bool := (f.kind, f.size, f.panel, f.tgt, f.va, f.lane, f.dst, f.ord)

end Sys2Proof.Spec

/-- R162, R163, R318 to R321: RLD and RST send one operation for each active lane, to the island that the lane's word names and the address that its
register gives; RLD's registers wait for the replies, RST carries the lane's element. A lane that fails its checks traps, with none sent;
with no active lane they do nothing. -/
def Sys2Proof.Spec.RemoteLanes : Prop :=
  ∀ (s : State) (d : BitVec 7) (a : BitVec 6) (o : BitVec 1) (b : BitVec 6) (p : BitVec 3) (z : BitVec 3) (ld st : Instr),
    (z = 2 ∧ ld = .rldW d a o b p ∧ st = .rstW d a o b p) ∨ (z = 3 ∧ ld = .rldD d a o b p ∧ st = .rstD d a o b p)
      ∨ (z = 4 ∧ ld = .rldQ d a o b p ∧ st = .rstQ d a o b p) →
    let va := laneAddr s (pairReg a) b
    let word := fun (l : Nat) => (s.cur.rdV (2 * a.toNat + 1) l).toNat
    let n := elemBytes z
    let ls := s.cur.activeLanes p.toNat
    let asked := fun (kind : Nat) => ls.map (fun l => (kind, n, word l / 256 % 256, word l % 256, BitVec.ofNat 64 (va l), 4 * s.cur.id.hitch + l,
      d.toNat, decide (o = 1)))
    (ls = [] → Skips s (exec ld s) ∧ Skips s (exec st s))
    ∧ (ls ≠ [] → remoteGate s = true →
      ((∀ l ∈ ls, islandWordOk s s.cur.mIsl s.cur.id.ctx (word l) = true ∧ va l % n = 0 ∧ va l + n ≤ 2 ^ 64
          ∧ (s.cur.id.ctx = 0 → ctrlHit (va l) = true → n = 8)) →
        (∃ t fs, exec ld s = .next t ∧ Sent s t fs ∧ fs.map asks = asked 0 ∧ (∀ i < elemRegs z, d.toNat + i ∈ t.cur.fl.pendV))
        ∧ (∃ t fs, exec st s = .next t ∧ Sent s t fs ∧ fs.map asks = asked 1 ∧ fs.map (fun f => f.data) = ls.map (s.cur.rdElem d.toNat z)))
      ∧ (∀ c x m, pickCause (ls.map (fun l => (l, probeRemote s (word l) (va l) n))) = some (c, x, m) →
        exec ld s = .next (takeTrap s { cause := c, xaddr := x, lanes := m, atype := 4, space := 5, risl := word (lowLane m) % 2 ^ 16 })
        ∧ exec st s = .next (takeTrap s { cause := c, xaddr := x, lanes := m, atype := 5, space := 5, risl := word (lowLane m) % 2 ^ 16 })))
    ∧ (ls ≠ [] → remoteGate s = false → exec ld s = .next (stall s) ∧ exec st s = .next (stall s))

/-- R322 to R324: RATOM and RNOTIFY send one operation of 8 bytes to the word named by an even pair; RATOM's register waits for the old value.
RFENCE makes the agent's later remote operations wait for its earlier ones, and changes nothing else. -/
def Sys2Proof.Spec.RemoteWords : Prop :=
  ∀ (s : State) (o : BitVec 4) (r : BitVec 2) (d a b : BitVec 6) (q e : BitVec 1),
    let va := (s.rdS a).toNat
    let word := (s.cur.rdS (a.toNat + 1)).toNat
    let asked := fun (kind dst : Nat) (ord : Bool) => (kind, 8, word / 256 % 256, word % 256, BitVec.ofNat 64 va, 0, dst, ord)
    (remoteGate s = true → probeRemote s word va 8 = .ok va 0 →
      (∃ t f, exec (.ratom o r d a b) s = .next t ∧ Sent s t [f] ∧ asks f = asked 2 d.toNat false ∧ f.aop = o.toNat ∧ f.cmp = s.rdS d
        ∧ f.data = leBytes 8 (s.rdS b).toNat ∧ f.rel = hasRel r ∧ f.acq = hasAcq r ∧ d.toNat ∈ t.cur.fl.pendS)
      ∧ (∃ t f, exec (.rnotify a b q e) s = .next t ∧ Sent s t [f] ∧ asks f = asked 3 0 (decide (q = 1)) ∧ f.rel = decide (e = 1)
        ∧ f.acq = false ∧ f.data = leBytes 8 (s.rdS b).toNat))
    ∧ (∀ c x, remoteGate s = true → probeRemote s word va 8 = .bad c x → ∀ i, i = .ratom o r d a b ∨ i = .rnotify a b q e →
      exec i s = .next (takeTrap s { cause := c, xaddr := x, lanes := 0, atype := 6, space := 5, risl := word % 2 ^ 16 }))
    ∧ (remoteGate s = false → exec (.ratom o r d a b) s = .next (stall s) ∧ exec (.rnotify a b q e) s = .next (stall s))
    ∧ (∃ t, exec .rfence s = .next t ∧ t.cur.fl = { s.cur.fl with rfence := s.fresh } ∧ Falls s t ∧ Frame noFlow s t)

/-- `RemoteWords` and `RemoteLanes` together. -/
def Obligations.RemoteWordsAndLanes : Prop := Sys2Proof.Spec.RemoteWords ∧ Sys2Proof.Spec.RemoteLanes

/-- R173, R174, R282, R325 to R327: once the agent's accesses are complete TREADY has the dirty bytes of the agent's context at the L2, and the lines
clean. It then writes 1 to the ready word of entry sa and fires the entry: sd is 0; or 1 where the entry's key is live, after the write, which stays
(log 28); 2 where the entry is firing, 3 beyond the table, with nothing written. CLQRY and TOPO deliver a figure of an entry and an island's view word. -/
def Obligations.CollectiveMembers : Prop :=
  ∀ (s : State) (d a k : BitVec 6),
    let i := (s.rdS a).toNat
    let id := s.cur.id
    let isl := s.cur.mIsl
    let own := ownLine isl id.core id.ctx
    let s1 := releaseAll s isl id.core id.ctx scopeI
    let gives := fun (x : Word64) (t : State) => exec (.tready d a) s = .next t ∧ (∀ k, t.rdS k = if k = d ∧ d ≠ 0 then x else s.rdS k)
      ∧ Falls s t ∧ still (noS (noAcc t.cur)) = still (noS (noAcc s.cur)) ∧ ∀ l ∈ t.l1, own l = true → l.dirty = 0
    (s.cur.accessesDone = false → exec (.tready d a) s = .next (stall s))
    ∧ (s.cur.accessesDone = true → KeysHeld s → 4095 < i → ∃ t, gives 3 t ∧ ReachedL2 s t own (fun _ => False))
    ∧ (s.cur.accessesDone = true → KeysHeld s → i ≤ 4095 → (s1.firing? id.isl id.ctx i).isSome = true →
      ∃ t, gives 2 t ∧ ReachedL2 s t own (fun _ => False))
    ∧ (∀ s2 pa mt bs, s.cur.accessesDone = true → KeysHeld s → i ≤ 4095 → s1.firing? id.isl id.ctx i = none →
      probeGlobal s1 (readyVa s1 id.isl id.ctx i).toNat 8 .write = (s2, .ok pa mt) →
      let put := l2Base (l2Used (dropLine s2 isl id.core (pa / 128)) isl id.ctx 8) id.isl (cellsFrom pa (leBytes 8 1))
      let s3 := entryRead put id.isl id.ctx i
      entryBytes s3 id.isl id.ctx i = some bs → entryBad s3 id.isl id.ctx i = false →
      (∀ e, leafOf put id.isl id.ctx (entryVa put id.isl id.ctx i).toNat = some e → e.1 + 1 < pa ∨ pa + 8 ≤ e.1) →
      let written := fun (t : State) => t.physNat id.isl pa 8 = 1 ∧ (∀ isl' k, t.physGet isl' k = s3.physGet isl' k)
        ∧ ReachedL2 s t own (fun k => s1.physGet isl k ≠ s3.physGet isl k)
      (keyLive s3 id.isl id.ctx (parseTile bs) 0 = true → ∃ t, gives 1 t ∧ written t ∧ t.firing? id.isl id.ctx i = none)
      ∧ (keyLive s3 id.isl id.ctx (parseTile bs) 0 = false → tileOk s3 id.isl id.ctx (parseTile bs) = true →
        ∃ t g, gives 0 t ∧ written t ∧ t.firing? id.isl id.ctx i = some g ∧ g.st = 1 ∧ g.size = (parseTile bs).size ∧ g.tag = (parseTile bs).tag
          ∧ g.peers = tilePeers s3 id.ctx (parseTile bs)))
    ∧ (4095 < i → WritesS s (exec (.clqry d a k) s) d (BitVec.allOnes 64))
    ∧ (i ≤ 4095 → WritesS s (exec (.clqry d a k) s) d (BitVec.ofNat 64 (clFigure s id.isl id.ctx i k.toNat)))
    ∧ WritesS s (exec (.topo d a) s) d (viewWord s s.cur (i % 256))


namespace Sys2Proof.Spec

/-- The instruction completes, and the agent becomes u but for what the end of every instruction moves; nothing else changes. -/
def Becomes (s : State) (r : Result) (u : Thread) : Prop := ∃ t, r = .next t ∧ Falls s t ∧ SameRest s t ∧ still t.cur = still u

/-- The special registers that a team reads (R332). -/
def teamSrs (s : State) : List (Nat × Word64) :=
  let t := s.cur
  let n := fun (x : Nat) => BitVec.ofNat 64 x
  [(0, 0x100), (1, n t.id.team), (2, n t.subt), (3, n t.id.width), (4, n (t.id.team / t.id.coachSz)), (5, n t.id.core), (6, n (t.id.core / 64)),
   (7, n t.id.isl), (8, n Config.nisl), (9, n Config.panel), (10, t.id.taskId.zeroExtend 64), (11, n t.id.ctx), (13, n t.sch.effLease),
   (16, t.sc.rmode.zeroExtend 64), (17, t.sc.fpte.zeroExtend 64), (18, n (s.cycle / 16)), (20, ((s.ctx? t.id.isl t.id.ctx).map (fun c => c.tba)).getD 0),
   (21, t.tr.xpc), (22, t.tr.xcause), (23, t.tr.xaddr), (24, t.tr.xlanes), (25, t.tr.xinsn), (26, t.tr.xrec)]

end Sys2Proof.Spec

/-- R331, R332: MFSR delivers a special register. MTSR writes RMODE, FPTE and the trap registers XPC to XINSN; it traps PRIV at TBA, and ILLEGAL_INSN at a
register that is read-only, as RMODE and FPTE are for the Carter. -/
def Sys2Proof.Spec.SpecialRegisters : Prop :=
  ∀ (s : State) (d a r : BitVec 6),
    let x := s.rdS a
    let u := s.cur
    WritesS s (exec (.mfsr d r) s) d (readSr s r.toNat)
    ∧ (u.id.kind = .team → ∀ q ∈ teamSrs s, r.toNat = q.1 → WritesS s (exec (.mfsr d r) s) d q.2)
    ∧ (u.id.kind ≠ .carter → Becomes s (exec (.mtsr a 16) s) { u with sc := { u.sc with rmode := x.truncate 2 } }
        ∧ Becomes s (exec (.mtsr a 17) s) { u with sc := { u.sc with fpte := x.truncate 5 } })
    ∧ Becomes s (exec (.mtsr a 21) s) { u with tr := { u.tr with xpc := x, xpcWritten := u.tr.handler } }
    ∧ Becomes s (exec (.mtsr a 22) s) { u with tr := { u.tr with xcause := x } }
    ∧ Becomes s (exec (.mtsr a 23) s) { u with tr := { u.tr with xaddr := x } }
    ∧ Becomes s (exec (.mtsr a 24) s) { u with tr := { u.tr with xlanes := x } }
    ∧ Becomes s (exec (.mtsr a 25) s) { u with tr := { u.tr with xinsn := x } }
    ∧ exec (.mtsr a 20) s = .next (takeTrap s (plainFx causePriv))
    ∧ (r.toNat ≤ 15 ∨ r = 18 ∨ r = 19 ∨ r = 26 ∨ (u.id.kind = .carter ∧ (r = 16 ∨ r = 17)) →
        exec (.mtsr a r) s = .next (takeTrap s (plainFx causeIllegal)))

/-- R220, R334 to R338: a hint word attaches its payload to the next instruction beside those attached before it, and changes nothing else; HNOP and the
kinds 4 to 15 attach nothing. -/
def Sys2Proof.Spec.HintWords : Prop :=
  ∀ (s : State) (p : BitVec 22) (c : BitVec 4) (q r : BitVec 3) (x : BitVec 10) (n : BitVec 8) (i : Instr) (h : Hints),
    (∀ l ∈ s.cur.sc.loops, l.last ≠ s.cur.sc.pc) →
    (i = .himm p ∧ h = { s.cur.sc.hints with himm := some p }) ∨ (i = .hmod c q r ∧ h = { s.cur.sc.hints with hmod := some (c ++ q ++ r) })
      ∨ (i = .hsched x c n ∧ h = { s.cur.sc.hints with hsched := some (c ++ n) }) ∨ (i = .hnop p ∧ h = s.cur.sc.hints)
      ∨ (i = .hintKindNoop c p ∧ h = s.cur.sc.hints) →
    ∃ t, exec i s = .next t ∧ t.cur.sc.hints = h ∧ t.cur.sc.pc = s.cur.sc.pc + 4 ∧ t.cur.sc.loops = s.cur.sc.loops ∧ Frame id s t

/-- `SpecialRegisters` and `HintWords` together. -/
def Obligations.SpecialRegistersAndHints : Prop := Sys2Proof.Spec.SpecialRegisters ∧ Sys2Proof.Spec.HintWords

namespace Sys2Proof.Spec

/-- The fault ring of a team's context translates: its header lies at h, on a line that is not known to be bad, and its next record at pa, apart from the
header (R184, R387, R413). -/
def RingOk (s : State) (c : CtxIsl) (h pa : Nat) : Prop :=
  s.ctx? s.cur.id.isl s.cur.id.ctx = some c ∧ peek s s.cur.id.isl s.cur.id.ctx c.frbase.toNat = some h
  ∧ peek s s.cur.id.isl s.cur.id.ctx (c.frbase.toNat + 64 + 64 * (s.physNat s.cur.id.isl h 8 % 2 ^ c.frlog2)) = some pa
  ∧ lineBad s s.cur.id.isl (h / 128) = false ∧ (h + 8 ≤ pa ∨ pa + 64 ≤ h) ∧ pa + 64 ≤ 2 ^ 48 ∧ h + 8 ≤ 2 ^ 48 ∧ s.cur.id.isl ≠ hubIsl

/-- A record is in the ring: its 64 bytes in the next slot, WCOUNT raised, and no other byte changed but for the A and D bits of the two pages. -/
def Recorded (s : State) (c : CtxIsl) (h pa : Nat) (r : FaultRec) (t : State) : Prop :=
  let isl := s.cur.id.isl
  let w := s.physNat isl h 8
  let s0 := markAD (markAD s isl s.cur.id.ctx c.frbase.toNat true) isl s.cur.id.ctx (c.frbase.toNat + 64 + 64 * (w % 2 ^ c.frlog2)) true
  (∀ i < 64, some (t.physGet isl (pa + i)) = ((r.words (decide (2 ^ c.frlog2 ≤ w)) (r.time.getD s.time)).flatMap (leBytes 8))[i]?)
  ∧ t.physNat isl h 8 = (w + 1) % 2 ^ 64
  ∧ ∀ j k, ¬ inBytes isl pa 64 j k → ¬ inBytes isl h 8 j k → k < 2 ^ 48 → t.physGet j k = s0.physGet j k

end Sys2Proof.Spec

/-- R181, R182, R184: a trap of a team with a handler enters it: the trap registers hold the record's fields, depth counters and hints are saved and
cleared, the PC slots saved, the pc is TBA, no other register changes, and the record is in the ring. TRAP and BRK take theirs so. -/
def Obligations.TeamsEnterTheirHandler : Prop :=
  ∀ (s : State) (x : Fx) (c : CtxIsl) (h pa : Nat) (n : BitVec 6),
    exec (.trap n) s = .next (takeTrap s (plainFx causeTrap)) ∧ exec (.brk n) s = .next (takeTrap s (plainFx causeBrk))
    ∧ (s.cur.id.kind = .team → s.cur.tr.handler = false → RingOk s c h pa → c.tba ≠ 0 → KeysHeld s →
      let t := takeTrap s x
      let w := s.physNat s.cur.id.isl h 8
      let r := recOf s.cur x (causeClass x.cause) 0 s.cur.sc.pc s.cur.sc.insn
      let lost := decide (2 ^ c.frlog2 ≤ w)
      t.cur.tr.handler = true ∧ t.cur.tr.xpc = s.cur.sc.pc ∧ t.cur.tr.xcause = BitVec.ofNat 64 (r.word0 lost) ∧ t.cur.tr.xaddr = x.xaddr
      ∧ t.cur.tr.xlanes = x.lanes ∧ t.cur.tr.xinsn = s.cur.sc.insn.zeroExtend 64
      ∧ t.cur.tr.xrec = BitVec.ofNat 64 (c.frbase.toNat + 64 + 64 * (w % 2 ^ c.frlog2))
      ∧ t.cur.tr.savedDc = s.cur.ln.dc ∧ (∀ l, t.cur.rdDc l = 0) ∧ t.cur.sc.pc = c.tba ∧ t.cur.sc.hints = Hints.none
      ∧ t.cur.tr.savedHints = s.cur.sc.hints ∧ t.cur.sc.loops = s.cur.sc.loops
      ∧ t.cur.tr.savedPc1 = s.cur.sc.pc1 ∧ t.cur.tr.savedSl = s.cur.sl ∧ t.cur.sl = Slots.none
      ∧ (∀ k, t.rdS k = s.rdS k) ∧ (∀ k, t.cur.rdC k = s.cur.rdC k) ∧ (∀ k l, t.cur.rdV k l = s.cur.rdV k l)
      ∧ (∀ k l, t.cur.rdP k l = s.cur.rdP k l) ∧ (∀ l, t.cur.rdFlags l = s.cur.rdFlags l)
      ∧ Recorded s c h pa r t)

/-- R183, R184, R187, R188, R380: a team without a handler records its trap, with NOH, and its launch ends with the cause; a team that traps in its
handler records DOUBLE_FAULT with both causes, and its launch, or in report-only mode its context, ends; the record is in the ring. Where the ring does not
translate, or its count lies on a line known to be bad (log 40), the context ends with REGION_LOST and no handler is entered. A hub core
stops at the instruction, with the cause, its pc and its address in its control words. -/
def Obligations.TrapsWithoutAHandler : Prop :=
  ∀ (s : State) (x : Fx) (c : CtxIsl) (h pa : Nat),
    let t := takeTrap s x
    let id := s.cur.id
    let both : Word32 := BitVec.ofNat 32 (x.cause.toNat + s.cur.tr.cause.toNat * 2 ^ 16)
    let noh := recOf s.cur x (causeClass x.cause) flNoh s.cur.sc.pc s.cur.sc.insn
    let double := fun (fl : Nat) => recOf s.cur { x with cause := causeDouble } 4 fl s.cur.sc.pc both
    (id.kind = .team →
      (s.cur.tr.handler = false → handlerOf s s.cur ≠ 0 → ringOk s id.isl id.ctx = false → t = regionLost s id.isl id.ctx)
      ∧ (s.cur.tr.handler = false → handlerOf s s.cur = 0 → t = killLaunch (writeFault s id.isl id.ctx noh).1 id.launch x.cause id.isl)
      ∧ (s.cur.tr.handler = true → s.cur.tr.report = false →
          t = killLaunch (writeFault s id.isl id.ctx (double 0)).1 id.launch causeDouble id.isl)
      ∧ (s.cur.tr.handler = true → s.cur.tr.report = true →
          t = endContext (writeFault s id.isl id.ctx (double flRom)).1 id.ctx s.cur.tr.cause id.isl)
      ∧ ((s.cur.tr.handler = false ∧ handlerOf s s.cur = 0) ∨ (s.cur.tr.handler = true ∧ s.cur.tr.report = false) →
        ∀ y ∈ t.threads, y.id.kind = .team → y.id.launch = id.launch → y.sch.life = .ended)
      ∧ (RingOk s c h pa → KeysHeld s → ∀ r, r = noh ∨ r = double 0 ∨ r = double flRom → Recorded s c h pa r (writeFault s id.isl id.ctx r).1))
    ∧ (s.cur.id.kind = .hub → t.cur.sch.life = .trapStopped ∧ t.cur.sc = s.cur.sc ∧ t.cur.ln = s.cur.ln
        ∧ (∀ q ∈ t.panel.hubs, q.hub = s.cur.id.core → q.cause = x.cause ∧ q.fault = true ∧ q.xpc = s.cur.sc.pc ∧ q.xaddr = x.xaddr)
        ∧ (∀ q ∈ s.panel.hubs, q.hub ≠ s.cur.id.core → q ∈ t.panel.hubs) ∧ MemAs s t)

/-- R185, R186, R188, R329: outside handler mode TRET, TSKIP and TKILL trap ILLEGAL_INSN. In a team's handler TRET resumes at XPC, or at the
instruction that took a deferred trap, TSKIP at the word after XPC; the saved depth counters and PC slots return. TKILL ends the launch. NOP does
nothing. -/
def Obligations.LeavingTheHandler : Prop :=
  ∀ (s : State),
    let u := s.cur
    let back := fun (i : Instr) (a : Word64) (h : Hints) (x : Slots) => ∃ t, exec i s = .next t ∧ t.cur.sc.pc = a ∧ t.cur.sc.hints = h ∧ SameRest s t
      ∧ t.cur.tr.handler = false ∧ t.cur.ln = { u.ln with dc := u.tr.savedDc } ∧ t.cur.sc.pc1 = u.tr.savedPc1 ∧ t.cur.sl = x
      ∧ { t.cur.sc with pc := 0, pc1 := none, hints := Hints.none } = { u.sc with pc := 0, pc1 := none, hints := Hints.none }
      ∧ t.cur.tr.xpc = u.tr.xpc ∧ t.cur.fl = u.fl ∧ t.cur.an = u.an
    (u.tr.handler = false → ∀ i, i = .tret ∨ i = .tskip ∨ i = .tkill → exec i s = .next (takeTrap s (plainFx causeIllegal)))
    ∧ (u.tr.handler = true → u.id.kind = .team → u.tr.report = false →
      (u.tr.resume = none → back .tskip (u.tr.xpc + 4) Hints.none u.tr.savedSl.skipped
        ∧ back .tret u.tr.xpc (if u.tr.xpcWritten then Hints.none else u.tr.savedHints) u.tr.savedSl)
      ∧ (∀ a, u.tr.resume = some a → u.tr.xpcWritten = false → back .tret a u.tr.savedHints u.tr.savedSl ∧ back .tskip a Hints.none u.tr.savedSl)
      ∧ ∃ t, exec .tkill s = .next t ∧ (∀ y ∈ t.threads, y.id.kind = .team → y.id.launch = u.id.launch → y.sch.life = .ended)
        ∧ (∀ c ∈ t.carters, ∀ m ∈ c.inbox, m.launch = u.id.launch → m.poster = 0))
    ∧ Skips s (exec .nop s)

/-- R330, R380: HALT stops a hub core at its next instruction boundary, with its registers as they stand. That its pc stays at the HALT is the model's
reading (DEDUCED, log 29). A team or a Carter that executes HALT traps PRIV. -/
def Obligations.HaltStopsAHubCore : Prop :=
  ∀ s : State,
    (s.cur.id.kind = .hub → ∃ t, exec .halt s = .next t ∧ t.cur.sch.life = .halted ∧ t.cur.runnable = false
        ∧ (∀ q ∈ t.panel.hubs, q.hub = s.cur.id.core → q.halted = true) ∧ t.cur.sc = { s.cur.sc with hints := Hints.none } ∧ t.cur.ln = s.cur.ln
        ∧ (∀ k, t.rdS k = s.rdS k) ∧ t.others = s.others ∧ MemAs s t)
    ∧ (s.cur.id.kind = .team ∨ s.cur.id.kind = .carter → exec .halt s = .next (takeTrap s (plainFx causePriv)))

/-- R338: HNOP has no effect, whatever its payload from 0 to 2^22 − 1 holds, and `hnop 0` is the word 0xFCC00000; kinds 4 to 15 behave as R220 states, as
no-ops that leave the instruction that follows as it is. -/
def Obligations.HnopHasNoEffect : Prop :=
  ∀ (s : State) (n : BitVec 22) (k : BitVec 4), (∀ l ∈ s.cur.sc.loops, l.last ≠ s.cur.sc.pc) →
    decodeWord (0xFCC00000 + n.toNat) = .ok (.hnop n)
    ∧ (4 ≤ k.toNat → decodeWord (0xFC000000 + k.toNat * 2 ^ 22 + n.toNat) = .ok (.hintKindNoop k n))
    ∧ ∀ i, i = .hnop n ∨ i = .hintKindNoop k n →
      ∃ t, exec i s = .next t ∧ t.cur.sc = { s.cur.sc with pc := s.cur.sc.pc + 4 } ∧ Frame id s t


namespace Sys2Proof.Spec

/-- The step answers a next state, of which P holds. -/
def Reaches (s : State) (i : Instr) (P : State → Prop) : Prop := ∃ t, exec i s = .next t ∧ P t

/-- An island accepts the record r of a push from its memory; where the queue's cached entries are taken, its region has a place for it (R21, R57,
R58). -/
def Accepts (s : State) (p : Push) (c : CtxIsl) (r : TaskRec) : Prop :=
  s.ctx? p.isl p.ctx = some c ∧ c.suspended = false ∧ readRec s p.isl p.ctx p.addr = .ok r ∧ recOk s p.isl p.ctx r = true
  ∧ queueAccepts s c r = true ∧ (∀ n, newPlace s c r = some n → (peek s c.isl c.ctx (queueVa c r n)).isSome = true)

/-- The task that an accepted push brings: it joins the island's tasks with the next stamp, and the dispatcher looks; an entry beyond the cached ones
lies in the queue's region (R57, R58). That it lies there as the 64 bytes of its record, at the lowest free place of its queue's part, is the model's
choice (DESIGN CHOICE, log 12). -/
def Queued (s t : State) (p : Push) (c : CtxIsl) (r : TaskRec) : Prop :=
  (∃ k : Task, t.tasks = s.tasks ++ [k] ∧ k.record = r ∧ k.isl = p.isl ∧ k.ctx = p.ctx ∧ k.launch = p.launch ∧ k.recIdx = p.recIdx
    ∧ k.stamp = (s.island p.isl).enqueue ∧ k.spot = newPlace s c r ∧ k.placed = 0 ∧ k.exited = [])
  ∧ (t.island p.isl).enqueue = (s.island p.isl).enqueue + 1 ∧ Event.coachPlacement p.isl ∈ t.due
  ∧ MemAs (spillRecord (recUsed s p.isl p.ctx p.addr) c r (newPlace s c r) (rawRec s p.isl p.ctx p.addr)) t
  ∧ ∀ n pa, newPlace s c r = some n → peek (recUsed s p.isl p.ctx p.addr) c.isl c.ctx (queueVa c r n) = some pa →
      KeysHeld s → c.isl ≠ hubIsl → pa + 64 ≤ 2 ^ 48 → t.physBytes c.isl pa 64 = rawRec s p.isl p.ctx p.addr

/-- Every task with a handle is as a property says, and there is one. -/
def TaskIs (t : State) (u : Nat) (P : Task → Prop) : Prop := ∃ k, t.task? u = some k ∧ P k

end Sys2Proof.Spec

/-- R21, R24, R29, R33, R57, R58, R130: a waiting counter message joins its Carter's inbox; a push that its island accepts queues a task, and leaves the
pushes or its core's launch queue; a task all of whose teams have exited writes its context's lines back and decrements its join word by 1,
after which it is done. The bytes of a spilled entry and their place are the model's choice (log 12). -/
def Obligations.MessagesPushesAndJoins : Prop :=
  (∀ (s : State) (isl core : Nat) (xs ys : List WaitMsg) (w : WaitMsg), s.ev = .counterCarterMessage isl core → s.waitMsgs = xs ++ w :: ys →
    (∀ x ∈ xs, ¬ (x.isl = isl ∧ x.core = core)) → w.isl = isl → w.core = core → (s.carter isl core).inbox.length < 64 →
    Reaches s .counterCarterMessage (fun t => t.waitMsgs = xs ++ ys ∧ t.carter isl core = { s.carter isl core with
      inbox := (s.carter isl core).inbox ++ [w.msg] } ∧ t.cur = s.cur ∧ t.others = s.others ∧ MemAs s t))
  ∧ (∀ (s : State) (u : Nat) (p : Push) (c : CtxIsl) (r : TaskRec) (i : Instr),
    (s.ev = .islandTaskPush u ∧ i = .islandTaskPush) ∨ (s.ev = .successorPush u ∧ i = .successorPush) → s.push? u = some p →
    pushBehind s p = false → Accepts s p c r → Reaches s i (fun t => Queued s t p c r ∧ t.push? u = none))
  ∧ (∀ (s : State) (isl core : Nat) (e : LaunchEnt) (rest : List LaunchEnt) (c : CtxIsl) (r : TaskRec), s.ev = .pendingLaunchForward isl core →
    launchEnts s isl core = e :: rest → (∀ p ∈ s.pushes, ¬ (p.isl = isl ∧ p.source = 1 ∧ p.sub = core)) →
    Accepts s.take.2 (entryPush s.fresh e) c r →
    Reaches s .pendingLaunchForward (fun t => Queued s t (entryPush s.fresh e) c r ∧ launchEnts t isl core = rest))
  ∧ (∀ (s : State) (u : Nat) (k : Task), s.ev = .taskCompletion u → s.task? u = some k → k.released = false →
    k.exited.length = k.record.nteams →
    Reaches s .taskCompletion (fun t => (∀ l ∈ t.l1, l.isl = k.isl → l.ctx = k.ctx → l.dirty = 0)
      ∧ (k.record.join ≠ 0 → TaskIs t u (fun j => j.released = true ∧ j.done = false ∨ k.done = true) ∧ Event.joinDecrement u ∈ t.due)
      ∧ (k.record.join = 0 → ∀ j, t.task? u = some j → j.done = true)))
  ∧ (∀ (s s1 : State) (u : Nat) (k : Task) (pa mt : Nat), s.ev = .joinDecrement u → s.task? u = some k → k.released = true → k.done = false →
    translate s k.isl 128 k.ctx k.record.join.toNat .write = (s1, .ok pa mt) → lineBad s1 k.isl (pa / 128) = false → KeysHeld s1 →
    Reaches s .joinDecrement (fun t =>
      (∀ i < 8, t.physGet k.isl (pa + i) = BitVec.ofNat 8 ((BitVec.ofNat 64 (s1.physNat k.isl pa 8) - 1).toNat / 256 ^ i))
      ∧ (∀ isl a, ¬ inBytes k.isl pa 8 isl a → pa + 8 ≤ 2 ^ 48 → a < 2 ^ 48 → t.physGet isl a = s1.physGet isl a)
      ∧ ∀ j, t.task? u = some j → j.done = true))

/-- R22, R60, R62, R64 to R69, R401: the dispatcher places the next coach, with its four stores zero and its teams inactive at their entry, with ARG in s1,
FRAME in s61 and every other register, condition, predicate and depth counter zero. The oldest inactive team is admitted while the rules allow it; the end of a window takes its figures; a forced team is active.
A heat request is granted while the budget holds it. -/
def Obligations.PlacementAdmissionAndHeat : Prop :=
  (∀ (s : State) (isl core : Nat) (k : Task) (p : Spot), s.ev = .coachPlacement isl → (∀ c ∈ s.coaches, mayReturn s c = false) →
    nextPlace s [] (queuedTasks s isl) = (some (k, core, p), []) → dueRecords s isl = [] →
    Reaches s .coachPlacement (fun t =>
      (∃ c : Coach, t.coaches = s.coaches ++ [c] ∧ c.task = k.uid ∧ c.isl = k.isl ∧ c.core = core ∧ c.idx = k.placed ∧ c.hitch = p.hitch
        ∧ c.sp = p.sp ∧ c.ab = p.ab ∧ c.wb = p.wb ∧ c.cb = p.cb ∧ c.swapped = false
        ∧ (t.others.drop s.others.length).length = p.slots.length
        ∧ ∀ u ∈ t.others.drop s.others.length, u.id.coach = c.uid ∧ u.id.width = k.record.width ∧ u.sch.life = .inactive
          ∧ u.sc.pc = k.record.code ∧ u.rdS 1 = k.record.arg ∧ u.rdS 61 = k.record.frame ∧ (∀ r, r ≠ 1 → r ≠ 61 → u.rdS r = 0)
          ∧ (∀ r l, u.rdV r l = 0) ∧ (∀ c, c ≠ 0 → u.rdC c = false) ∧ (∀ q l, q ≠ 0 → u.rdP q l = false) ∧ (∀ l, u.rdDc l = 0 ∧ u.rdFlags l = 0)
          ∧ u.sc.loops = [] ∧ u.sc.pc1 = none ∧ u.sc.rmode = 0 ∧ u.sc.fpte = 0 ∧ u.sch.lease = k.record.lease ∧ u.sch.measured = k.record.lm)
      ∧ TaskIs t k.uid (fun j => j.placed = k.placed + 1 ∧ j.skips = 0)
      ∧ (∀ x, 1024 * p.sp.1 ≤ x → x < 1024 * (p.sp.1 + p.sp.2) → t.storeGet k.isl core 1 x = 0)
      ∧ (∀ x, 1024 * p.ab.1 ≤ x → x < 1024 * (p.ab.1 + p.ab.2) → t.storeGet k.isl core 2 x = 0)
      ∧ (∀ x, 1024 * p.wb.1 ≤ x → x < 1024 * (p.wb.1 + p.wb.2) → t.storeGet k.isl core 3 x = 0)
      ∧ ∀ x, 1024 * p.cb.1 ≤ x → x < 1024 * (p.cb.1 + p.cb.2) → t.storeGet k.isl core 4 x = 0))
  ∧ (∀ (s : State) (isl core : Nat) (x : Thread), s.ev = .teamAdmission isl core → nextInactive s isl core [] = some x → admits64 s x = true →
    Reaches s .teamAdmission (fun t => (∀ y ∈ t.threads, y.id.uid = x.id.uid → y.sch.life = .active)
      ∧ t.threads.map noSch = s.threads.map noSch ∧ MemAs s t))
  ∧ (∀ (s : State) (u : Nat) (x : Thread), s.ev = .leaseWindowEnd u → s.thread? u = some x → x.live = true → 4096 ≤ x.sch.winCount →
    Reaches s .leaseWindowEnd (fun t => ∃ y, t.thread? u = some y ∧ y.sch.winCount = 0 ∧ y.sch.winLines = [] ∧ y.sch.winMisses = 0
      ∧ y.sch.winLost = 0 ∧ y.sch.lastLines = x.sch.winLines.length ∧ y.sch.lastLost = x.sch.winLost
      ∧ y.sch.lease = (if x.sch.measured then min 224 (ceilDiv x.sch.winLines.length 8) else x.sch.lease)
      ∧ (x.sch.winMisses < 16 * x.sch.winLost → x.sch.measured = false →
          y.sch.effLease = min 224 (x.sch.effLease + ceilDiv (128 * x.sch.winLost) 1024))
      ∧ t.threads.map noSch = s.threads.map noSch ∧ MemAs s t))
  ∧ (∀ (s : State) (u : Nat) (x : Thread), s.ev = .teamForced u → s.thread? u = some x → x.live = true → x.sch.life = .inactive →
    x.sch.inactiveAt + 8 * (2 * msCycles) ≤ s.cycle →
    Reaches s .teamForced (fun t => (∀ y ∈ t.threads, y.id.uid = u → y.sch.life = .active) ∧ t.threads.map noSch = s.threads.map noSch
      ∧ MemAs s t))
  ∧ (∀ (s : State) (isl : Nat) (r : HeatReq), s.ev = .heatGrant isl → topRequest (s.island isl) = some r →
    (s.island isl).held + r.units ≤ (s.island isl).budget →
    let took := fun (t : State) => (t.island isl).held = (s.island isl).held + r.units
      ∧ ∀ q ∈ (t.island isl).reqs, ¬ (q.kind = r.kind ∧ q.who = r.who)
    (∀ c, r.kind = 0 → s.chain? r.who = some c → Reaches s .heatGrant (fun t => took t ∧ ∃ d, t.chain? r.who = some d ∧ d.st = .hasHeat))
    ∧ (∀ w, r.kind = 1 → s.waybill? r.who = some w → Reaches s .heatGrant (fun t => took t ∧ t.waybill? r.who = some { w with heatHeld := true }))
    ∧ (∀ x, 2 < r.kind → s.thread? r.who = some x → x.an.heatOwed = 0 → Reaches s .heatGrant (fun t => took t
        ∧ ∃ y, t.thread? r.who = some y ∧ y.an.heat = x.an.heat + r.units ∧ y.an.heatWait = some (r.units, 1))))

/-- R389, R390: the bytes of a save image. A team block takes 1,024 bytes with its scalar registers first, its PC at 0x200, its depth counters at
0x298, its predicates at 0x2D8 and its flag register at 0x310; register r of LID l is at 4 × (r × W + l) of the vector registers; a header
takes 64 bytes and a reply-table entry 16. Writing an image puts each of its cells into memory, where no two of them meet. -/
def Sys2Proof.Spec.ImageBytes : Prop :=
  (∀ t : Thread, (teamBlock t).length = 1024
    ∧ (∀ k < 64, ((teamBlock t).drop (8 * k)).take 8 = known 8 (t.rdS k).toNat)
    ∧ ((teamBlock t).drop 0x200).take 8 = known 8 t.sc.pc.toNat
    ∧ (∀ l < 64, (teamBlock t)[0x298 + l]? = some (some (t.rdDc l)))
    ∧ (∀ p < 7, ((teamBlock t).drop (0x2D8 + 8 * p)).take 8 = known 8 (t.predNat (p + 1)))
    ∧ (∀ l < 64, (teamBlock t)[0x310 + l]? = some (some (BitVec.ofNat 8 (t.rdFlags l).toNat))))
  ∧ (∀ (t : Thread) (r l : Nat), r < t.id.vregs → l < t.id.width →
    ((vectorBytes t).drop (4 * (r * t.id.width + l))).take 4 = known 4 (t.rdV r l).toNat)
  ∧ (∀ (s : State) (i : Image), (headerBytes s i).length = 64)
  ∧ (∀ (s : State) (i : Image) (r : Reply), (replyBytes s i r).length = 16)
  ∧ (∀ (s : State) (i : Image) (a : Nat) (b : Byte), i.isl ≠ hubIsl → (∀ f ∈ s.frameInfo, f.lost = false) → s.memWf = true →
    ((imageCells s i).map Prod.fst).Nodup → (a, b) ∈ imageCells s i → (writeImage s i).physGet i.isl a = b)

/-- R54, R73 to R75, R160, R389 to R391: an agent whose wait has held goes on; a FUSE whose period has passed delivers 1. An eligible coach without a
running chain is saved: it is swapped out, with an image, and so are its teams. A coach that may return is restored when its room is free, and
the end of a quantum brings back the one that is ready. -/
def Sys2Proof.Spec.WakesAndReturns : Prop :=
  (∀ (s : State) (u : Nat) (x : Thread), s.ev = .teamWake u → s.thread? u = some x → x.sch.woken = true → x.sch.life = .parked →
    x.sch.park ≠ .none → (∀ w d l n, x.sch.park ≠ .fuse w d l n) → (wakeSyncs x = true → x.accessesDone = true) →
    Reaches s .teamWake (fun t => ∃ y, t.thread? u = some y ∧ y.sch.park = .none
      ∧ (x.id.kind = .team → y.sch.life = .inactive ∧ y.sc = x.sc ∧ Event.teamAdmission x.id.isl x.id.core ∈ t.due)
      ∧ (x.id.kind = .carter → y.sch.life = .active)))
  ∧ (∀ (s : State) (u : Nat) (x : Thread) (w sd left since : Nat), s.ev = .fuseTimeout u → s.thread? u = some x →
    x.sch.park = .fuse w sd left since → x.sch.life = .parked → left < s.cycle - since →
    Reaches s .fuseTimeout (fun t => ∃ y, t.thread? u = some y ∧ (∀ k, y.rdS k = if k = sd ∧ sd ≠ 0 then 1 else x.rdS k)
      ∧ y.sch.life = .inactive ∧ y.sch.park = .none ∧ MemAs s t))
  ∧ (∀ (s : State) (u : Nat) (c : Coach), s.ev = .swapOut u → s.coach? u = some c → mayLeave s c = true → (columnCoaches s c).any (saveWaits s) = false →
    mayGo s c = true → (∀ x ∈ s.yard, x.coach = u → x.st ≠ .running) →
    areaMapped s c.isl c.ctx ((columnPlan s c).getD []) = true →
    Reaches s .swapOut (fun t => t.coach? u = some { c with swapped := true, residentAt := s.cycle, rotOut := false } ∧ (∃ i ∈ t.images, i.coach = u ∧ i.kind = 1 ∧ i.core = c.core)
      ∧ (∀ y ∈ t.threads, y.live = true → y.id.coach = u → y.sch.life = .swapped) ∧ ∀ x ∈ t.yard, x.coach ≠ u))
  ∧ (∀ (s : State) (u : Nat) (c : Coach) (i : Image), s.ev = .coachRestore u → s.coach? u = some c → mayReturn s c = true → canReturn s c = true →
    placeFirst s c = false → s.image? u = some i → imageOf s c = some i → areaMapped s c.isl c.ctx (imagePlaces s (c :: columnMates s c)) = true →
    Reaches s .coachRestore (fun t => (∃ d, t.coach? u = some d ∧ d.swapped = false) ∧ (∀ i ∈ t.images, i.coach ≠ u)
      ∧ ∀ y ∈ t.threads, y.live = true → y.id.coach = u → y.sch.life = .inactive ∨ y.sch.life = .parked))
  ∧ (∀ (s : State) (isl core : Nat) (c : Coach) (i : Image), s.ev = .quantumBoundary isl core → c ∈ s.coaches → c.isl = isl → c.core = core →
    mayRotate s c = true → canReturn s c = true → c.prio ≤ 3 → (∀ d ∈ s.coaches, d.isl = isl → d.core = core → d.swapped = true) →
    (∀ d ∈ s.coaches, d.isl = isl → d.core = core → mayRotate s d = true → d = c) →
    s.image? c.uid = some i → imageOf s c = some i → areaMapped s c.isl c.ctx (imagePlaces s (c :: columnMates s c)) = true →
    Reaches s .quantumBoundary (fun t => ∃ d, t.coach? c.uid = some d ∧ d.swapped = false ∧ ∀ i ∈ t.images, i.coach ≠ c.uid))


/-- `ImageBytes` and `WakesAndReturns` together. -/
def Obligations.WakesAndSwaps : Prop := Sys2Proof.Spec.ImageBytes ∧ Sys2Proof.Spec.WakesAndReturns

/-- R118, R121, R122: an element of a copy or a fill lands: its bytes are at the destination, it is counted, and the next element or the completion
follows. A stream pushes its next block into its FIFO. A waybill that is done leaves. -/
def Obligations.WaybillSteps : Prop :=
  (∀ (s s1 s2 : State) (u k : Nat) (w : Waybill) (bs : List Byte), s.ev = .waybillElementLand u k → s.waybill? u = some w → w.moves = true →
    wbOut s w = false →
    let f := parseWb w.raw
    f.kind = 0 ∨ f.kind = 3 → f.srcsp ≠ 5 → f.dstsp ≠ 5 → k < f.count → k ∉ w.landed → k ∉ w.sent →
    wbSource w f k s = (s1, none, bs) → wbWrite w f s1 (dstAt f k) (wbConvert f bs) = (s2, none) →
    Reaches s .waybillElementLand (fun t => MemAs s2 t ∧ t.cur = s2.cur
      ∧ t.waybill? u = some { w with landed := k :: w.landed, bytes := w.bytes + f.de, sent := w.sent }
      ∧ (w.landed.length + 1 = f.count → Event.waybillComplete u ∈ t.due)
      ∧ (w.landed.length + 1 ≠ f.count → ∀ n, nextElem { w with landed := k :: w.landed } f = some n → Event.waybillElementLand u n ∈ t.due)))
  ∧ (∀ (s s1 s2 : State) (u : Nat) (w : Waybill) (x : Stream) (sc es : List Word32), s.ev = .streamBlockPush u → s.waybill? u = some w →
    s.stream? u = some x → w.moves = true → wbOut s w = false → x.next < x.sk / 32 →
    (∃ c ∈ streamUsers s x, c.done ≤ x.next) → readScales w (parseWb w.raw) x.next s = (s1, none, sc) →
    readRows w (parseWb w.raw) x.next (parseWb w.raw).smn 0 s1 = (s2, none, es) →
    Reaches s .streamBlockPush (fun t => MemAs s2 t ∧ t.stream? u = some { x with
        blocks := x.blocks ++ [{ num := x.next, elems := es, scales := sc, bad := none }], next := x.next + 1 }
      ∧ ∀ c ∈ streamUsers s2 x, Event.kblockApply c.isl c.core x.next ∈ t.due))
  ∧ (∀ (s : State) (u : Nat) (w : Waybill), s.ev = .waybillComplete u → s.waybill? u = some w → wbDone s w = true →
    timelinePa s w.isl w.ctx w.core w.tl ≠ none →
    Reaches s .waybillComplete (fun t => t.waybills = s.waybills.filter (fun v => v.uid ≠ u)
      ∧ (t.timeline w.isl w.ctx w.core w.tl).given = (s.timeline w.isl w.ctx w.core w.tl).given))

/-- R70, R146, R152, R155, R309: a free Anvil takes the earliest granted chain with the headers at the fronts of its FIFOs: a chain that agrees with them
runs, another ends. A running chain applies its next k-block when both FIFOs hold it: each slot of the step takes its new value,
and with the last one the chain leaves the yard. -/
def Obligations.ChainSteps : Prop :=
  (∀ (s : State) (isl core : Nat) (c : Chain) (a b : Stream), s.ev = .chainDispatch isl core →
    let s0 := oweWakes (anvilTimeline s isl core) (yardWaiters s isl core)
    earliest ((candidates s0 isl core).filter (fun c => ((roundOf s0 c).map (fun r => roundTurn s0 isl r.1)).getD false)) = some c →
    c.group = none → c.crow = 0 → c.begun = false → anvilFree s0 isl core = true → chainClear s0 c = true →
    untaken s0 isl core true = some a → untaken s0 isl core false = some b → a.wb ≠ b.wb → (∀ x ∈ s0.streams, x.chain ≠ some c.uid) →
    (headersOk c a b = true → Reaches s .chainDispatch (fun t => (∃ d, t.chain? c.uid = some d ∧ d.st = .running ∧ d.lead = c.uid ∧ d.mmas = c.mmas)
      ∧ Event.streamBlockPush a.wb ∈ t.due ∧ Event.streamBlockPush b.wb ∈ t.due))
    ∧ (headersOk c a b = false → Reaches s .chainDispatch (fun t => t.chain? c.uid = none)))
  ∧ (∀ (s : State) (isl core p : Nat) (c : Chain) (x y : Stream), s.ev = .kblockApply isl core c.applied.length →
    s.yard.find? (fun c => c.isl = isl && c.core = core && c.st = .running) = some c → chainAB s c = some (x, y) →
    stepStops c x y = none → stepHand c x y = some p →
    let d0 := { c with applied := c.applied ++ [p] }
    let slot := fun (z : Nat × Nat × Nat × MmaRec × Nat) => chainSlot s c + z.1 * c.n + z.2.1
    (∀ z ∈ stepSlots d0 c.applied.length, slotBad s isl core (slot z) = false) →
    (c.free = false → p = c.applied.length + 1)
    ∧ (c.applied.length + 1 ≠ c.k / 32 →
      Reaches s .kblockApply (fun t => (∃ d, t.chain? c.uid = some d ∧ d.applied = d0.applied ∧ d.st = .running)
        ∧ (∀ z ∈ stepSlots d0 c.applied.length, t.cbSlot isl core (slot z) = (slotStep s c x.blocks y.blocks (slot z) z).1)
        ∧ (∀ isl a, t.physGet isl a = s.physGet isl a) ∧ t.cur.ln = s.cur.ln ∧ t.cur.sc = s.cur.sc))
    ∧ (c.applied.length + 1 = c.k / 32 → Reaches s .kblockApply (fun t => t.chain? c.uid = none
        ∧ (∀ z ∈ stepSlots d0 c.applied.length, t.cbSlot isl core (slot z) = (slotStep s c x.blocks y.blocks (slot z) z).1)
        ∧ t.cur.ln = s.cur.ln)))

/-- R110, R164 to R172, R404: a frame that the firewall admits is performed once at its target, and its reply is owed; a frame that it does not admit is
gone, and its sender's context ends, by a handler in report-only mode where a team is named (R188). A frame in error is sent again and counted. A reply ends its operation, and brings a lane its registers or RATOM its old value. An
operation not performed within 1 ms is fatal, and so is a handler in report-only mode that takes 1 ms. -/
def Obligations.FrameSteps : Prop :=
  (∀ (s s1 : State) (u : Nat) (f : Machine.Frame) (pas : List Nat), s.ev = .frameReceive u → s.frame? u = some f → f.phase = 0 →
    f.sentOn ≠ none → f.relay = false → f.panel = Config.panel → f.home = Config.panel → f.kind ≠ 4 → f.wb = none → frameLate s f = false →
    let g := { f with admitted := true }
    (f.admitted = false → admits s f = false → Reaches s .frameReceive (fun t => t.frame? u = none
      ∧ (frameTeam s f = none → (∀ y, s.thread? f.agent = some y → y.id.ctx = f.ctx) → ∀ d ∈ t.ctxs, d.ctx = f.ctx → d.dead = true)))
    ∧ (f.admitted = true ∨ admits s f = true → mayPerform s f = true → (f.ctx = 0 → ctrlHit f.va.toNat = false) →
      ingressBytes f.tgt f.ctx (f.kind ≠ 0) (s.setFrameOp g) f.va.toNat f.size = (s1, none, pas) → KeysHeld s1 →
      (f.kind ≠ 1 → ∀ pa ∈ pas, lineBad s1 f.tgt (pa / 128) = false) →
      let old := pas.map (fun pa => s1.physGet f.tgt pa)
      (f.kind = 0 → Reaches s .frameReceive (fun t =>
        t.frame? u = some { g with phase := 1, data := old, sentOn := none } ∧ Event.remoteReply u ∈ t.due
        ∧ ∀ isl a, t.physGet isl a = s1.physGet isl a))
      ∧ (f.kind ≠ 0 → pas.Nodup → f.data.length = f.size → Reaches s .frameReceive (fun t =>
        t.frame? u = some { g with phase := 1, data := old, sentOn := none } ∧ Event.remoteReply u ∈ t.due
        ∧ ∀ (i pa : Nat) (b : Byte), pas[i]? = some pa → (if f.kind = 1 then f.data else frameNew f old)[i]? = some b → t.physGet f.tgt pa = b))))
  ∧ (∀ (s : State) (u p : Nat) (f : Machine.Frame), s.ev = .frameRetry u → s.frame? u = some f → f.phase = 0 → f.admitted = false →
    f.home = Config.panel → f.sentOn = some p →
    Reaches s .frameRetry (fun t => t.frame? u = some { f with retried := f.retried + 1 }
      ∧ (f.isl ≠ hubIsl → spGet (t.island f.isl).linkRetry p = spGet (s.island f.isl).linkRetry p + 1)))
  ∧ (∀ (s : State) (u : Nat) (f : Machine.Frame), s.ev = .relayForward u → s.frame? u = some f → f.phase ≠ 2 → f.relay = true →
    Reaches s .relayForward (fun t => t.frame? u = some { f with relay := false } ∧ f.arrival ∈ t.due
      ∧ (relays s f ≠ [] → ∃ via ∈ relays s f, ∃ p < 8, spGet (t.island via).linkSent p = spGet (s.island via).linkSent p + 1)))
  ∧ (∀ (s : State) (p : Nat), s.ev = .rotorSlot p → (s.frames.map (fun f => f.uid)).Nodup → p < 8 →
    Reaches s .rotorSlot (fun t => MemAs s t ∧ ∀ u f, s.frame? u = some f → ∃ g, t.frame? u = some g
      ∧ (g = f ∨ (f.phase ≠ 2 ∧ f.sentOn = none ∧ g = { f with sentOn := some p, relay := g.relay }))))
  ∧ (∀ (s : State) (u : Nat) (f : Machine.Frame), s.ev = .remoteReply u → s.frame? u = some f → f.phase = 1 → f.wb = none →
    f.sentOn ≠ none → f.relay = false → f.home = Config.panel → admitsReply s f = true → s.cur.holds f.op = true → (∀ i ∈ s.images, ∀ r ∈ i.replies, r.op ≠ f.op) →
    Reaches s .remoteReply (fun t => t.frame? u = none ∧ MemAs s t
      ∧ (f.kind = 1 ∨ f.kind = 3 → t.cur = { s.cur with fl := s.cur.fl.part f.op [] [] })
      ∧ (f.kind = 2 → f.redop = 0 → t.cur.fl = s.cur.fl.part f.op [] [f.dst]
          ∧ ∀ k, t.cur.rdS k = if k = f.dst ∧ k ≠ 0 then BitVec.ofNat 64 (leNat f.data) else s.cur.rdS k)
      ∧ (f.kind = 0 → t.cur.fl = s.cur.fl.part f.op ((List.range (f.size / 4)).map (fun i => f.dst + i)) []
          ∧ (4 * s.cur.id.hitch ≤ f.lane → f.lane < 4 * s.cur.id.hitch + s.cur.id.width → f.lane < 4 * s.cur.id.hitch + 64 →
            ∀ i < f.size / 4, t.cur.rdV (f.dst + i) (f.lane - 4 * s.cur.id.hitch) = BitVec.ofNat 32 (leNat ((f.data.drop (4 * i)).take 4))))))
  ∧ (∀ (s : State) (u : Nat) (f : Machine.Frame), s.ev = .remoteTimeout u → s.frame? u = some f → f.home = Config.panel →
    (f.phase = 0 ∨ (f.phase = 1 ∧ f.wb = none ∧ ∃ y ∈ s.threads, y.sch.life = .swapped ∧ y.holds f.op = true)) → f.sentAt + msCycles ≤ s.cycle →
    Reaches s .remoteTimeout (fun t => t.frame? u = none ∧ (frameTeam s f = none → (∀ y, s.thread? f.agent = some y → y.id.ctx = f.ctx) → ∀ d ∈ t.ctxs, d.ctx = f.ctx → d.dead = true)))
  ∧ (∀ (s : State) (u since : Nat) (cause : BitVec 16) (c : CtxIsl), s.ev = .reportOnlyTimeout u → c ∈ s.ctxs → (u, since, cause) ∈ c.report →
    since + msCycles ≤ s.cycle → (∀ d ∈ s.ctxs, ∀ r ∈ d.report, r.1 = u → d.ctx = c.ctx) →
    Reaches s .reportOnlyTimeout (fun t => (∀ d ∈ t.ctxs, d.ctx = c.ctx → d.dead = true)
      ∧ ∀ y ∈ t.threads, y.id.kind = .team → y.id.ctx = c.ctx → y.sch.life = .ended))

/-- R172, R174 to R176: an entry that fired is checked and waits for its heat; with it, its tile leaves for every other peer, in frames; once every
tile is there whole, the result goes to DST and then the firing ends with 0 in its ready word, and until then it waits. Tiles that do not agree end it
with COLL_MISMATCH. -/
def Obligations.CollectiveSteps : Prop :=
  ∀ (s : State) (isl ctx e : Nat) (g : Firing), s.firing? isl ctx e = some g →
    (∀ bs, s.ev = .bellowsSend isl ctx e → g.st = 0 → entryBytes s isl ctx e = some bs → entryBad s isl ctx e = false → keyLive s isl ctx (parseTile bs) g.uid = false →
      tileOk s isl ctx (parseTile bs) = true → Reaches s .bellowsSend (fun t => ∃ h, t.firing? isl ctx e = some h ∧ h.st = 1
        ∧ h.tag = (parseTile bs).tag ∧ h.oper = (parseTile bs).oper ∧ h.size = (parseTile bs).size ∧ MemAs (entryRead s isl ctx e) t))
    ∧ (∀ s1 bs, s.ev = .bellowsSend isl ctx e → g.st = 2 → g.sent = false →
      bellowsRead isl g.die ctx (l2Used s isl ctx g.gives) g.src.toNat g.gives = (s1, none, bs) →
      Reaches s .bellowsSend (fun t => t.firing? isl ctx e = some { g with sent := true } ∧ MemAs s1 t
        ∧ (∃ own : Tile, t.tiles = s.tiles ++ [own] ∧ own.bytes = bs ∧ own.sender = isl ∧ own.whole = true ∧ g.owns own = true)
        ∧ ∃ fs, t.frames = s.frames ++ fs
          ∧ fs.map (fun f => (f.tgt, f.elem, f.data)) = (g.peers.filter (fun p => p ≠ isl)).flatMap (fun p => (tileParts bs).map (fun x => (p, x.1, x.2)))
          ∧ ∀ f ∈ fs, f.kind = 4 ∧ f.va = g.keyBits ∧ f.aop = g.oper ∧ f.dst = g.size ∧ Event.frameReceive f.uid ∈ t.due))
    ∧ (s.ev = .collectiveComplete isl ctx e → 2 ≤ g.st → g.sent = true →
      let ts := firingTiles s g
      let h : Firing := { g with st := 3 }
      ((∃ x ∈ ts, x.oper ≠ g.oper ∨ x.size ≠ g.size) → exec .collectiveComplete s = .next (collFault s g causeColl))
      ∧ ((∀ x ∈ ts, x.oper = g.oper ∧ x.size = g.size ∧ x.fault = none) →
        (¬ (ts.length = g.peers.length ∧ ∀ x ∈ ts, x.whole = true ∧ tileBehind s g x = false) → exec .collectiveComplete s = .next s)
        ∧ ((∀ x ∈ ts, x.spill = false) → readSpills h s ts = (s, none, ts))
        ∧ (∀ s0 tiles, ts.length = g.peers.length → (∀ x ∈ ts, x.whole = true ∧ tileBehind s g x = false) → readSpills h s ts = (s0, none, tiles) →
          exec .collectiveComplete s = .next (finishFiring (s0.setFiring h) h tiles)
          ∧ ∀ s1 pas, bellowsTargets isl g.die ctx (s0.setFiring h) g.dst.toNat (combine h tiles).length = (s1, none, pas) → pas.Nodup → KeysHeld s1 →
            isl ≠ hubIsl → (∀ pa ∈ pas, pa < 2 ^ 48) → ∃ m : State, (∀ (i pa : Nat) (b : Byte), pas[i]? = some pa → (combine h tiles)[i]? = some b → m.physGet isl pa = b)
            ∧ (∀ a, a ∉ pas → a < 2 ^ 48 → m.physGet isl a = s1.physGet isl a) ∧ exec .collectiveComplete s = .next (endFiring m h 0)
            ∧ Reaches s .collectiveComplete (fun t => (∀ k ∈ t.firings, k.uid ≠ g.uid) ∧ ∀ x ∈ ts, x ∉ t.tiles))))
    ∧ (∀ (v : Word64) (pa : Nat), peek s isl ctx (readyVa s isl ctx e).toNat = some pa → KeysHeld s → isl ≠ hubIsl → pa + 8 ≤ 2 ^ 48 →
      (readySet s isl ctx e v).physNat isl pa 8 = v.toNat)


namespace Sys2Proof.Spec

/-- The processor's next command is the head of queue x, and the current step is that command's (R368, R369). -/
def Next (s : State) (x : HostQueue) : Prop := nextQueue s = some x ∧ cmdEvent s x = s.ev ∧ s.queue? x.fn x.q = some x

/-- Where the completion record of a queue's head goes (R378). -/
def recordAt (x : HostQueue) : Nat := x.cbase.toNat + 16 * (x.head % 2 ^ x.log2n)

/-- The processor's next command is the head of queue x, and no host error is met at the rings (R365). -/
def Taken (s : State) (x : HostQueue) : Prop := Next s x ∧ hostOk s (headAt x) 64 = true ∧ hostOk s (recordAt x) 16 = true

/-- The head of queue x has completed: its record is in host memory with a status and a value, and the head has passed; a queue whose EN was
cleared meanwhile is now off (R365, R366, R378). -/
def Completes (s t : State) (x : HostQueue) (status : Nat) (v : Word64) : Prop :=
  (∃ y, t.queue? x.fn x.q = some y ∧ y.hold = none ∧ y.inHand = false
    ∧ (if x.stopping then y.en = false ∧ y.head = 0 ∧ y.tail = 0 else y.en = x.en ∧ y.head = x.head + 1 ∧ y.tail = x.tail))
  ∧ ∀ i < 16, some (spGet t.hostMem (recordAt x + i)) =
      (leBytes 8 ((headCmd s x).tag.toNat + status * 2 ^ 32 + (if x.head / 2 ^ x.log2n % 2 = 0 then 2 ^ 48 else 0)) ++ leBytes 8 v.toNat)[i]?

end Sys2Proof.Spec

/-- R363 to R366, R379: HCPSEL keeps the fields written, its reserved bits reading zero, and the function is accepted where 1 is written. A queue is enabled with its configuration
where it is valid, and disabled with its head and error at 0 once no command of it is in hand, with the other fields as they were then written; a doorbell moves its tail on. A port carries traffic where the other side offers
major 1. -/
def Sys2Proof.Spec.FunctionRegisters : Prop :=
  (∀ (s : State) (fn : Nat) (v : Word64), s.ev = .hcpselWrite fn v → inService s = true → fn < 32 →
    Reaches s .hcpselWrite (fun t => t.fnRegs fn = { s.fnRegs fn with fn := fn, hcpsel := v &&& 0xFFFFFFFF000000FF, accepted := decide (v = 1) }
      ∧ (∀ g, g ≠ fn → t.fnRegs g = s.fnRegs g) ∧ { t with fns := s.fns } = s))
  ∧ (∀ (s : State) (fn q : Nat) (cbase qbase ctl : Word64), s.ev = .queueEnable fn q cbase qbase ctl → inService s = true → fn < 32 → q < 64 →
    ctl.getLsbD 32 = true → (∀ x, s.queue? fn q = some x → x.en = false) →
    let log2n := ctl.toNat % 32
    let ctx := ctl.toNat / 2 ^ 48
    let ok := 4 ≤ log2n ∧ log2n ≤ 16 ∧ qbase.toNat % 64 = 0 ∧ cbase.toNat % 16 = 0 ∧ ownsCtx s fn ctx = true ∧ (s.fnRegs fn).accepted = true
    Reaches s .queueEnable (fun t => { t with queues := s.queues } = s ∧ ∃ x, t.queue? fn q = some x ∧ (x.en = true ↔ ok)
      ∧ (x.qerr = 0 ↔ ok) ∧ x.log2n = log2n ∧ x.ctx = ctx ∧ x.prio = ctl.toNat / 2 ^ 33 % 4 ∧ x.vec = ctl.toNat / 2 ^ 35 % 32
      ∧ x.qbase = qbase ∧ x.cbase = cbase ∧ x.head = 0 ∧ x.tail = 0 ∧ x.hold = none))
  ∧ (∀ (s : State) (fn q : Nat) (x : HostQueue), s.ev = .queueDisable fn q → s.queue? fn q = some x → inService s = true →
    Reaches s .queueDisable (fun t => { t with queues := s.queues } = s ∧ t.queue? fn q = some (if x.hold = none ∧ x.inHand = false
      then { x.shown with en := false, head := 0, tail := 0, qerr := 0, stopping := false, ctl := none } else { x with stopping := true })))
  ∧ (∀ (s : State) (fn q n : Nat) (x : HostQueue), s.ev = .doorbell fn q n → s.queue? fn q = some x → inService s = true → x.en = true →
    n < 2 ^ x.log2n →
    let tail := x.tail + (n + 2 ^ x.log2n - x.tail % 2 ^ x.log2n) % 2 ^ x.log2n
    (tail - firstOpen s x ≤ 2 ^ x.log2n - 1 → Reaches s .doorbell (fun t => t.queue? fn q = some { x with tail := tail }
      ∧ tail % 2 ^ x.log2n = n ∧ { t with queues := s.queues, due := s.due } = s))
    ∧ (2 ^ x.log2n - 1 < tail - firstOpen s x → exec .doorbell s = .next s))
  ∧ (∀ (s : State) (p : Nat) (m : BitVec 8), s.ev = .edgePortLinkUp p m →
    Reaches s .edgePortLinkUp (fun t => (p ∈ t.panel.edges ↔ m.getLsbD 1 = true ∧ p ≠ Config.panel)
      ∧ (∀ e, e ≠ p → (e ∈ t.panel.edges ↔ e ∈ s.panel.edges)) ∧ { t with panel := s.panel } = s))

/-- R365: a host error at the head of a queue's command ring sets QERR 2, and the command has no other effect; one at the completion ring sets
QERR 2 as the command passes, with no record written. The queue stops: no later command of it is taken. That the unread command stays at the head, that
one without a writable record passes and that EN stays are the model's readings (DEDUCED, log 31); which addresses the host answers with an error is
free (DESIGN CHOICE, log 39). -/
def Sys2Proof.Spec.HostErrors : Prop :=
  ∀ (s : State) (x : HostQueue), Next s x →
    (hostOk s (headAt x) 64 = false → ∀ i ∈ [Instr.cmdNop, .invalidCommand, .cmdWrite, .cmdCopy, .cmdMctset, .cmdKill, .cmdLaunch], i = s.ev.instr →
      Reaches s i (fun t => t.queue? x.fn x.q = some { x with qerr := 2, inHand := false }.settled ∧ { t with queues := s.queues, due := s.due } = s
        ∧ mayTake t { x with qerr := 2, inHand := false }.settled = false))
    ∧ (hostOk s (headAt x) 64 = true → hostOk s (recordAt x) 16 = false → ∀ a b, s.ev = .cmdNop a b →
      Reaches s .cmdNop (fun t => t.queue? x.fn x.q = some { x with qerr := 2, head := x.head + 1, inHand := false }.settled ∧ t.hostMem = s.hostMem
        ∧ mayTake t { x with qerr := 2, head := x.head + 1, inHand := false }.settled = false))

/-- `FunctionRegisters` and `HostErrors` together. -/
def Obligations.FunctionsAndQueues : Prop := Sys2Proof.Spec.FunctionRegisters ∧ Sys2Proof.Spec.HostErrors

/-- R367, R371, R376 to R378: the command that is next completes with its record. NOP does nothing else; WRITE stores 8 bytes at the memory-side die;
COPY moves bytes between host memory and an island's; MCTSET changes a multicast entry unless a waybill names it; KILL ends a launch. A command
that is not valid completes INVALID with the offset of its first offending field, one that names no island it may reach, ABSENT. -/
def Obligations.Commands : Prop :=
  ∀ (s : State) (x : HostQueue), Taken s x →
    let c := headCmd s x
    let isl := c.w1 % 256
    let rec_ := fun (a : Nat) => recordAt x ≤ a ∧ a < recordAt x + 16
    (∀ a b, s.ev = .cmdNop a b → Reaches s .cmdNop (fun t => Completes s t x 0 0 ∧ (∀ i k, t.physGet i k = s.physGet i k)
        ∧ ∀ k, ¬ rec_ k → spGet t.hostMem k = spGet s.hostMem k))
    ∧ (∀ a b n, s.ev = .invalidCommand a b → c.bad = some n → Reaches s .invalidCommand (fun t => Completes s t x 1 (BitVec.ofNat 64 n)
        ∧ ∀ i k, t.physGet i k = s.physGet i k))
    ∧ (∀ a b s1 pas, s.ev = .cmdWrite a b → ctrlTouch x.ctx c.w2 8 = false → hostTargets isl x.ctx .write s c.w2 8 = (s1, pas) →
      (hostIslOk s x.ctx c.w1 = false → Reaches s .cmdWrite (fun t => Completes s t x 8 (BitVec.ofNat 64 c.w1)))
      ∧ (hostIslOk s x.ctx c.w1 = true → pas.length < 8 → Reaches s .cmdWrite (fun t => Completes s t x 4 0))
      ∧ (hostIslOk s x.ctx c.w1 = true → pas.length = 8 → pas.Nodup → KeysHeld s1 → Reaches s .cmdWrite (fun t => Completes s t x 0 0
        ∧ ∀ (i pa : Nat), pas[i]? = some pa → t.physGet isl pa = BitVec.ofNat 8 (c.w3 / 256 ^ i))))
    ∧ (∀ a b, s.ev = .cmdCopy a b → hostIslOk s x.ctx (c.w1 % 2 ^ 63) = false →
      Reaches s .cmdCopy (fun t => Completes s t x 8 (BitVec.ofNat 64 (c.w1 % 2 ^ 63)) ∧ ∀ i k, t.physGet i k = s.physGet i k))
    ∧ (∀ a b, s.ev = .cmdMctset a b → hostIslOk s x.ctx (c.w1 % 2 ^ 16) = false →
      Reaches s .cmdMctset (fun t => Completes s t x 8 (BitVec.ofNat 64 (c.w1 % 2 ^ 16)) ∧ t.mcasts = s.mcasts))
    ∧ (∀ a b s1 pas, s.ev = .cmdCopy a b → hostIslOk s x.ctx (c.w1 % 2 ^ 63) = true → ctrlTouch x.ctx c.w3 c.w4 = false →
      hostTargets isl x.ctx (if c.w1.testBit 63 then .read else .write) s c.w3 c.w4 = (s1, pas) → pas.length = c.w4 →
      (c.w1.testBit 63 = true → Reaches s .cmdCopy (fun t => Completes s t x 0 (BitVec.ofNat 64 c.w4)
        ∧ ∀ (i pa : Nat), pas[i]? = some pa → ¬ rec_ (c.w2 + i) → spGet t.hostMem (c.w2 + i) = s1.physGet isl pa))
      ∧ (c.w1.testBit 63 = false → pas.Nodup → KeysHeld s1 → Reaches s .cmdCopy (fun t => Completes s t x 0 (BitVec.ofNat 64 c.w4)
        ∧ ∀ (i pa : Nat), pas[i]? = some pa → t.physGet isl pa = spGet s.hostMem (c.w2 + i))))
    ∧ (∀ a b, s.ev = .cmdMctset a b → hostIslOk s x.ctx (c.w1 % 2 ^ 16) = true →
      let e := c.w1 / 2 ^ 16 % 64
      ((∃ w ∈ s.waybills, w.isl = isl ∧ w.ctx = x.ctx ∧ (parseWb w.raw).kind = 4 ∧ (parseWb w.raw).mct = e) → mctNamed s isl x.ctx e = true)
      ∧ (mctNamed s isl x.ctx e = true → Reaches s .cmdMctset (fun t => Completes s t x 6 0 ∧ t.mcasts = s.mcasts))
      ∧ (mctNamed s isl x.ctx e = false → Reaches s .cmdMctset (fun t => Completes s t x 0 0
        ∧ (∃ m ∈ t.mcasts, m.isl = isl ∧ m.ctx = x.ctx ∧ m.entry = e ∧ m.valid = c.w1.testBit 32 ∧ m.group = c.w1 / 2 ^ 24 % 2 ^ 8 ∧ m.cores.toNat = (c.w3 + c.w4 * 2 ^ 64) % 2 ^ 128)
        ∧ ∀ m, ¬ (m.isl = isl ∧ m.ctx = x.ctx ∧ m.entry = e) → (m ∈ t.mcasts ↔ m ∈ s.mcasts))))
    ∧ (∀ a b, s.ev = .cmdKill a b →
      ((∀ l ∈ s.launches, ¬ (l.fn = x.fn ∧ l.lid = c.w1 ∧ l.st ≠ 2)) → Reaches s .cmdKill (fun t => Completes s t x 1 8))
      ∧ (∀ l, s.launches.find? (fun l => l.fn = x.fn && l.lid = c.w1 && l.st ≠ 2) = some l → Reaches s .cmdKill (fun t => Completes s t x 0 0
        ∧ ∀ y ∈ t.threads, y.id.kind = .team → y.id.launch = l.uid → y.sch.life = .ended)))

/-- R370 to R374: a launch that passes every check is accepted: it claims its entries, holds its queue and waits for its conditions, all as its descriptor
gives them; one that fails a check completes with that status, and has no effect. A launch whose conditions hold is dispatched: its group entries with
their E and its multicast entries, each valid, are written on their islands, and its records are pushed in their order. -/
def Obligations.Launches : Prop :=
  (∀ (s : State) (x : HostQueue) (a b : Nat), Taken s x → s.ev = .cmdLaunch a b →
    let c := headCmd s x
    (∀ r, launchReject s x c = some r → Reaches s .cmdLaunch (fun t => Completes s t x r.1 (BitVec.ofNat 64 r.2) ∧ t.launches = s.launches
      ∧ t.groups = s.groups ∧ t.mcasts = s.mcasts ∧ t.pushes = s.pushes))
    ∧ (launchReject s x c = none → Reaches s .cmdLaunch (fun t => ∃ l : Launch, t.launches = s.launches ++ [l] ∧ l.fn = x.fn ∧ l.ctx = x.ctx
      ∧ l.queue = x.q ∧ l.tag = c.tag ∧ l.slot = x.head ∧ l.lid = hostWord s (c.w1 + 8) % 2 ^ 32 ∧ l.st = 0
      ∧ l.recs.length = hostWord s c.w1 / 2 ^ 16 % 2 ^ 16
      ∧ (let d := readDesc s c.w1
        l.recs = d.recs.map (fun r => (r.2 % 256, BitVec.ofNat 64 r.1))
        ∧ l.groups = d.grps.map (fun e => (e.recIdx, e.entry, e.first, e.count, e.ext))
        ∧ l.mcts = d.mcts.map (fun m => (m.1 % 256, m.1 / 2 ^ 8 % 2 ^ 8, m.1 / 2 ^ 16 % 2 ^ 8, BitVec.ofNat 128 m.2.2))
        ∧ l.waits = (d.waits.take d.nwait).map (armWait (recsRead s x.ctx c) x.ctx))
      ∧ (∃ y, t.queue? x.fn x.q = some y ∧ y.head = x.head + 1 ∧ y.hold = some l.uid ∧ y.inHand = false)
      ∧ ((∀ w ∈ l.waits, w.held = true) → Event.launchDispatch l.uid ∈ t.due) ∧ t.hostMem = s.hostMem)))
  ∧ (∀ (s : State) (u : Nat) (l : Launch), s.ev = .launchDispatch u → s.launch? u = some l → l.st = 0 → (∀ w ∈ l.waits, w.held = true) →
    Reaches s .launchDispatch (fun t => t.launch? u = some { l with st := 1 }
      ∧ (∃ ps, t.pushes = s.pushes ++ ps ∧ ps.map (fun p => (p.isl, p.addr)) = l.recs
        ∧ ps.map (fun p => p.recIdx) = (List.range l.recs.length).map some
        ∧ ∀ p ∈ ps, p.ctx = l.ctx ∧ p.launch = u ∧ p.source = 0 ∧ Event.islandTaskPush p.uid ∈ t.due)
      ∧ (∀ g ∈ s.groups, g ∈ t.groups) ∧ (∀ i ∈ l.islands, ∀ q ∈ l.groups, ∃ g ∈ t.groups, g.isl = i ∧ g.ctx = l.ctx ∧ g.entry = q.2.1
        ∧ g.launch = u ∧ g.phase = 0 ∧ g.extCount = 0 ∧ ((∀ z ∈ l.groups, z.2.1 = q.2.1 → z.2.2.2.2 = q.2.2.2.2) → g.ext = q.2.2.2.2))
      ∧ ((l.mcts.map (fun m => (m.1, m.2.1))).Nodup → ∀ m ∈ l.mcts, ∃ y ∈ t.mcasts, y.isl = m.1 ∧ y.ctx = l.ctx ∧ y.entry = m.2.1 ∧ y.launch = u
        ∧ y.valid = true ∧ y.group = m.2.2.1 ∧ y.cores = m.2.2.2)))


namespace Sys2Proof.Spec

/-- Request r of function fn is the one in hand, and the current step is its step (R382). -/
def InHand (s : State) (fn : Nat) (r : MbReq) : Prop :=
  inService s = true ∧ fn < 32 ∧ s.request? fn = some r ∧ r.event = s.ev ∧ s.panel.mbox.head?.map (fun x => x.fn) = some fn

/-- The request has been answered: the reply is in its buffer, BUSY is clear and DONE set, and the request is gone (R382, R414). -/
def Replied (t : State) (fn : Nat) (r : MbReq) (status : Nat) (ws : List Nat) : Prop :=
  (∀ (i : Nat) (b : Byte), (((status + r.word 0 / 2 ^ 32 % 2 ^ 32 * 2 ^ 32) :: ws).flatMap (leBytes 8))[i]? = some b →
    spGet t.hostMem (r.buf.toNat + i) = b)
  ∧ (t.fnRegs fn).busy = false ∧ (t.fnRegs fn).done = true ∧ t.request? fn = none

/-- The descriptor that a request to create a context names: its context, its island blocks, and what R384 asks of its fields. -/
def descCtx (s : State) (r : MbReq) : Nat := hostWord s (r.word 1) / 2 ^ 48
def descBlocks (s : State) (r : MbReq) : List CtxIsl :=
  (List.range (hostWord s (r.word 1) / 2 ^ 24 % 256)).map (fun i =>
    readBlock s (r.word 1 + 64 + 96 * i) (descCtx s r) r.fn (bitOf (hostWord s (r.word 1)) 40) (hostWord s (r.word 1 + 8)))
def DescOk (s : State) (r : MbReq) : Prop :=
  let h := hostWord s (r.word 1)
  let n := h / 2 ^ 24 % 256
  let isls := maskIsls (hostWord s (r.word 1 + 8))
  h % 256 = 1 ∧ h / 2 ^ 16 % 256 = 0 ∧ h / 2 ^ 32 % 256 = 0 ∧ h / 2 ^ 41 % 128 = 0 ∧ descCtx s r ≠ 0 ∧ n ≠ 0 ∧ n = isls.length
  ∧ r.word 2 = 64 + 96 * n ∧ (∀ k < 6, hostWord s (r.word 1 + 16 + 8 * k) = 0) ∧ (descBlocks s r).map (fun b => b.isl) = isls
  ∧ ∀ b ∈ (descBlocks s r).zipIdx, blockOk s (r.word 1 + 64 + 96 * b.2) b.1 = true

end Sys2Proof.Spec

/-- R382, R384 to R386, R388 to R391: a valid descriptor of a new context opens it on each of its islands. A destruction stops the context's teams and
discards its tasks, coaches and images, and at its end takes its slots, its grants of cores and its timelines. A suspension stops the
context's agents on the islands that it names and marks it suspended there; a resumption undoes that and takes its core images away. A context that
its function did not create is NOCTX; a request that is not well formed, INVALID. -/
def Sys2Proof.Spec.ContextRequests : Prop :=
  ∀ (s : State) (fn : Nat) (r : MbReq), InHand s fn r →
    let ctx := r.word 1
    let isls := maskIsls (r.word 2)
    (s.ev = .invalidMailboxRequest fn → Reaches s .invalidMailboxRequest (fun t => Replied t fn r 1 []))
    ∧ (s.ev = .ctxCreate fn → DescOk s r → (∀ c ∈ s.ctxs, c.ctx ≠ descCtx s r) → (∀ b ∈ descBlocks s r, islandServes s b.isl = true) →
      onePartition s fn (hostWord s (r.word 1 + 8)) = true → (∀ b ∈ descBlocks s r, blockStatus s b = 0) →
      (∀ b ∈ descBlocks s r, freeSlot s b.isl ≠ none ∧ (b.prot = true → freeKey s b.isl ≠ none)) →
      Reaches s .ctxCreate (fun t => Replied t fn r 0 [] ∧ ∀ b ∈ descBlocks s r, ∃ k, t.ctx? b.isl (descCtx s r) = some { b with slot := k }))
    ∧ (s.ev = .ctxDestroy fn → mbCtx s fn ctx = true → ctx < 2 ^ 16 → s.panel.mbStage = 0 →
      Reaches s .ctxDestroy (fun t => t.request? fn = some r ∧ ∀ i ∈ ctxIsls s ctx,
        (∀ y ∈ t.threads, y.id.kind = .team → y.id.isl = i → y.id.ctx = ctx → y.sch.life = .ended) ∧ (∀ k ∈ t.tasks, ¬ (k.isl = i ∧ k.ctx = ctx))
        ∧ (∀ c ∈ t.coaches, ¬ (c.isl = i ∧ c.ctx = ctx)) ∧ ∀ m ∈ t.images, ¬ (m.isl = i ∧ m.ctx = ctx)))
    ∧ (s.ev = .ctxDestroy fn → mbCtx s fn ctx = true → ctx < 2 ^ 16 → s.panel.mbStage = 2 → invalsDone s = true →
      Reaches s .ctxDestroy (fun t => Replied t fn r 0 [] ∧ (∀ c ∈ t.ctxs, c.ctx ≠ ctx) ∧ ∀ i ∈ ctxIsls s ctx,
        (∀ k ∈ t.cores, k.isl = i → k.ctx = ctx → k.v = false) ∧ ∀ x ∈ t.timelines, ¬ (x.isl = i ∧ x.ctx = ctx)))
    ∧ (s.ev = .ctxSuspend fn → mbCtx s fn ctx = true → ctx < 2 ^ 16 → islsOk s ctx (r.word 2) = true → s.panel.mbStage = 0 →
      (∀ i ∈ isls, suspendWaits s i ctx = false) → (∀ i ∈ isls, areaFits s i ctx = true) →
      Reaches s .ctxSuspend (fun t => Replied t fn r 0 [] ∧ (∀ i ∈ isls, suspendedOn t i ctx = true) ∧ ∀ i ∈ isls, suspendedOn s i ctx = false →
        ∀ y ∈ t.threads, y.id.kind ≠ .hub → y.id.isl = i → y.id.ctx = ctx → y.runnable = false))
    ∧ (s.ev = .ctxResume fn → mbCtx s fn ctx = true → ctx < 2 ^ 16 → islsOk s ctx (r.word 2) = true →
      (∀ i ∈ isls, suspendedOn s i ctx = true → (∀ c ∈ imagedOn s i ctx, noReply s c = true) ∧ (∀ m ∈ coreImages s i ctx, imageMajor s m = 1 ∧ imageReserved s m = false)
        ∧ areaMapped s i ctx ((coreImages s i ctx).map (fun m => (m.spot, m.kib))) = true) →
      Reaches s .ctxResume (fun t => Replied t fn r 0 [] ∧ (∀ i ∈ isls, suspendedOn t i ctx = false)
        ∧ ∀ i ∈ isls, suspendedOn s i ctx = true → ∀ m ∈ t.images, ¬ (m.isl = i ∧ m.ctx = ctx ∧ m.kind = 2)))
    ∧ (ctx < 2 ^ 16 → mbCtx s fn ctx = false → ∀ i, (i = .ctxDestroy ∧ s.ev = .ctxDestroy fn) ∨ (i = .ctxSuspend ∧ s.ev = .ctxSuspend fn)
        ∨ (i = .ctxResume ∧ s.ev = .ctxResume fn) → Reaches s i (fun t => Replied t fn r 3 []))

/-- R93, R392 to R397: INVAL has each agent of the named islands drop the translations of the context, and ends when every acknowledgement is counted.
PF_DONE wakes the agents that wait for the page. TOPO_READ gives the table. TOPO_FENCE and TOPO_REMAP change it and raise GEN, where no context
names an island concerned, and are refused else, with the contexts that do. -/
def Sys2Proof.Spec.TranslationAndTopologyRequests : Prop :=
  (∀ (s : State) (u a : Nat) (n : Inval), s.ev = .tlbInvalidationAck u a → s.invals.find? (fun n => n.uid = u) = some n → a ∈ n.left →
    (a < 2 → invalOpen (invalDrop s n a) n a = false) →
    (a < 2 → lostTimelines (invalDrop s n a) (fun y va => y.id.isl = n.isl && dieOf y.id.core = a && n.names y.id.ctx va 8) = []) → Reaches s .tlbInvalidationAck (fun t => (∀ m ∈ t.invals, m.uid = u → a ∉ m.left) ∧ (∀ e ∈ t.tlb, e ∈ s.tlb)
      ∧ (∀ e ∈ t.tlb, ∀ c, n.ctx = some c → e.isl = n.isl → e.ctx = c →
        (a = 10 ∧ e.unit = 130) ∨ (a < 2 ∧ (e.unit = 128 + a ∨ (e.unit < 128 ∧ e.unit / 64 = a))) →
        n.base + n.len ≤ e.vbase ∨ e.vbase + e.size ≤ n.base) ∧ MemAs s t))
  ∧ (∀ (s : State) (fn : Nat) (r : MbReq), InHand s fn r →
    let ctx := r.word 1 % 2 ^ 16
    let kind := r.word 1 / 2 ^ 16 % 4
    let isl := r.word 1 / 2 ^ 16 % 256
    let isls := maskIsls (r.word 2)
    (s.ev = .inval fn → s.panel.mbStage = 1 → invalsDone s = true → Reaches s .inval (fun t => Replied t fn r 0 []))
    ∧ (s.ev = .inval fn → s.panel.mbStage = 0 → r.word 1 < 2 ^ 18 → kind < 2 → ctx ≠ 0xFFFF → mbCtx s fn ctx = true →
      islsOk s ctx (r.word 2) = true →
      Reaches s .inval (fun t => t.request? fn = some r ∧ ∀ i ∈ isls, ∃ n ∈ t.invals, n.isl = i ∧ n.ctx = some ctx ∧ n.left = List.range 11
        ∧ n.base = (if kind = 0 then r.word 3 else 0) ∧ n.len = (if kind = 0 then r.word 4 else 2 ^ 64)
        ∧ ∀ a < 11, Event.tlbInvalidationAck n.uid a ∈ t.due))
    ∧ (s.ev = .pfDone fn → r.word 1 < 2 ^ 24 → mbCtx s fn ctx = true → s.ctx? isl ctx ≠ none →
      Reaches s .pfDone (fun t => Replied t fn r 0 [] ∧ ∀ y ∈ s.threads, y.id.kind ≠ .hub → y.id.isl = isl → y.id.ctx = ctx →
        (∃ v, y.sch.park = .page v ∧ v.toNat / 4096 = r.word 2 / 4096) → Event.teamWake y.id.uid ∈ t.due))
    ∧ (s.ev = .topoRead fn → Reaches s .topoRead (fun t => Replied t fn r 0 []
      ∧ ∀ (i : Nat) (b : Byte), (topoBytes s)[i]? = some b → ¬ (r.buf.toNat ≤ r.word 1 + i ∧ r.word 1 + i < r.buf.toNat + 8) →
        spGet t.hostMem (r.word 1 + i) = b))
    ∧ (s.ev = .topoFence fn → fn = 0 → s.panel.mbStage = 0 → r.word 1 / 2 ^ 9 % 128 = 0 → r.word 1 < 2 ^ 16 → ∀ e,
      let v := r.word 1 % 256
      topoOf s v = some e →
      (r.word 1 / 2 ^ 8 % 2 = 1 → e.state ≠ 2 → namersOf s [v] = [] → Reaches s .topoFence (fun t => Replied t fn r 0 []
        ∧ t.panel.topo = s.panel.topo.map (fun x => if x.site < 48 ∧ x.visl = v then { x with state := 2 } else x)
        ∧ t.panel.gen = s.panel.gen + 1))
      ∧ (r.word 1 / 2 ^ 8 % 2 = 1 → e.state ≠ 2 → namersOf s [v] ≠ [] → Reaches s .topoFence (fun t =>
        Replied t fn r 6 ((namersOf s [v]).length :: pack16 ((namersOf s [v]).take 32)) ∧ t.panel.topo = s.panel.topo))
      ∧ (r.word 1 / 2 ^ 8 % 2 = 0 → e.state = 2 → Reaches s .topoFence (fun t => Replied t fn r 0 []
        ∧ t.panel.topo = s.panel.topo.map (fun x => if x.site < 48 ∧ x.visl = v then { x with state := 1 } else x))))
    ∧ (s.ev = .topoRemap fn → fn = 0 → s.panel.mbStage = 0 → r.word 1 < 2 ^ 16 →
      let a := r.word 1 % 256
      let b := r.word 1 / 256
      topoOf s a ≠ none → topoOf s b ≠ none →
      (namersOf s [a, b] ≠ [] → Reaches s .topoRemap (fun t =>
        Replied t fn r 6 ((namersOf s [a, b]).length :: pack16 ((namersOf s [a, b]).take 32)) ∧ t.panel.topo = s.panel.topo))
      ∧ (namersOf s [a, b] = [] → Reaches s .topoRemap (fun t => Replied t fn r 0 []
        ∧ t.panel.topo = s.panel.topo.map (fun x => if x.site < 48 then { x with visl := if x.visl = a then b else if x.visl = b then a else x.visl }
            else x)
        ∧ t.panel.gen = s.panel.gen + 1))))


/-- `ContextRequests` and `TranslationAndTopologyRequests` together. -/
def Obligations.TopologyTranslationAndContexts : Prop := Sys2Proof.Spec.ContextRequests ∧ Sys2Proof.Spec.TranslationAndTopologyRequests

namespace Sys2Proof.Spec

/-- The control block of an island takes a write now: no DISCARD is under way there, and no reset (R399, R416, R417). -/
def Free (s : State) (isl : Nat) : Prop := (s.island isl).discard = none ∧ (s.island isl).resetting = false

end Sys2Proof.Spec

/-- R399, R400, R403 to R405: BUDGET and FWMASK take what is written, and so do the registers that only hold a value. A grant of a free core is kept in
CORECTX and starts the Carter of its context at its entry; a core still in use keeps its context, and ERR is set. A window of energy ends with no
charge and no cut. -/
def Obligations.ControlBlockRegisters : Prop :=
  (∀ (s : State) (isl : Nat) (v : Word64), Free s isl →
    (s.ev = .hearthBudgetWrite isl v → Reaches s .hearthBudgetWrite (fun t => t.island isl = { s.island isl with isl := isl, budget := v.toNat % 2 ^ 16 }
      ∧ (∀ j, j ≠ isl → t.island j = s.island j) ∧ Event.heatGrant isl ∈ t.due ∧ t.cur = s.cur ∧ t.others = s.others ∧ MemAs s t))
    ∧ (s.ev = .fwmaskWrite isl v → Reaches s .fwmaskWrite (fun t => t.island isl = { s.island isl with isl := isl, fwmask := v &&& 0x8000FFFFFFFFFFFF }
      ∧ (∀ j, j ≠ isl → t.island j = s.island j) ∧ { t with islands := s.islands } = s))
    ∧ (∀ f < 32, s.ev = .registerWrite false isl (0x100 + 8 * f) v → Reaches s .registerWrite (fun t =>
      waymask (t.island isl) f = v.truncate 16 ∧ (∀ g, g ≠ f → waymask (t.island isl) g = waymask (s.island isl) g) ∧ { t with islands := s.islands } = s))
    ∧ (∀ f < 32, s.ev = .registerWrite false isl (0x300 + 8 * f) v → Reaches s .registerWrite (fun t =>
      (∀ g, spGet (t.island isl).ecap g = if g = f then v else spGet (s.island isl).ecap g) ∧ { t with islands := s.islands } = s))
    ∧ (s.ev = .registerWrite false isl 0x208 v → Reaches s .registerWrite (fun t =>
      t.island isl = { s.island isl with isl := isl, cutfrac := v.truncate 8 } ∧ { t with islands := s.islands } = s))
    ∧ (∀ core < 128, s.ev = .corectxWrite isl core v → v.getLsbD 31 = true →
      ((s.coreCtx isl core).v = false → Reaches s .corectxWrite (fun t =>
        t.coreCtx isl core = { s.coreCtx isl core with isl := isl, core := core, v := true, err := false, fn := v.toNat / 2 ^ 16 % 32, ctx := v.toNat % 2 ^ 16 }
        ∧ (∀ c, s.ctx? isl (v.toNat % 2 ^ 16) = some c → c.dead = false → coreOffered s isl core = true → ∃ y ∈ t.others, y.id.kind = .carter ∧ y.id.isl = isl ∧ y.id.core = core
          ∧ y.id.ctx = c.ctx ∧ y.sc.pc = c.centry ∧ (c.centry ≠ 0 → y.sch.life = .active) ∧ ∀ r, y.rdS r = 0)))
      ∧ ((s.coreCtx isl core).v = true → v.toNat % 2 ^ 16 ≠ (s.coreCtx isl core).ctx → holdsCore s isl core (s.coreCtx isl core).ctx = true →
        Reaches s .corectxWrite (fun t => t.coreCtx isl core = { s.coreCtx isl core with isl := isl, core := core, err := true }))))
  ∧ (∀ (s : State) (fn : Nat) (v : Word64), s.ev = .registerWrite true fn 0x100 v → inService s = true → fn < 32 →
    Reaches s .registerWrite (fun t => (t.fnRegs fn).mbreq = v ∧ { t with fns := s.fns } = s))
  ∧ (∀ (s : State) (isl : Nat), s.ev = .energyWindow isl →
    Reaches s .energyWindow (fun t => t.meter isl = { s.meter isl with isl := isl, winEnergy := [], cut := [] }
      ∧ (∀ j, j ≠ isl → t.meter j = s.meter j) ∧ { t with meters := s.meters } = s))

/-- R407 to R411, R413: a key that is zeroised leaves its owner's frames meaningless. A range of frames is assigned to a context, or put in quarantine,
where it may be, else FASTAT holds why not. A scrub fixes its set, zeroes a unit each 25 ticks, and clears Q at its last. That a scrub with an empty set is done at once, and that one
asked for while another runs starts when that has ended, are the model's readings (DEDUCED, logs 26 and 40). -/
def Sys2Proof.Spec.FramesKeysAndScrub : Prop :=
  ∀ (s : State) (isl : Nat), Free s isl →
    (∀ k < 64, s.ev = .keyZeroise isl k → Reaches s .keyZeroise (fun t => (t.keySlot isl k).v = false ∧ (t.keySlot isl k).ctx = 0
      ∧ ((s.keySlot isl k).v = true → ∀ f ∈ t.frameInfo, f.isl = isl → f.owner = (s.keySlot isl k).ctx → f.lost = true)
      ∧ (∀ j, j ≠ k → t.keySlot isl j = s.keySlot isl j) ∧ t.stores = s.stores ∧ t.hostMem = s.hostMem))
    ∧ (∀ v : Word64, s.ev = .fareqAssign isl v → v.getLsbD 20 = false →
      let ctx := v.toNat / 2 ^ 48
      let first := v.toNat / 2 ^ 21 % 2 ^ 27
      let n := v.toNat % 2 ^ 20
      let inside := n ≠ 0 ∧ (first + n) * 2 ^ 21 ≤ Config.islandBytes
      let held := ∃ f ∈ s.frameInfo, f.isl = isl ∧ first ≤ f.idx ∧ f.idx < first + n ∧ f.owner ≠ 0 ∧ f.owner ≠ ctx ∧ isProt s isl f.owner = true
      let dirty := ∃ f ∈ s.frameInfo, f.isl = isl ∧ first ≤ f.idx ∧ f.idx < first + n ∧ f.q = true
      (¬ inside ∨ held → Reaches s .fareqAssign (fun t => (t.island isl).fastat = 1 ∧ t.frameInfo = s.frameInfo))
      ∧ (inside → ¬ held → dirty → Reaches s .fareqAssign (fun t => (t.island isl).fastat = 8 ∧ t.frameInfo = s.frameInfo))
      ∧ (inside → ¬ held → ¬ dirty → Reaches s .fareqAssign (fun t => (t.island isl).fastat = 0 ∧ MemAs { s with frameInfo := t.frameInfo } t
        ∧ (∀ i < n, (t.frame isl (first + i)).owner = ctx ∧ (t.frame isl (first + i)).q = (s.frame isl (first + i)).q)
        ∧ ∀ j k, ¬ (j = isl ∧ first ≤ k ∧ k < first + n) → t.frame j k = s.frame j k)))
    ∧ (∀ v : Word64, s.ev = .fareqQuarantine isl v → v.getLsbD 20 = true →
      let first := v.toNat / 2 ^ 21 % 2 ^ 27
      let n := v.toNat % 2 ^ 20
      let inside := n ≠ 0 ∧ (first + n) * 2 ^ 21 ≤ Config.islandBytes
      (¬ inside → Reaches s .fareqQuarantine (fun t => (t.island isl).fastat = 1 ∧ t.frameInfo = s.frameInfo))
      ∧ (inside → Reaches s .fareqQuarantine (fun t => (t.island isl).fastat = 0
        ∧ (∀ i < n, (t.frame isl (first + i)).owner = 0 ∧ (t.frame isl (first + i)).q = true)
        ∧ ∀ j k, ¬ (j = isl ∧ first ≤ k ∧ k < first + n) → t.frame j k = s.frame j k)))
    ∧ (s.ev = .scrubStart isl → (s.island isl).scrubRun = false →
      let set := scrubEntries s isl
      let n := (set.map entryUnits).sum
      Reaches s .scrubStart (fun t => (t.island isl).scrubRun = decide (n ≠ 0) ∧ (t.island isl).scrubTotal = n ∧ (t.island isl).scrubDone = 0
        ∧ (t.island isl).scrubSet = set ∧ (t.island isl).scrubAt = s.cycle))
    ∧ (∀ e : Nat × List (Nat × Nat × Nat) × Nat, s.ev = .scrubUnit isl → (s.island isl).scrubRun = true →
      (s.island isl).scrubAt + 16 * 25 * ((s.island isl).scrubDone + 1) ≤ s.cycle →
      scrubAtUnit (s.island isl).scrubSet (s.island isl).scrubDone = some e →
      let last := (s.island isl).scrubTotal ≤ (s.island isl).scrubDone + 1
      (last → (s.island isl).scrubNext = true → Reaches s .scrubUnit (fun t => (t.island isl).scrubDone = 0 ∧ (t.island isl).scrubNext = false
        ∧ (t.island isl).scrubAt = s.cycle))
      ∧ ((last → (s.island isl).scrubNext = false) → Reaches s .scrubUnit (fun t => (t.island isl).scrubDone = (s.island isl).scrubDone + 1 ∧ ((t.island isl).scrubRun = true ↔ ¬ last)
        ∧ (last → ∀ x ∈ (s.island isl).scrubSet, 128 ≤ x.1 → (t.frame isl (x.1 - 128)).q = false)
        ∧ (128 ≤ e.1 → KeysHeld s → isl ≠ hubIsl → ∀ j < 65536, t.physGet isl ((e.1 - 128) * 2 ^ 21 + e.2.2 * 65536 + j) = 0))))

/-- R412, R416, R417: an island reset takes away its keys, its cores and what its cores hold, closes its firewall and sets its Hearth back; its end
lets the block be written again, and starts a scrub that was asked for meanwhile (log 40). A DISCARD with nothing to wait for leaves no team of the context on the island and none of its grants. -/
def Sys2Proof.Spec.IslandResetAndDiscard : Prop :=
  ∀ (s : State) (isl : Nat),
    (s.ev = .islandReset isl → Free s isl → Reaches s .islandReset (fun t => (t.island isl).resetting = true ∧ (t.island isl).fwmask = 0
      ∧ (t.island isl).budget = 128 ∧ (t.island isl).held = 0 ∧ (t.island isl).reqs = [] ∧ (∀ c ∈ t.cores, c.isl = isl → c.v = false)
      ∧ (∀ k < 64, (t.keySlot isl k).v = false)
      ∧ (∀ core < 256, ∀ sp < 8, ∀ x < 2 ^ 24, t.storeGet isl core sp x = 0)
      ∧ ∀ c ∈ t.ctxs, c.islmask.getLsbD isl = true → c.dead = true))
    ∧ (s.ev = .islandResetEnd isl → (s.island isl).resetting = true → (s.island isl).resetAt + resetCycles ≤ s.cycle →
      Reaches s .islandResetEnd (fun t => (t.island isl).resetting = false
        ∧ ((s.island isl).scrubNext = false ∨ (s.island isl).scrubRun = true → { t with islands := s.islands } = s)
        ∧ ((s.island isl).scrubNext = true → (s.island isl).scrubRun = false → (t.island isl).scrubNext = false
          ∧ (t.island isl).scrubSet = scrubEntries s isl ∧ (t.island isl).scrubAt = s.cycle)
        ∧ ((s.island isl).scrubRun = true → (t.island isl).scrubDone = 0 ∧ (t.island isl).scrubRun = true)))
    ∧ (∀ v : Word64, s.ev = .discard isl v → (s.island isl).resetting = false → (s.island isl).discard = none → v ≠ 0 → v.toNat < 2 ^ 16 →
      discardWaits (discardStop s isl v.toNat) isl v.toNat = false →
      Reaches s .discard (fun t => (t.island isl).discard = none
        ∧ (∀ y ∈ t.threads, y.id.kind = .team → y.id.isl = isl → y.id.ctx = v.toNat → y.sch.life = .ended)
        ∧ (∀ c ∈ t.cores, c.isl = isl → c.ctx = v.toNat → c.v = false) ∧ (∀ e ∈ t.tlb, ¬ (e.isl = isl ∧ e.ctx = v.toNat))
        ∧ (∀ k ∈ t.tasks, ¬ (k.isl = isl ∧ k.ctx = v.toNat)) ∧ (∀ b ∈ t.bindings, ¬ (b.isl = isl ∧ b.ctx = v.toNat))
        ∧ ∀ g ∈ t.groups, ¬ (g.isl = isl ∧ g.ctx = v.toNat)))


/-- `FramesKeysAndScrub` and `IslandResetAndDiscard` together. -/
def Obligations.FramesKeysScrubResetDiscard : Prop := Sys2Proof.Spec.FramesKeysAndScrub ∧ Sys2Proof.Spec.IslandResetAndDiscard

/-- R381, R413, R415, R418 to R420, R422, R423: another hub core's WAKE takes a halted core on at the next word. Errors are counted, listed or marked;
TEMP takes its readings, and at 115 °C the island's cores stop; a link window takes its margin at its end. That the word after the HALT is the next
(log 29), which accesses an error comes after (log 6), the die of a line that is listed and what stops at 115 °C (log 35), and that an error of a unit from 10 on
names nothing (log 38) are the model's choices or readings. -/
def Sys2Proof.Spec.ErrorsTemperatureAndLinks : Prop :=
  (∀ (s : State) (w h : Nat), s.ev = .hubWake w h → w ≠ h → (∃ c ∈ s.panel.hubs, c.hub = h ∧ c.halted = true ∧ c.fault = false) →
    Reaches s .hubWake (fun t => (∀ c ∈ t.panel.hubs, c.hub = h → c.halted = false)
      ∧ (s.cur.id.kind = .hub → s.cur.id.core = h → t.cur.sch.life = .active
        ∧ ((∀ l ∈ s.cur.sc.loops, l.last ≠ s.cur.sc.pc) → t.cur.sc.pc = s.cur.sc.pc + 4))
      ∧ (∀ u ∈ t.others, u.id.kind = .hub → u.id.core = h → u.sch.life = .active)
      ∧ (¬ (s.cur.id.kind = .hub ∧ s.cur.id.core = h) → t.cur = s.cur) ∧ MemAs s t))
  ∧ (∀ (s : State) (isl unit : Nat), s.ev = .correctedError isl unit →
    (unit < 8 → Reaches s .correctedError (fun t => ∀ k, spGet (t.island isl).cecnt k = spGet (s.island isl).cecnt k + (if k = unit then 1 else 0)))
    ∧ (unit = 8 ∨ unit = 9 → Reaches s .correctedError (fun t =>
      ∀ k, spGet (t.island isl).cecore k = spGet (s.island isl).cecore k + (if k + 8 = unit then 1 else 0)))
    ∧ (10 ≤ unit → exec .correctedError s = .next s))
  ∧ (∀ (s : State) (isl sp core a : Nat), s.ev = .uncorrectableError isl sp core a →
    let die := Config.sliceHash (a / 128) % 8
    let s0 := beforeFailure s isl (a / 128)
    ((∀ x ∈ s.ord.late, x.isl ≠ isl) → (∀ q ∈ s.atoms, ¬ (q.key / 2 ^ 48 = isl ∧ q.key % 2 ^ 48 / 128 = a / 128)) → s0 = s)
    ∧ (sp = 0 → a < Config.islandBytes → (∀ b ∈ (s0.island isl).blt, b.2 ≠ a / 128) →
      (((s0.island isl).blt.filter (fun b => b.1 = die)).length < 64 → Reaches s .uncorrectableError (fun t =>
        (t.island isl).blt = (s0.island isl).blt ++ [(die, a / 128)] ∧ (t.island isl).uecnt = (s0.island isl).uecnt + 1))
      ∧ (64 ≤ ((s0.island isl).blt.filter (fun b => b.1 = die)).length → Reaches s .uncorrectableError (fun t =>
        (t.frame isl (a / 2 ^ 21)).q = true ∧ (t.island isl).blt = (s0.island isl).blt ∧ MemAs { s0 with frameInfo := t.frameInfo } t)))
    ∧ (1 ≤ sp → sp < 5 → Reaches s .uncorrectableError (fun t => storeKey isl core sp a ∈ (t.island isl).marks
      ∧ (∀ k, k ≠ storeKey isl core sp a → (k ∈ (t.island isl).marks ↔ k ∈ (s0.island isl).marks)) ∧ { t with islands := s0.islands } = s0))
    ∧ (5 ≤ sp → Reaches s .uncorrectableError (fun t => { t with l1 := s0.l1 } = s0 ∧ ∀ l ∈ s0.l1, ∃ m ∈ t.l1,
      m = (if l.isl = isl ∧ l.core = core ∧ l.line = a / 128 then { l with marked := maskSet l.marked (a % 128) true } else l))))
  ∧ (∀ (s : State) (isl : Nat) (inlet hot : BitVec 16), s.ev = .temperatureCrossing isl inlet hot → hot.toInt < 115 * 16 →
    Reaches s .temperatureCrossing (fun t => t.island isl = { s.island isl with isl := isl, temp := inlet ++ hot }
      ∧ (hot.toInt ≤ 95 * 16 → { t with islands := s.islands } = s)))
  ∧ (∀ (s : State) (isl : Nat) (inlet hot : BitVec 16), s.ev = .temperatureCrossing isl inlet hot → 115 * 16 ≤ hot.toInt →
    Reaches s .temperatureCrossing (fun t => (t.island isl).temp = inlet ++ hot
      ∧ ∀ y ∈ t.threads, y.id.kind ≠ .hub → y.id.isl = isl → y.runnable = false))
  ∧ (∀ (s : State) (isl plane : Nat) (m : BitVec 8), s.ev = .linkWindowEnd isl plane m → plane < 8 → (∀ f ∈ s.panel.fencing, f.1 ≠ isl) →
    (s.cycle / windowCycles ≤ (spGet (s.island isl).winDone plane).toNat → exec .linkWindowEnd s = .next s)
    ∧ ((spGet (s.island isl).winDone plane).toNat < s.cycle / windowCycles → s.cycle / windowCycles < 2 ^ 64 →
    (spGet (s.island isl).winRetry plane).toNat * 1024 ≤ (spGet (s.island isl).winSent plane).toNat → 10 ≤ m.toNat →
    Reaches s .linkWindowEnd (fun t => (t.island isl).margin = (plane, m) :: (s.island isl).margin.filter (fun x => x.1 ≠ plane)
      ∧ spGet (t.island isl).winSent plane = 0 ∧ spGet (t.island isl).winRetry plane = 0
      ∧ (spGet (t.island isl).winDone plane).toNat = s.cycle / windowCycles)))

/-- R393, R415, R418, R423: FWGO takes the bytes at FWADDR, which go to the flash where they verify; a hub reset that nothing holds up empties the
queues, takes the image in the flash and starts the hub cores at its entry, with no context left, or else the ROM loader waits; a measurement
answers; at power-on nothing is left but the host's memory and the flash; a loss of power during a load leaves an image that does not verify. That a hub
core's registers and every memory are zero after a reset or at power-on (logs 2 and 3), what of the topology and the hub's memory a hub reset keeps and
the form of a measurement (log 36), and that every site is as a populated panel's at power-on (log 11) are the model's choices or readings. -/
def Sys2Proof.Spec.FirmwareResetAndPower : Prop :=
  (∀ s : State, s.ev = .fwLoad → Reaches s .fwLoad (fun t => t.panel.fwstat = 1 ∧ { t with panel := s.panel } = s ∧ (s.panel.fwstat = 1 → t = s)
    ∧ (s.panel.fwstat ≠ 1 → t.panel.loading = getBytes s.hostMem s.panel.fwaddr.toNat s.panel.fwlen.toNat)))
  ∧ (∀ (s : State) (good : Bool), s.ev = .fwVerifyComplete good → s.panel.fwstat = 1 → Reaches s .fwVerifyComplete (fun t =>
    t.panel.fwstat = (if good then 2 else 3) ∧ t.panel.staged = (good || s.panel.staged) ∧ t.panel.flashGood = (good || s.panel.flashGood)
    ∧ t.panel.flash = (if good then s.panel.loading else s.panel.flash)))
  ∧ (∀ (s : State) (good : Bool), s.ev = .hubReset good →
    let s1 := if s.panel.mbStage = 3 then s else resetStart s
    resetWaits (((s1.ctxs.map (fun c => c.ctx)).eraseDups).foldl abandonStopped s1) = false →
    let up := s.panel.flashGood && good
    Reaches s .hubReset (fun t => t.queues = [] ∧ (up = true → t.ctxs = []) ∧ t.panel.recovery = !up ∧ t.panel.fwstat = (if up then 0 else 4)
      ∧ t.panel.flash = s.panel.flash ∧ t.panel.active = (if up then s.panel.flash else s.panel.active)
      ∧ (∀ u ∈ t.threads, u.id.kind = .hub → u.sc.pc = Config.firmwareEntry ∧ u.sch.life = (if up then .active else .halted) ∧ ∀ r, u.rdS r = 0)
      ∧ t.panel.topo = s.panel.topo
      ∧ (s.ctxs = [] → t.islands = s.islands ∧ t.mem = s.mem ∧ t.hubMem = s.hubMem ∧ t.frameInfo = s.frameInfo)))
  ∧ (∀ (s : State) (b : Nat), s.ev = .spdmRequest b →
    Reaches s .spdmRequest (fun t => t.panel.spdm = s.panel.spdm ++ (if 1 ≤ b ∧ b ≤ 4 then [(b, measured s b)] else []) ∧ { t with panel := s.panel } = s))
  ∧ (∀ s : State, s.ev = .powerOn → s.panel.power = false → Reaches s .powerOn (fun t => t.panel.power = true ∧ t.hostMem = s.hostMem
    ∧ { t with hostMem := State.reset.hostMem, agenda := State.reset.agenda, fresh := State.reset.fresh, ev := State.reset.ev,
               panel := State.reset.panel, cur := State.reset.cur, others := State.reset.others } = State.reset
    ∧ t.mem = [] ∧ t.stores = [] ∧ t.hubMem = [] ∧ t.ctxs = [] ∧ t.islands = [] ∧ t.cycle = 0 ∧ t.panel.flashGood = s.panel.flashGood
    ∧ t.panel.flash = s.panel.flash ∧ t.panel.active = (if s.panel.flashGood then s.panel.flash else [])
    ∧ (∀ e ∈ t.panel.topo, e.state = 1 ∨ e.state = 0 ∨ e.state = 2)
    ∧ ∀ u ∈ t.threads, u.id.kind = .hub ∧ u.sc.pc = Config.firmwareEntry ∧ u.sch.life = (if s.panel.flashGood then .active else .halted)))
  ∧ (∀ (s : State) (f : Bool), s.ev = .powerLoss f → Reaches s .powerLoss (fun t => t.panel = { s.panel with power := false, flashGood := t.panel.flashGood }
    ∧ (t.panel.flashGood = true ↔ s.panel.flashGood = true ∧ ¬ (f = true ∧ s.panel.fwstat = 1)) ∧ { t with panel := s.panel } = s))


/-- `ErrorsTemperatureAndLinks` and `FirmwareResetAndPower` together. -/
def Obligations.HealthFirmwareAndPower : Prop := Sys2Proof.Spec.ErrorsTemperatureAndLinks ∧ Sys2Proof.Spec.FirmwareResetAndPower

/-- R5, R34, R35, R45, R76, R81, R208, R219, R228: with nothing on the agenda the running agent executes the instruction to which the four bytes that its
core sees at its pc decode, where it may issue, or issues the one at the head of a stream of its vector queue, the other stream's where that one waits; an
older team of its core that launches with one entry of the pending-launch queue free goes first; a word that is no instruction of the
agent's traps ILLEGAL_INSN, and a fetch that faults takes that cause. A round of turns follows. The model's agenda, rounds and idle steps are
its own (logs 1, 5, 6). -/
def Obligations.StepRunsDecoded : Prop :=
  (∀ (s s1 : State) (pa mt : Nat), probeGlobal s s.cur.sc.pc.toNat 4 .fetch = (s1, .ok pa mt) → gBad s1 s.cur.mIsl s.cur.id.core pa 4 = false →
    (fetchWord s).2 = .word (BitVec.ofNat 32 (leNat (seenBytes (roomed s1 s.cur.mIsl s.cur.id.core pa (typePolicy (decide (mt = 1)))) s.cur.mIsl s.cur.id.core pa 4))))
  ∧ (∀ (s s1 : State) (w : Word32), s.agenda = [] → s.panel.power = true → s.cur.runnable = true → s.cur.sl.quiet = true →
    olderLauncher s = none → fetchWord s = (s1, .word w) →
    (∀ i, decode (wordBytes w.toNat) = .ok (i, []) → i.allocOk s1.cur.id.vregs = true → i.agentOk s1.cur.id.kind = true →
      (s1.cur.ready i = true → step s = after (exec i ((s1.latch w).pass w)) State.withRound)
      ∧ (s1.cur.ready i = false → step s = .next (stall s1).withRound))
    ∧ ((∀ i, decode (wordBytes w.toNat) = .ok (i, []) → i.allocOk s1.cur.id.vregs = false ∨ i.agentOk s1.cur.id.kind = false) →
      step s = after (exec .illegalInsn ((s1.latch w).withEv (.illegalInsn w))) State.withRound
      ∧ step s = .next (takeTrap ((s1.latch w).withEv (.illegalInsn w)) (plainFx causeIllegal)).withRound))
  ∧ (∀ (s s1 : State) (p : Probe), s.agenda = [] → s.panel.power = true → s.cur.runnable = true → s.cur.sl.quiet = true →
    olderLauncher s = none → fetchWord s = (s1, .bad p) → step s = after (exec .instructionFetchFault (s1.withEv .instructionFetchFault)) State.withRound)
  ∧ (∀ (s : State) (b : Bool) (e : QEntry) (r : List (Bool × QEntry)), s.agenda = [] → s.panel.power = true → s.cur.runnable = true →
    s.cur.sl.quiet = false → olderLauncher s = none → s.cur.nextStreams = (b, e) :: r →
    let run := fun (b : Bool) (e : QEntry) => after (exec e.instr (s.updCur (Thread.atEntry b e))) (fun t =>
      t.updT s.cur.id.uid (if stops e.word then Thread.afterStop b e s.cur else Thread.afterEntry b e s.cur))
    (stalledAt s.cur.id.uid e (run b e) = false → step s = after (run b e) State.withRound)
    ∧ ∀ b' e', r = [(b', e')] → stalledAt s.cur.id.uid e (run b e) = true → stalledAt s.cur.id.uid e' (run b' e') = false →
      step s = after (run b' e') State.withRound)
  ∧ (∀ (s : State) (u : Nat), s.agenda = [] → s.panel.power = true → s.cur.runnable = true → olderLauncher s = some u →
    step s = after (runOne (switchTo s u)) State.withRound)
  ∧ (∀ (s : State) (u : Nat) (r : List Turn), s.agenda = .run u :: r → s.panel.power = true →
    let s0 := switchTo { s with agenda := r } u
    (s0.cur.id.uid ≠ u ∨ s0.cur.runnable = false → step s = .next { s with agenda := r })
    ∧ ∀ (s1 : State) (w : Word32) (i : Instr), s0.cur.id.uid = u → s0.cur.runnable = true → s0.cur.sl.quiet = true →
      olderLauncher s0 = none → fetchWord s0 = (s1, .word w) → decode (wordBytes w.toNat) = .ok (i, []) → i.allocOk s1.cur.id.vregs = true →
      i.agentOk s1.cur.id.kind = true → s1.cur.ready i = true → step s = exec i ((s1.latch w).pass w))
  ∧ (∀ (s s1 : State) (c : BitVec 16) (v : Word64), fetchWord s = (s1, .bad (.bad c v)) → exec .instructionFetchFault s =
    .next (takeTrap (s1.take.2.latch ((Config.freeWord s1.fresh).truncate 32)) (addrFx c v 0 0)))
  ∧ (∀ (s s1 : State) (v : Word64), fetchWord s = (s1, .bad (.page v)) → exec .instructionFetchFault s = .next (parkPage s1 v 0))
  ∧ (∀ (s : State) (e : Event) (r : List Turn), s.agenda = .event e :: r → s.panel.power = true →
    step s = exec e.instr (({ s with agenda := r } : State).withEv e))
  ∧ (∀ (s : State) (u : Nat), s.agenda = [] → s.panel.power = true → s.cur.runnable = false → nextAgent s = some u →
    (switchTo s u).cur.runnable = true → step s = step (switchTo s u))
  ∧ (∀ (s : State) (e : Event) (r : List Event), s.agenda = [] → s.panel.power = true → s.cur.runnable = false → nextAgent s = none →
    s.due = e :: r → step s = exec e.instr (({ s with due := r } : State).withEv e))

/-- R208, R211, R216, R219, R220: words written out from the tables decode to their instructions, and words that fail a step of R219 are
refused at that step. -/
def Obligations.DecodeWords : Prop :=
  decodeWord 0 = .ok .nop
  ∧ decodeWord 0b000001_000001_000010_000011_00000000 = .ok (.sadd 1 2 3)
  ∧ decodeWord 0b011110_001_000_0_0000001_000_000000000 = .ok (.vcmpi 1 0 1 0 0)
  ∧ decodeWord 0b000101_010_010_000101_000110_00000000 = .ok (.scmp 2 2 5 6)
  ∧ decodeWord 0b100101_00001_00010_00011_00100_000_00_0 = .ok (.fma 1 2 3 4 0)
  ∧ decodeWord 0b111101_0001000_000101_1_000100_000_001 = .ok (.rldD 8 5 1 4 0)
  ∧ decodeWord 0b001011_01_0000000000001010_00000010 = .ok (.loophi 10 2)
  ∧ decodeWord 0b110100_0000010_0000111_000100_000_010 = .ok (.ldg 2 7 4 0 2)
  ∧ decodeWord 0b111010_00000100_000000_000000_000000 = .ok (.cinbox 0)
  ∧ decodeWord 0xFFFFFFFF = .ok (.hintKindNoop 15 0x3FFFFF)
  ∧ decodeWord 0x3C000000 = .error .major ∧ decodeWord 0x5C000003 = .error .member ∧ decodeWord 0x15714600 = .error .member
  ∧ decodeWord 0x94221901 = .error .reservedBits ∧ decodeWord 0xD0107107 = .error .codeField
  ∧ decodeWord 0b110100_0000011_0000111_000100_000_011 = .error .registers

/-- R380, R381, R393, R399, R400, R405, R418: after power-on the four hub cores are active at the firmware entry, no context is live, no island has a grant,
and every populated site is in service. A value that the specification does not give is the model's
choice, in log 2 and log 3, and so are the sites that are populated and their numbers, in log 11. -/
def Obligations.ResetState : Prop :=
  (∀ t ∈ State.reset.threads, t.id.kind = .hub ∧ t.sch.life = .active ∧ t.sc.pc = Config.firmwareEntry)
  ∧ State.reset.threads.map (fun t => t.id.core) = [0, 1, 2, 3]
  ∧ State.reset.ctxs = [] ∧ State.reset.queues = [] ∧ State.reset.cycle = 0 ∧ State.reset.panel.fwstat = 0
  ∧ (∀ i, (State.reset.island i).budget = 128 ∧ (State.reset.island i).held = 0 ∧ (State.reset.island i).fwmask = 0
    ∧ (State.reset.island i).resetting = false ∧ (State.reset.island i).fastat = 0)
  ∧ (∀ i core, (State.reset.coreCtx i core).v = false) ∧ (∀ i k, (State.reset.keySlot i k).v = false)
  ∧ (∀ e ∈ State.reset.panel.topo, (e.site < Config.nisl → e.state = 1 ∧ e.visl = e.site) ∧ (e.site = 48 → e.state = 1)
    ∧ (Config.nisl ≤ e.site → e.site < 48 → e.state = 0))
  ∧ (∀ t ∈ State.reset.threads, (∀ r, t.rdS r = 0) ∧ t.tr.handler = false)
  ∧ State.reset.memWf = true

/-- R208, R209, R211, R216, R219: the word of a well-formed instruction decodes to that instruction, with every operand at every value, and
every word that decodes is the word of the instruction that it gives. -/
def Obligations.DecodeEncodeAgree : Prop :=
  (∀ (i : Instr) (w : Nat) (rest : List Byte), i.wf = true → encodeWord i = some w →
    w < 2 ^ 32 ∧ decodeWord w = .ok i ∧ encode i = some (wordBytes w) ∧ decode (wordBytes w ++ rest) = .ok (i, rest))
  ∧ (∀ (i : Instr) (w : Nat), w < 2 ^ 32 → decodeWord w = .ok i → i.wf = true ∧ encodeWord i = some w)

/-- Every step keeps every memory in its canonical form: addresses strictly rising, and no byte that an unlisted address reads as, in the islands'
memory, the typed stores, the hub's memory and the host's (the model's own representation, log 3). -/
def Obligations.StepKeepsMemoriesCanonical : Prop :=
  ∀ s t : State, s.memWf = true → step s = .next t → t.memWf = true


end Statements
end

