-- ==== Sys2Proof/Laws/Sparse.lean ====
section
/-!
SUPPORT. The laws of sparse maps: a read after a write, a write elsewhere, and the canonical form, which every operation keeps.
-/
namespace Sys2Proof.Laws

open Sys2Proof.Machine

variable {w : Nat}

@[simp] theorem spGet_nil (a : Nat) : spGet ([] : Sparse w) a = 0 := rfl

/-- Below the bound of a canonical map nothing is listed. -/
theorem spGet_below {lo : Nat} {m : Sparse w} (h : spWfFrom lo m = true) {a : Nat} (ha : a < lo) : spGet m a = 0 := by
  induction m generalizing lo with
  | nil => rfl
  | cons c r ih =>
    obtain ⟨k, v⟩ := c
    simp only [spWfFrom, Bool.and_eq_true, decide_eq_true_eq] at h
    simp only [spGet]
    rw [if_neg (by omega)]
    exact ih h.2 (by omega)

theorem spWfFrom_mono {lo lo' : Nat} (hl : lo' ≤ lo) {m : Sparse w} (h : spWfFrom lo m = true) : spWfFrom lo' m = true := by
  cases m with
  | nil => rfl
  | cons c r =>
    simp only [spWfFrom, Bool.and_eq_true, decide_eq_true_eq] at *
    exact ⟨⟨by omega, h.1.2⟩, h.2⟩

/-- A map without a key reads 0 there, and as before elsewhere. -/
theorem spGet_spErase (m : Sparse w) (a b : Nat) : spGet (spErase m a) b = if b = a then 0 else spGet m b := by
  induction m with
  | nil => simp [spErase]
  | cons c r ih =>
    obtain ⟨k, v⟩ := c
    by_cases hk : k = a <;> by_cases hb : b = a <;> by_cases hkb : k = b <;> simp_all [spErase, spGet]

/-- A read after a write: the value written at the key, and every other key as before. -/
theorem spGet_spSet (m : Sparse w) (a b : Nat) (x : BitVec w) : spGet (spSet m a x) b = if b = a then x else spGet m b := by
  induction m with
  | nil =>
    by_cases hx : x = 0
    · simp [spSet, hx]
    · by_cases hb : b = a
      · rw [spSet, if_neg hx]; simp [spGet, hb]
      · rw [spSet, if_neg hx]; simp [spGet, hb, Ne.symm hb]
  | cons c r ih =>
    obtain ⟨k, v⟩ := c
    simp only [spSet]
    split
    · rename_i hlt
      simp only [spGet, ih]
      by_cases hb : b = a
      · subst hb; simp [show ¬ k = b by omega]
      · simp [hb]
    · split
      · rename_i hx; rw [spGet_spErase]; simp [hx]
      · simp only [spGet, spGet_spErase]
        by_cases hb : b = a
        · simp [hb]
        · simp [hb, Ne.symm hb]

theorem spErase_wfFrom {lo : Nat} {m : Sparse w} (h : spWfFrom lo m = true) (a : Nat) : spWfFrom lo (spErase m a) = true := by
  induction m generalizing lo with
  | nil => rfl
  | cons c r ih =>
    obtain ⟨k, v⟩ := c
    simp only [spWfFrom, Bool.and_eq_true, decide_eq_true_eq] at h
    simp only [spErase]
    split
    · exact spWfFrom_mono (by omega) (ih h.2)
    · simp only [spWfFrom, Bool.and_eq_true, decide_eq_true_eq]
      exact ⟨h.1, ih h.2⟩

/-- Keys at or below the erased one are gone once the head lies above it. -/
theorem spErase_from {lo : Nat} {m : Sparse w} (h : spWfFrom lo m = true) {a : Nat} (ha : a ≤ lo) :
    spWfFrom (a + 1) (spErase m a) = true := by
  induction m generalizing lo with
  | nil => rfl
  | cons c r ih =>
    obtain ⟨k, v⟩ := c
    simp only [spWfFrom, Bool.and_eq_true, decide_eq_true_eq] at h
    simp only [spErase]
    split
    · exact ih h.2 (by omega)
    · simp only [spWfFrom, Bool.and_eq_true, decide_eq_true_eq]
      exact ⟨⟨by omega, h.1.2⟩, spErase_wfFrom h.2 a⟩

theorem spSet_wfFrom {lo : Nat} {m : Sparse w} (h : spWfFrom lo m = true) {a : Nat} (ha : lo ≤ a) (x : BitVec w) :
    spWfFrom lo (spSet m a x) = true := by
  induction m generalizing lo with
  | nil =>
    by_cases hx : x = 0
    · simp [spSet, hx, spWfFrom]
    · rw [spSet, if_neg hx]
      simp only [spWfFrom, Bool.and_eq_true, decide_eq_true_eq]
      exact ⟨⟨ha, hx⟩, trivial⟩
  | cons c r ih =>
    obtain ⟨k, v⟩ := c
    have h' := h
    simp only [spWfFrom, Bool.and_eq_true, decide_eq_true_eq] at h'
    simp only [spSet]
    split
    · simp only [spWfFrom, Bool.and_eq_true, decide_eq_true_eq]
      exact ⟨h'.1, ih h'.2 (by omega)⟩
    · split
      · exact spErase_wfFrom h a
      · rename_i hk hx
        simp only [spWfFrom, Bool.and_eq_true, decide_eq_true_eq]
        refine ⟨⟨ha, hx⟩, ?_⟩
        simp only [spErase]
        split
        · exact spErase_from h'.2 (by omega)
        · simp only [spWfFrom, Bool.and_eq_true, decide_eq_true_eq]
          exact ⟨⟨by omega, h'.1.2⟩, spErase_wfFrom h'.2 a⟩

/-- A write keeps the canonical form. -/
theorem spSet_wf {m : Sparse w} (h : spWf m = true) (a : Nat) (x : BitVec w) : spWf (spSet m a x) = true :=
  spSet_wfFrom h (Nat.zero_le a) x

/-- A map without a key keeps the canonical form. -/
theorem spErase_wf {m : Sparse w} (h : spWf m = true) (a : Nat) : spWf (spErase m a) = true := spErase_wfFrom h a

theorem filter_wfFrom {lo : Nat} {m : Sparse w} (h : spWfFrom lo m = true) (p : Nat × BitVec w → Bool) :
    spWfFrom lo (m.filter p) = true := by
  induction m generalizing lo with
  | nil => rfl
  | cons c r ih =>
    obtain ⟨k, v⟩ := c
    simp only [spWfFrom, Bool.and_eq_true, decide_eq_true_eq] at h
    simp only [List.filter_cons]
    split
    · simp only [spWfFrom, Bool.and_eq_true, decide_eq_true_eq]
      exact ⟨h.1, ih h.2⟩
    · exact spWfFrom_mono (by omega) (ih h.2)

/-- Entries dropped from a map leave it canonical. -/
theorem filter_wf {m : Sparse w} (h : spWf m = true) (p : Nat × BitVec w → Bool) : spWf (m.filter p) = true := filter_wfFrom h p

/-- Entries set one after another keep the canonical form. -/
theorem foldl_spSet_wf {α : Type} (f : α → Nat) (g : α → BitVec w) (l : List α) {m : Sparse w} (h : spWf m = true) :
    spWf (l.foldl (fun r c => spSet r (f c) (g c)) m) = true := by
  induction l generalizing m with
  | nil => exact h
  | cons c r ih => exact ih (spSet_wf h _ _)

/-- Cells set one after another keep the canonical form. -/
theorem setCells_wf {m : Memory} (h : Memory.wf m = true) (cs : List (Nat × Byte)) : Memory.wf (setCells m cs) = true := by
  induction cs generalizing m with
  | nil => exact h
  | cons c r ih => exact ih (spSet_wf h _ _)

/-- Bytes stored upward keep the canonical form. -/
theorem setBytes_wf {m : Memory} (h : Memory.wf m = true) (a : Nat) (bs : List Byte) : Memory.wf (setBytes m a bs) = true := by
  induction bs generalizing m a with
  | nil => exact h
  | cons b r ih => exact ih (spSet_wf h _ _) _

/-- A byte outside the stored range reads as before. -/
theorem spGet_setBytes_outside (m : Memory) (a : Nat) (bs : List Byte) (k : Nat) (h : k < a ∨ a + bs.length ≤ k) :
    spGet (setBytes m a bs) k = spGet m k := by
  induction bs generalizing m a with
  | nil => rfl
  | cons b r ih =>
    simp only [List.length_cons] at h
    rw [setBytes, ih _ _ (by omega), spGet_spSet, if_neg (by omega)]

/-- A byte of the stored range reads as stored. -/
theorem spGet_setBytes_inside (m : Memory) (a : Nat) (bs : List Byte) (i : Nat) (h : i < bs.length) :
    spGet (setBytes m a bs) (a + i) = bs[i] := by
  induction bs generalizing m a i with
  | nil => exact absurd h (by simp)
  | cons b r ih =>
    cases i with
    | zero => rw [setBytes, spGet_setBytes_outside _ _ _ _ (by omega), spGet_spSet]; simp
    | succ j =>
      simp only [List.length_cons] at h
      rw [setBytes, show a + (j + 1) = a + 1 + j by omega, ih _ _ _ (by omega)]
      rfl

/-- A key that no cell names reads as before. -/
theorem spGet_setCells_outside (m : Memory) (cs : List (Nat × Byte)) (k : Nat) (h : ∀ c ∈ cs, c.1 ≠ k) :
    spGet (setCells m cs) k = spGet m k := by
  induction cs generalizing m with
  | nil => rfl
  | cons c r ih =>
    obtain ⟨a, b⟩ := c
    rw [setCells, ih _ (fun c hc => h c (List.mem_cons_of_mem _ hc)), spGet_spSet,
      if_neg (fun e => h (a, b) List.mem_cons_self e.symm)]

end Sys2Proof.Laws
end

