-- ==== Sys2Proof/Laws/State.lean ====
section
/-!
SUPPORT. What each update of the state leaves as it was: one lemma per field and update, all true by definition, so that no proof unfolds
an update.
-/
namespace Sys2Proof.Laws

open Sys2Proof.Machine


/-! ### `updCur` -/

@[simp] theorem updCur_cur (s : State) (f : Thread → Thread) : (s.updCur f).cur = f s.cur := rfl
@[simp] theorem updCur_others (s : State) (f : Thread → Thread) : (s.updCur f).others = s.others := rfl
@[simp] theorem updCur_agenda (s : State) (f : Thread → Thread) : (s.updCur f).agenda = s.agenda := rfl
@[simp] theorem updCur_due (s : State) (f : Thread → Thread) : (s.updCur f).due = s.due := rfl
@[simp] theorem updCur_ev (s : State) (f : Thread → Thread) : (s.updCur f).ev = s.ev := rfl
@[simp] theorem updCur_fresh (s : State) (f : Thread → Thread) : (s.updCur f).fresh = s.fresh := rfl
@[simp] theorem updCur_cycle (s : State) (f : Thread → Thread) : (s.updCur f).cycle = s.cycle := rfl
@[simp] theorem updCur_mem (s : State) (f : Thread → Thread) : (s.updCur f).mem = s.mem := rfl
@[simp] theorem updCur_stores (s : State) (f : Thread → Thread) : (s.updCur f).stores = s.stores := rfl
@[simp] theorem updCur_hubMem (s : State) (f : Thread → Thread) : (s.updCur f).hubMem = s.hubMem := rfl
@[simp] theorem updCur_hostMem (s : State) (f : Thread → Thread) : (s.updCur f).hostMem = s.hostMem := rfl
@[simp] theorem updCur_l1 (s : State) (f : Thread → Thread) : (s.updCur f).l1 = s.l1 := rfl
@[simp] theorem updCur_victims (s : State) (f : Thread → Thread) : (s.updCur f).victims = s.victims := rfl
@[simp] theorem updCur_tlb (s : State) (f : Thread → Thread) : (s.updCur f).tlb = s.tlb := rfl
@[simp] theorem updCur_carters (s : State) (f : Thread → Thread) : (s.updCur f).carters = s.carters := rfl
@[simp] theorem updCur_launchQ (s : State) (f : Thread → Thread) : (s.updCur f).launchQ = s.launchQ := rfl
@[simp] theorem updCur_waybills (s : State) (f : Thread → Thread) : (s.updCur f).waybills = s.waybills := rfl
@[simp] theorem updCur_streams (s : State) (f : Thread → Thread) : (s.updCur f).streams = s.streams := rfl
@[simp] theorem updCur_yard (s : State) (f : Thread → Thread) : (s.updCur f).yard = s.yard := rfl
@[simp] theorem updCur_timelines (s : State) (f : Thread → Thread) : (s.updCur f).timelines = s.timelines := rfl
@[simp] theorem updCur_counters (s : State) (f : Thread → Thread) : (s.updCur f).counters = s.counters := rfl
@[simp] theorem updCur_waitMsgs (s : State) (f : Thread → Thread) : (s.updCur f).waitMsgs = s.waitMsgs := rfl
@[simp] theorem updCur_ctxs (s : State) (f : Thread → Thread) : (s.updCur f).ctxs = s.ctxs := rfl
@[simp] theorem updCur_bindings (s : State) (f : Thread → Thread) : (s.updCur f).bindings = s.bindings := rfl
@[simp] theorem updCur_groups (s : State) (f : Thread → Thread) : (s.updCur f).groups = s.groups := rfl
@[simp] theorem updCur_mcasts (s : State) (f : Thread → Thread) : (s.updCur f).mcasts = s.mcasts := rfl
@[simp] theorem updCur_firings (s : State) (f : Thread → Thread) : (s.updCur f).firings = s.firings := rfl
@[simp] theorem updCur_tiles (s : State) (f : Thread → Thread) : (s.updCur f).tiles = s.tiles := rfl
@[simp] theorem updCur_tasks (s : State) (f : Thread → Thread) : (s.updCur f).tasks = s.tasks := rfl
@[simp] theorem updCur_coaches (s : State) (f : Thread → Thread) : (s.updCur f).coaches = s.coaches := rfl
@[simp] theorem updCur_pushes (s : State) (f : Thread → Thread) : (s.updCur f).pushes = s.pushes := rfl
@[simp] theorem updCur_launches (s : State) (f : Thread → Thread) : (s.updCur f).launches = s.launches := rfl
@[simp] theorem updCur_frames (s : State) (f : Thread → Thread) : (s.updCur f).frames = s.frames := rfl
@[simp] theorem updCur_atoms (s : State) (f : Thread → Thread) : (s.updCur f).atoms = s.atoms := rfl
@[simp] theorem updCur_ord (s : State) (f : Thread → Thread) : (s.updCur f).ord = s.ord := rfl
@[simp] theorem updCur_invals (s : State) (f : Thread → Thread) : (s.updCur f).invals = s.invals := rfl
@[simp] theorem updCur_images (s : State) (f : Thread → Thread) : (s.updCur f).images = s.images := rfl
@[simp] theorem updCur_cores (s : State) (f : Thread → Thread) : (s.updCur f).cores = s.cores := rfl
@[simp] theorem updCur_frameInfo (s : State) (f : Thread → Thread) : (s.updCur f).frameInfo = s.frameInfo := rfl
@[simp] theorem updCur_keys (s : State) (f : Thread → Thread) : (s.updCur f).keys = s.keys := rfl
@[simp] theorem updCur_islands (s : State) (f : Thread → Thread) : (s.updCur f).islands = s.islands := rfl
@[simp] theorem updCur_meters (s : State) (f : Thread → Thread) : (s.updCur f).meters = s.meters := rfl
@[simp] theorem updCur_queues (s : State) (f : Thread → Thread) : (s.updCur f).queues = s.queues := rfl
@[simp] theorem updCur_fns (s : State) (f : Thread → Thread) : (s.updCur f).fns = s.fns := rfl
@[simp] theorem updCur_panel (s : State) (f : Thread → Thread) : (s.updCur f).panel = s.panel := rfl

/-! ### `mapT` -/

@[simp] theorem mapT_cur (s : State) (f : Thread → Thread) : (s.mapT f).cur = f s.cur := rfl
@[simp] theorem mapT_others (s : State) (f : Thread → Thread) : (s.mapT f).others = s.others.map f := rfl
@[simp] theorem mapT_agenda (s : State) (f : Thread → Thread) : (s.mapT f).agenda = s.agenda := rfl
@[simp] theorem mapT_due (s : State) (f : Thread → Thread) : (s.mapT f).due = s.due := rfl
@[simp] theorem mapT_ev (s : State) (f : Thread → Thread) : (s.mapT f).ev = s.ev := rfl
@[simp] theorem mapT_fresh (s : State) (f : Thread → Thread) : (s.mapT f).fresh = s.fresh := rfl
@[simp] theorem mapT_cycle (s : State) (f : Thread → Thread) : (s.mapT f).cycle = s.cycle := rfl
@[simp] theorem mapT_mem (s : State) (f : Thread → Thread) : (s.mapT f).mem = s.mem := rfl
@[simp] theorem mapT_stores (s : State) (f : Thread → Thread) : (s.mapT f).stores = s.stores := rfl
@[simp] theorem mapT_hubMem (s : State) (f : Thread → Thread) : (s.mapT f).hubMem = s.hubMem := rfl
@[simp] theorem mapT_hostMem (s : State) (f : Thread → Thread) : (s.mapT f).hostMem = s.hostMem := rfl
@[simp] theorem mapT_l1 (s : State) (f : Thread → Thread) : (s.mapT f).l1 = s.l1 := rfl
@[simp] theorem mapT_victims (s : State) (f : Thread → Thread) : (s.mapT f).victims = s.victims := rfl
@[simp] theorem mapT_tlb (s : State) (f : Thread → Thread) : (s.mapT f).tlb = s.tlb := rfl
@[simp] theorem mapT_carters (s : State) (f : Thread → Thread) : (s.mapT f).carters = s.carters := rfl
@[simp] theorem mapT_launchQ (s : State) (f : Thread → Thread) : (s.mapT f).launchQ = s.launchQ := rfl
@[simp] theorem mapT_waybills (s : State) (f : Thread → Thread) : (s.mapT f).waybills = s.waybills := rfl
@[simp] theorem mapT_streams (s : State) (f : Thread → Thread) : (s.mapT f).streams = s.streams := rfl
@[simp] theorem mapT_yard (s : State) (f : Thread → Thread) : (s.mapT f).yard = s.yard := rfl
@[simp] theorem mapT_timelines (s : State) (f : Thread → Thread) : (s.mapT f).timelines = s.timelines := rfl
@[simp] theorem mapT_counters (s : State) (f : Thread → Thread) : (s.mapT f).counters = s.counters := rfl
@[simp] theorem mapT_waitMsgs (s : State) (f : Thread → Thread) : (s.mapT f).waitMsgs = s.waitMsgs := rfl
@[simp] theorem mapT_ctxs (s : State) (f : Thread → Thread) : (s.mapT f).ctxs = s.ctxs := rfl
@[simp] theorem mapT_bindings (s : State) (f : Thread → Thread) : (s.mapT f).bindings = s.bindings := rfl
@[simp] theorem mapT_groups (s : State) (f : Thread → Thread) : (s.mapT f).groups = s.groups := rfl
@[simp] theorem mapT_mcasts (s : State) (f : Thread → Thread) : (s.mapT f).mcasts = s.mcasts := rfl
@[simp] theorem mapT_firings (s : State) (f : Thread → Thread) : (s.mapT f).firings = s.firings := rfl
@[simp] theorem mapT_tiles (s : State) (f : Thread → Thread) : (s.mapT f).tiles = s.tiles := rfl
@[simp] theorem mapT_tasks (s : State) (f : Thread → Thread) : (s.mapT f).tasks = s.tasks := rfl
@[simp] theorem mapT_coaches (s : State) (f : Thread → Thread) : (s.mapT f).coaches = s.coaches := rfl
@[simp] theorem mapT_pushes (s : State) (f : Thread → Thread) : (s.mapT f).pushes = s.pushes := rfl
@[simp] theorem mapT_launches (s : State) (f : Thread → Thread) : (s.mapT f).launches = s.launches := rfl
@[simp] theorem mapT_frames (s : State) (f : Thread → Thread) : (s.mapT f).frames = s.frames := rfl
@[simp] theorem mapT_atoms (s : State) (f : Thread → Thread) : (s.mapT f).atoms = s.atoms := rfl
@[simp] theorem mapT_ord (s : State) (f : Thread → Thread) : (s.mapT f).ord = s.ord := rfl
@[simp] theorem mapT_invals (s : State) (f : Thread → Thread) : (s.mapT f).invals = s.invals := rfl
@[simp] theorem mapT_images (s : State) (f : Thread → Thread) : (s.mapT f).images = s.images := rfl
@[simp] theorem mapT_cores (s : State) (f : Thread → Thread) : (s.mapT f).cores = s.cores := rfl
@[simp] theorem mapT_frameInfo (s : State) (f : Thread → Thread) : (s.mapT f).frameInfo = s.frameInfo := rfl
@[simp] theorem mapT_keys (s : State) (f : Thread → Thread) : (s.mapT f).keys = s.keys := rfl
@[simp] theorem mapT_islands (s : State) (f : Thread → Thread) : (s.mapT f).islands = s.islands := rfl
@[simp] theorem mapT_meters (s : State) (f : Thread → Thread) : (s.mapT f).meters = s.meters := rfl
@[simp] theorem mapT_queues (s : State) (f : Thread → Thread) : (s.mapT f).queues = s.queues := rfl
@[simp] theorem mapT_fns (s : State) (f : Thread → Thread) : (s.mapT f).fns = s.fns := rfl
@[simp] theorem mapT_panel (s : State) (f : Thread → Thread) : (s.mapT f).panel = s.panel := rfl

/-! ### `owe` -/

@[simp] theorem owe_cur (s : State) (e : Event) : (s.owe e).cur = s.cur := rfl
@[simp] theorem owe_others (s : State) (e : Event) : (s.owe e).others = s.others := rfl
@[simp] theorem owe_agenda (s : State) (e : Event) : (s.owe e).agenda = s.agenda := rfl
@[simp] theorem owe_due (s : State) (e : Event) : (s.owe e).due = s.due ++ [e] := rfl
@[simp] theorem owe_ev (s : State) (e : Event) : (s.owe e).ev = s.ev := rfl
@[simp] theorem owe_fresh (s : State) (e : Event) : (s.owe e).fresh = s.fresh := rfl
@[simp] theorem owe_cycle (s : State) (e : Event) : (s.owe e).cycle = s.cycle := rfl
@[simp] theorem owe_mem (s : State) (e : Event) : (s.owe e).mem = s.mem := rfl
@[simp] theorem owe_stores (s : State) (e : Event) : (s.owe e).stores = s.stores := rfl
@[simp] theorem owe_hubMem (s : State) (e : Event) : (s.owe e).hubMem = s.hubMem := rfl
@[simp] theorem owe_hostMem (s : State) (e : Event) : (s.owe e).hostMem = s.hostMem := rfl
@[simp] theorem owe_l1 (s : State) (e : Event) : (s.owe e).l1 = s.l1 := rfl
@[simp] theorem owe_victims (s : State) (e : Event) : (s.owe e).victims = s.victims := rfl
@[simp] theorem owe_tlb (s : State) (e : Event) : (s.owe e).tlb = s.tlb := rfl
@[simp] theorem owe_carters (s : State) (e : Event) : (s.owe e).carters = s.carters := rfl
@[simp] theorem owe_launchQ (s : State) (e : Event) : (s.owe e).launchQ = s.launchQ := rfl
@[simp] theorem owe_waybills (s : State) (e : Event) : (s.owe e).waybills = s.waybills := rfl
@[simp] theorem owe_streams (s : State) (e : Event) : (s.owe e).streams = s.streams := rfl
@[simp] theorem owe_yard (s : State) (e : Event) : (s.owe e).yard = s.yard := rfl
@[simp] theorem owe_timelines (s : State) (e : Event) : (s.owe e).timelines = s.timelines := rfl
@[simp] theorem owe_counters (s : State) (e : Event) : (s.owe e).counters = s.counters := rfl
@[simp] theorem owe_waitMsgs (s : State) (e : Event) : (s.owe e).waitMsgs = s.waitMsgs := rfl
@[simp] theorem owe_ctxs (s : State) (e : Event) : (s.owe e).ctxs = s.ctxs := rfl
@[simp] theorem owe_bindings (s : State) (e : Event) : (s.owe e).bindings = s.bindings := rfl
@[simp] theorem owe_groups (s : State) (e : Event) : (s.owe e).groups = s.groups := rfl
@[simp] theorem owe_mcasts (s : State) (e : Event) : (s.owe e).mcasts = s.mcasts := rfl
@[simp] theorem owe_firings (s : State) (e : Event) : (s.owe e).firings = s.firings := rfl
@[simp] theorem owe_tiles (s : State) (e : Event) : (s.owe e).tiles = s.tiles := rfl
@[simp] theorem owe_tasks (s : State) (e : Event) : (s.owe e).tasks = s.tasks := rfl
@[simp] theorem owe_coaches (s : State) (e : Event) : (s.owe e).coaches = s.coaches := rfl
@[simp] theorem owe_pushes (s : State) (e : Event) : (s.owe e).pushes = s.pushes := rfl
@[simp] theorem owe_launches (s : State) (e : Event) : (s.owe e).launches = s.launches := rfl
@[simp] theorem owe_frames (s : State) (e : Event) : (s.owe e).frames = s.frames := rfl
@[simp] theorem owe_atoms (s : State) (e : Event) : (s.owe e).atoms = s.atoms := rfl
@[simp] theorem owe_ord (s : State) (e : Event) : (s.owe e).ord = s.ord := rfl
@[simp] theorem owe_invals (s : State) (e : Event) : (s.owe e).invals = s.invals := rfl
@[simp] theorem owe_images (s : State) (e : Event) : (s.owe e).images = s.images := rfl
@[simp] theorem owe_cores (s : State) (e : Event) : (s.owe e).cores = s.cores := rfl
@[simp] theorem owe_frameInfo (s : State) (e : Event) : (s.owe e).frameInfo = s.frameInfo := rfl
@[simp] theorem owe_keys (s : State) (e : Event) : (s.owe e).keys = s.keys := rfl
@[simp] theorem owe_islands (s : State) (e : Event) : (s.owe e).islands = s.islands := rfl
@[simp] theorem owe_meters (s : State) (e : Event) : (s.owe e).meters = s.meters := rfl
@[simp] theorem owe_queues (s : State) (e : Event) : (s.owe e).queues = s.queues := rfl
@[simp] theorem owe_fns (s : State) (e : Event) : (s.owe e).fns = s.fns := rfl
@[simp] theorem owe_panel (s : State) (e : Event) : (s.owe e).panel = s.panel := rfl

/-! ### `first` -/

@[simp] theorem first_cur (s : State) (e : Event) : (s.first e).cur = s.cur := rfl
@[simp] theorem first_others (s : State) (e : Event) : (s.first e).others = s.others := rfl
@[simp] theorem first_agenda (s : State) (e : Event) : (s.first e).agenda = .event e :: s.agenda := rfl
@[simp] theorem first_due (s : State) (e : Event) : (s.first e).due = s.due := rfl
@[simp] theorem first_ev (s : State) (e : Event) : (s.first e).ev = s.ev := rfl
@[simp] theorem first_fresh (s : State) (e : Event) : (s.first e).fresh = s.fresh := rfl
@[simp] theorem first_cycle (s : State) (e : Event) : (s.first e).cycle = s.cycle := rfl
@[simp] theorem first_mem (s : State) (e : Event) : (s.first e).mem = s.mem := rfl
@[simp] theorem first_stores (s : State) (e : Event) : (s.first e).stores = s.stores := rfl
@[simp] theorem first_hubMem (s : State) (e : Event) : (s.first e).hubMem = s.hubMem := rfl
@[simp] theorem first_hostMem (s : State) (e : Event) : (s.first e).hostMem = s.hostMem := rfl
@[simp] theorem first_l1 (s : State) (e : Event) : (s.first e).l1 = s.l1 := rfl
@[simp] theorem first_victims (s : State) (e : Event) : (s.first e).victims = s.victims := rfl
@[simp] theorem first_tlb (s : State) (e : Event) : (s.first e).tlb = s.tlb := rfl
@[simp] theorem first_carters (s : State) (e : Event) : (s.first e).carters = s.carters := rfl
@[simp] theorem first_launchQ (s : State) (e : Event) : (s.first e).launchQ = s.launchQ := rfl
@[simp] theorem first_waybills (s : State) (e : Event) : (s.first e).waybills = s.waybills := rfl
@[simp] theorem first_streams (s : State) (e : Event) : (s.first e).streams = s.streams := rfl
@[simp] theorem first_yard (s : State) (e : Event) : (s.first e).yard = s.yard := rfl
@[simp] theorem first_timelines (s : State) (e : Event) : (s.first e).timelines = s.timelines := rfl
@[simp] theorem first_counters (s : State) (e : Event) : (s.first e).counters = s.counters := rfl
@[simp] theorem first_waitMsgs (s : State) (e : Event) : (s.first e).waitMsgs = s.waitMsgs := rfl
@[simp] theorem first_ctxs (s : State) (e : Event) : (s.first e).ctxs = s.ctxs := rfl
@[simp] theorem first_bindings (s : State) (e : Event) : (s.first e).bindings = s.bindings := rfl
@[simp] theorem first_groups (s : State) (e : Event) : (s.first e).groups = s.groups := rfl
@[simp] theorem first_mcasts (s : State) (e : Event) : (s.first e).mcasts = s.mcasts := rfl
@[simp] theorem first_firings (s : State) (e : Event) : (s.first e).firings = s.firings := rfl
@[simp] theorem first_tiles (s : State) (e : Event) : (s.first e).tiles = s.tiles := rfl
@[simp] theorem first_tasks (s : State) (e : Event) : (s.first e).tasks = s.tasks := rfl
@[simp] theorem first_coaches (s : State) (e : Event) : (s.first e).coaches = s.coaches := rfl
@[simp] theorem first_pushes (s : State) (e : Event) : (s.first e).pushes = s.pushes := rfl
@[simp] theorem first_launches (s : State) (e : Event) : (s.first e).launches = s.launches := rfl
@[simp] theorem first_frames (s : State) (e : Event) : (s.first e).frames = s.frames := rfl
@[simp] theorem first_atoms (s : State) (e : Event) : (s.first e).atoms = s.atoms := rfl
@[simp] theorem first_ord (s : State) (e : Event) : (s.first e).ord = s.ord := rfl
@[simp] theorem first_invals (s : State) (e : Event) : (s.first e).invals = s.invals := rfl
@[simp] theorem first_images (s : State) (e : Event) : (s.first e).images = s.images := rfl
@[simp] theorem first_cores (s : State) (e : Event) : (s.first e).cores = s.cores := rfl
@[simp] theorem first_frameInfo (s : State) (e : Event) : (s.first e).frameInfo = s.frameInfo := rfl
@[simp] theorem first_keys (s : State) (e : Event) : (s.first e).keys = s.keys := rfl
@[simp] theorem first_islands (s : State) (e : Event) : (s.first e).islands = s.islands := rfl
@[simp] theorem first_meters (s : State) (e : Event) : (s.first e).meters = s.meters := rfl
@[simp] theorem first_queues (s : State) (e : Event) : (s.first e).queues = s.queues := rfl
@[simp] theorem first_fns (s : State) (e : Event) : (s.first e).fns = s.fns := rfl
@[simp] theorem first_panel (s : State) (e : Event) : (s.first e).panel = s.panel := rfl

/-! ### `withEv` -/

@[simp] theorem withEv_cur (s : State) (e : Event) : (s.withEv e).cur = s.cur := rfl
@[simp] theorem withEv_others (s : State) (e : Event) : (s.withEv e).others = s.others := rfl
@[simp] theorem withEv_agenda (s : State) (e : Event) : (s.withEv e).agenda = s.agenda := rfl
@[simp] theorem withEv_due (s : State) (e : Event) : (s.withEv e).due = s.due := rfl
@[simp] theorem withEv_ev (s : State) (e : Event) : (s.withEv e).ev = e := rfl
@[simp] theorem withEv_fresh (s : State) (e : Event) : (s.withEv e).fresh = s.fresh := rfl
@[simp] theorem withEv_cycle (s : State) (e : Event) : (s.withEv e).cycle = s.cycle := rfl
@[simp] theorem withEv_mem (s : State) (e : Event) : (s.withEv e).mem = s.mem := rfl
@[simp] theorem withEv_stores (s : State) (e : Event) : (s.withEv e).stores = s.stores := rfl
@[simp] theorem withEv_hubMem (s : State) (e : Event) : (s.withEv e).hubMem = s.hubMem := rfl
@[simp] theorem withEv_hostMem (s : State) (e : Event) : (s.withEv e).hostMem = s.hostMem := rfl
@[simp] theorem withEv_l1 (s : State) (e : Event) : (s.withEv e).l1 = s.l1 := rfl
@[simp] theorem withEv_victims (s : State) (e : Event) : (s.withEv e).victims = s.victims := rfl
@[simp] theorem withEv_tlb (s : State) (e : Event) : (s.withEv e).tlb = s.tlb := rfl
@[simp] theorem withEv_carters (s : State) (e : Event) : (s.withEv e).carters = s.carters := rfl
@[simp] theorem withEv_launchQ (s : State) (e : Event) : (s.withEv e).launchQ = s.launchQ := rfl
@[simp] theorem withEv_waybills (s : State) (e : Event) : (s.withEv e).waybills = s.waybills := rfl
@[simp] theorem withEv_streams (s : State) (e : Event) : (s.withEv e).streams = s.streams := rfl
@[simp] theorem withEv_yard (s : State) (e : Event) : (s.withEv e).yard = s.yard := rfl
@[simp] theorem withEv_timelines (s : State) (e : Event) : (s.withEv e).timelines = s.timelines := rfl
@[simp] theorem withEv_counters (s : State) (e : Event) : (s.withEv e).counters = s.counters := rfl
@[simp] theorem withEv_waitMsgs (s : State) (e : Event) : (s.withEv e).waitMsgs = s.waitMsgs := rfl
@[simp] theorem withEv_ctxs (s : State) (e : Event) : (s.withEv e).ctxs = s.ctxs := rfl
@[simp] theorem withEv_bindings (s : State) (e : Event) : (s.withEv e).bindings = s.bindings := rfl
@[simp] theorem withEv_groups (s : State) (e : Event) : (s.withEv e).groups = s.groups := rfl
@[simp] theorem withEv_mcasts (s : State) (e : Event) : (s.withEv e).mcasts = s.mcasts := rfl
@[simp] theorem withEv_firings (s : State) (e : Event) : (s.withEv e).firings = s.firings := rfl
@[simp] theorem withEv_tiles (s : State) (e : Event) : (s.withEv e).tiles = s.tiles := rfl
@[simp] theorem withEv_tasks (s : State) (e : Event) : (s.withEv e).tasks = s.tasks := rfl
@[simp] theorem withEv_coaches (s : State) (e : Event) : (s.withEv e).coaches = s.coaches := rfl
@[simp] theorem withEv_pushes (s : State) (e : Event) : (s.withEv e).pushes = s.pushes := rfl
@[simp] theorem withEv_launches (s : State) (e : Event) : (s.withEv e).launches = s.launches := rfl
@[simp] theorem withEv_frames (s : State) (e : Event) : (s.withEv e).frames = s.frames := rfl
@[simp] theorem withEv_atoms (s : State) (e : Event) : (s.withEv e).atoms = s.atoms := rfl
@[simp] theorem withEv_ord (s : State) (e : Event) : (s.withEv e).ord = s.ord := rfl
@[simp] theorem withEv_invals (s : State) (e : Event) : (s.withEv e).invals = s.invals := rfl
@[simp] theorem withEv_images (s : State) (e : Event) : (s.withEv e).images = s.images := rfl
@[simp] theorem withEv_cores (s : State) (e : Event) : (s.withEv e).cores = s.cores := rfl
@[simp] theorem withEv_frameInfo (s : State) (e : Event) : (s.withEv e).frameInfo = s.frameInfo := rfl
@[simp] theorem withEv_keys (s : State) (e : Event) : (s.withEv e).keys = s.keys := rfl
@[simp] theorem withEv_islands (s : State) (e : Event) : (s.withEv e).islands = s.islands := rfl
@[simp] theorem withEv_meters (s : State) (e : Event) : (s.withEv e).meters = s.meters := rfl
@[simp] theorem withEv_queues (s : State) (e : Event) : (s.withEv e).queues = s.queues := rfl
@[simp] theorem withEv_fns (s : State) (e : Event) : (s.withEv e).fns = s.fns := rfl
@[simp] theorem withEv_panel (s : State) (e : Event) : (s.withEv e).panel = s.panel := rfl

/-! ### `setIsland` -/

@[simp] theorem setIsland_cur (s : State) (i : Island) : (s.setIsland i).cur = s.cur := rfl
@[simp] theorem setIsland_others (s : State) (i : Island) : (s.setIsland i).others = s.others := rfl
@[simp] theorem setIsland_agenda (s : State) (i : Island) : (s.setIsland i).agenda = s.agenda := rfl
@[simp] theorem setIsland_due (s : State) (i : Island) : (s.setIsland i).due = s.due := rfl
@[simp] theorem setIsland_ev (s : State) (i : Island) : (s.setIsland i).ev = s.ev := rfl
@[simp] theorem setIsland_fresh (s : State) (i : Island) : (s.setIsland i).fresh = s.fresh := rfl
@[simp] theorem setIsland_cycle (s : State) (i : Island) : (s.setIsland i).cycle = s.cycle := rfl
@[simp] theorem setIsland_mem (s : State) (i : Island) : (s.setIsland i).mem = s.mem := rfl
@[simp] theorem setIsland_stores (s : State) (i : Island) : (s.setIsland i).stores = s.stores := rfl
@[simp] theorem setIsland_hubMem (s : State) (i : Island) : (s.setIsland i).hubMem = s.hubMem := rfl
@[simp] theorem setIsland_hostMem (s : State) (i : Island) : (s.setIsland i).hostMem = s.hostMem := rfl
@[simp] theorem setIsland_l1 (s : State) (i : Island) : (s.setIsland i).l1 = s.l1 := rfl
@[simp] theorem setIsland_victims (s : State) (i : Island) : (s.setIsland i).victims = s.victims := rfl
@[simp] theorem setIsland_tlb (s : State) (i : Island) : (s.setIsland i).tlb = s.tlb := rfl
@[simp] theorem setIsland_carters (s : State) (i : Island) : (s.setIsland i).carters = s.carters := rfl
@[simp] theorem setIsland_launchQ (s : State) (i : Island) : (s.setIsland i).launchQ = s.launchQ := rfl
@[simp] theorem setIsland_waybills (s : State) (i : Island) : (s.setIsland i).waybills = s.waybills := rfl
@[simp] theorem setIsland_streams (s : State) (i : Island) : (s.setIsland i).streams = s.streams := rfl
@[simp] theorem setIsland_yard (s : State) (i : Island) : (s.setIsland i).yard = s.yard := rfl
@[simp] theorem setIsland_timelines (s : State) (i : Island) : (s.setIsland i).timelines = s.timelines := rfl
@[simp] theorem setIsland_counters (s : State) (i : Island) : (s.setIsland i).counters = s.counters := rfl
@[simp] theorem setIsland_waitMsgs (s : State) (i : Island) : (s.setIsland i).waitMsgs = s.waitMsgs := rfl
@[simp] theorem setIsland_ctxs (s : State) (i : Island) : (s.setIsland i).ctxs = s.ctxs := rfl
@[simp] theorem setIsland_bindings (s : State) (i : Island) : (s.setIsland i).bindings = s.bindings := rfl
@[simp] theorem setIsland_groups (s : State) (i : Island) : (s.setIsland i).groups = s.groups := rfl
@[simp] theorem setIsland_mcasts (s : State) (i : Island) : (s.setIsland i).mcasts = s.mcasts := rfl
@[simp] theorem setIsland_firings (s : State) (i : Island) : (s.setIsland i).firings = s.firings := rfl
@[simp] theorem setIsland_tiles (s : State) (i : Island) : (s.setIsland i).tiles = s.tiles := rfl
@[simp] theorem setIsland_tasks (s : State) (i : Island) : (s.setIsland i).tasks = s.tasks := rfl
@[simp] theorem setIsland_coaches (s : State) (i : Island) : (s.setIsland i).coaches = s.coaches := rfl
@[simp] theorem setIsland_pushes (s : State) (i : Island) : (s.setIsland i).pushes = s.pushes := rfl
@[simp] theorem setIsland_launches (s : State) (i : Island) : (s.setIsland i).launches = s.launches := rfl
@[simp] theorem setIsland_frames (s : State) (i : Island) : (s.setIsland i).frames = s.frames := rfl
@[simp] theorem setIsland_atoms (s : State) (i : Island) : (s.setIsland i).atoms = s.atoms := rfl
@[simp] theorem setIsland_ord (s : State) (i : Island) : (s.setIsland i).ord = s.ord := rfl
@[simp] theorem setIsland_invals (s : State) (i : Island) : (s.setIsland i).invals = s.invals := rfl
@[simp] theorem setIsland_images (s : State) (i : Island) : (s.setIsland i).images = s.images := rfl
@[simp] theorem setIsland_cores (s : State) (i : Island) : (s.setIsland i).cores = s.cores := rfl
@[simp] theorem setIsland_frameInfo (s : State) (i : Island) : (s.setIsland i).frameInfo = s.frameInfo := rfl
@[simp] theorem setIsland_keys (s : State) (i : Island) : (s.setIsland i).keys = s.keys := rfl
@[simp] theorem setIsland_islands (s : State) (i : Island) : (s.setIsland i).islands = i :: s.islands.filter (fun j => j.isl ≠ i.isl) := rfl
@[simp] theorem setIsland_meters (s : State) (i : Island) : (s.setIsland i).meters = s.meters := rfl
@[simp] theorem setIsland_queues (s : State) (i : Island) : (s.setIsland i).queues = s.queues := rfl
@[simp] theorem setIsland_fns (s : State) (i : Island) : (s.setIsland i).fns = s.fns := rfl
@[simp] theorem setIsland_panel (s : State) (i : Island) : (s.setIsland i).panel = s.panel := rfl

/-! ### `wrS` -/

@[simp] theorem wrS_id (t : Thread) (r : Nat) (x : Word64) : (t.wrS r x).id = t.id := by unfold Thread.wrS; split <;> rfl
@[simp] theorem wrS_ln (t : Thread) (r : Nat) (x : Word64) : (t.wrS r x).ln = t.ln := by unfold Thread.wrS; split <;> rfl
@[simp] theorem wrS_tr (t : Thread) (r : Nat) (x : Word64) : (t.wrS r x).tr = t.tr := by unfold Thread.wrS; split <;> rfl
@[simp] theorem wrS_fl (t : Thread) (r : Nat) (x : Word64) : (t.wrS r x).fl = t.fl := by unfold Thread.wrS; split <;> rfl
@[simp] theorem wrS_an (t : Thread) (r : Nat) (x : Word64) : (t.wrS r x).an = t.an := by unfold Thread.wrS; split <;> rfl
@[simp] theorem wrS_sch (t : Thread) (r : Nat) (x : Word64) : (t.wrS r x).sch = t.sch := by unfold Thread.wrS; split <;> rfl
@[simp] theorem wrS_sl (t : Thread) (r : Nat) (x : Word64) : (t.wrS r x).sl = t.sl := by unfold Thread.wrS; split <;> rfl
@[simp] theorem wrS_sc_c (t : Thread) (r : Nat) (x : Word64) : (t.wrS r x).sc.c = t.sc.c := by unfold Thread.wrS; split <;> rfl
@[simp] theorem wrS_sc_pc (t : Thread) (r : Nat) (x : Word64) : (t.wrS r x).sc.pc = t.sc.pc := by unfold Thread.wrS; split <;> rfl
@[simp] theorem wrS_sc_pc1 (t : Thread) (r : Nat) (x : Word64) : (t.wrS r x).sc.pc1 = t.sc.pc1 := by unfold Thread.wrS; split <;> rfl
@[simp] theorem wrS_sc_loops (t : Thread) (r : Nat) (x : Word64) : (t.wrS r x).sc.loops = t.sc.loops := by unfold Thread.wrS; split <;> rfl
@[simp] theorem wrS_sc_rmode (t : Thread) (r : Nat) (x : Word64) : (t.wrS r x).sc.rmode = t.sc.rmode := by unfold Thread.wrS; split <;> rfl
@[simp] theorem wrS_sc_fpte (t : Thread) (r : Nat) (x : Word64) : (t.wrS r x).sc.fpte = t.sc.fpte := by unfold Thread.wrS; split <;> rfl
@[simp] theorem wrS_sc_hints (t : Thread) (r : Nat) (x : Word64) : (t.wrS r x).sc.hints = t.sc.hints := by unfold Thread.wrS; split <;> rfl
@[simp] theorem wrS_sc_insn (t : Thread) (r : Nat) (x : Word64) : (t.wrS r x).sc.insn = t.sc.insn := by unfold Thread.wrS; split <;> rfl

/-! ### `wrC` -/

@[simp] theorem wrC_id (t : Thread) (r : Nat) (b : Bool) : (t.wrC r b).id = t.id := by unfold Thread.wrC; split <;> rfl
@[simp] theorem wrC_ln (t : Thread) (r : Nat) (b : Bool) : (t.wrC r b).ln = t.ln := by unfold Thread.wrC; split <;> rfl
@[simp] theorem wrC_tr (t : Thread) (r : Nat) (b : Bool) : (t.wrC r b).tr = t.tr := by unfold Thread.wrC; split <;> rfl
@[simp] theorem wrC_fl (t : Thread) (r : Nat) (b : Bool) : (t.wrC r b).fl = t.fl := by unfold Thread.wrC; split <;> rfl
@[simp] theorem wrC_an (t : Thread) (r : Nat) (b : Bool) : (t.wrC r b).an = t.an := by unfold Thread.wrC; split <;> rfl
@[simp] theorem wrC_sch (t : Thread) (r : Nat) (b : Bool) : (t.wrC r b).sch = t.sch := by unfold Thread.wrC; split <;> rfl
@[simp] theorem wrC_sl (t : Thread) (r : Nat) (b : Bool) : (t.wrC r b).sl = t.sl := by unfold Thread.wrC; split <;> rfl
@[simp] theorem wrC_sc_s (t : Thread) (r : Nat) (b : Bool) : (t.wrC r b).sc.s = t.sc.s := by unfold Thread.wrC; split <;> rfl
@[simp] theorem wrC_sc_pc (t : Thread) (r : Nat) (b : Bool) : (t.wrC r b).sc.pc = t.sc.pc := by unfold Thread.wrC; split <;> rfl
@[simp] theorem wrC_sc_pc1 (t : Thread) (r : Nat) (b : Bool) : (t.wrC r b).sc.pc1 = t.sc.pc1 := by unfold Thread.wrC; split <;> rfl
@[simp] theorem wrC_sc_loops (t : Thread) (r : Nat) (b : Bool) : (t.wrC r b).sc.loops = t.sc.loops := by unfold Thread.wrC; split <;> rfl
@[simp] theorem wrC_sc_rmode (t : Thread) (r : Nat) (b : Bool) : (t.wrC r b).sc.rmode = t.sc.rmode := by unfold Thread.wrC; split <;> rfl
@[simp] theorem wrC_sc_fpte (t : Thread) (r : Nat) (b : Bool) : (t.wrC r b).sc.fpte = t.sc.fpte := by unfold Thread.wrC; split <;> rfl
@[simp] theorem wrC_sc_hints (t : Thread) (r : Nat) (b : Bool) : (t.wrC r b).sc.hints = t.sc.hints := by unfold Thread.wrC; split <;> rfl
@[simp] theorem wrC_sc_insn (t : Thread) (r : Nat) (b : Bool) : (t.wrC r b).sc.insn = t.sc.insn := by unfold Thread.wrC; split <;> rfl

/-! ### `wrV` -/

@[simp] theorem wrV_id (t : Thread) (r l : Nat) (x : Word32) : (t.wrV r l x).id = t.id := rfl
@[simp] theorem wrV_sc (t : Thread) (r l : Nat) (x : Word32) : (t.wrV r l x).sc = t.sc := rfl
@[simp] theorem wrV_tr (t : Thread) (r l : Nat) (x : Word32) : (t.wrV r l x).tr = t.tr := rfl
@[simp] theorem wrV_fl (t : Thread) (r l : Nat) (x : Word32) : (t.wrV r l x).fl = t.fl := rfl
@[simp] theorem wrV_an (t : Thread) (r l : Nat) (x : Word32) : (t.wrV r l x).an = t.an := rfl
@[simp] theorem wrV_sch (t : Thread) (r l : Nat) (x : Word32) : (t.wrV r l x).sch = t.sch := rfl
@[simp] theorem wrV_sl (t : Thread) (r l : Nat) (x : Word32) : (t.wrV r l x).sl = t.sl := rfl
@[simp] theorem wrV_ln_p (t : Thread) (r l : Nat) (x : Word32) : (t.wrV r l x).ln.p = t.ln.p := rfl
@[simp] theorem wrV_ln_flags (t : Thread) (r l : Nat) (x : Word32) : (t.wrV r l x).ln.flags = t.ln.flags := rfl
@[simp] theorem wrV_ln_dc (t : Thread) (r l : Nat) (x : Word32) : (t.wrV r l x).ln.dc = t.ln.dc := rfl

/-! ### `wrP` -/

@[simp] theorem wrP_id (t : Thread) (p l : Nat) (b : Bool) : (t.wrP p l b).id = t.id := by unfold Thread.wrP; split <;> rfl
@[simp] theorem wrP_sc (t : Thread) (p l : Nat) (b : Bool) : (t.wrP p l b).sc = t.sc := by unfold Thread.wrP; split <;> rfl
@[simp] theorem wrP_tr (t : Thread) (p l : Nat) (b : Bool) : (t.wrP p l b).tr = t.tr := by unfold Thread.wrP; split <;> rfl
@[simp] theorem wrP_fl (t : Thread) (p l : Nat) (b : Bool) : (t.wrP p l b).fl = t.fl := by unfold Thread.wrP; split <;> rfl
@[simp] theorem wrP_an (t : Thread) (p l : Nat) (b : Bool) : (t.wrP p l b).an = t.an := by unfold Thread.wrP; split <;> rfl
@[simp] theorem wrP_sch (t : Thread) (p l : Nat) (b : Bool) : (t.wrP p l b).sch = t.sch := by unfold Thread.wrP; split <;> rfl
@[simp] theorem wrP_sl (t : Thread) (p l : Nat) (b : Bool) : (t.wrP p l b).sl = t.sl := by unfold Thread.wrP; split <;> rfl
@[simp] theorem wrP_ln_v (t : Thread) (p l : Nat) (b : Bool) : (t.wrP p l b).ln.v = t.ln.v := by unfold Thread.wrP; split <;> rfl
@[simp] theorem wrP_ln_flags (t : Thread) (p l : Nat) (b : Bool) : (t.wrP p l b).ln.flags = t.ln.flags := by unfold Thread.wrP; split <;> rfl
@[simp] theorem wrP_ln_dc (t : Thread) (p l : Nat) (b : Bool) : (t.wrP p l b).ln.dc = t.ln.dc := by unfold Thread.wrP; split <;> rfl

/-! ### `orFlags` -/

@[simp] theorem orFlags_id (t : Thread) (l : Nat) (f : BitVec 5) : (t.orFlags l f).id = t.id := rfl
@[simp] theorem orFlags_sc (t : Thread) (l : Nat) (f : BitVec 5) : (t.orFlags l f).sc = t.sc := rfl
@[simp] theorem orFlags_tr (t : Thread) (l : Nat) (f : BitVec 5) : (t.orFlags l f).tr = t.tr := rfl
@[simp] theorem orFlags_fl (t : Thread) (l : Nat) (f : BitVec 5) : (t.orFlags l f).fl = t.fl := rfl
@[simp] theorem orFlags_an (t : Thread) (l : Nat) (f : BitVec 5) : (t.orFlags l f).an = t.an := rfl
@[simp] theorem orFlags_sch (t : Thread) (l : Nat) (f : BitVec 5) : (t.orFlags l f).sch = t.sch := rfl
@[simp] theorem orFlags_sl (t : Thread) (l : Nat) (f : BitVec 5) : (t.orFlags l f).sl = t.sl := rfl
@[simp] theorem orFlags_ln_v (t : Thread) (l : Nat) (f : BitVec 5) : (t.orFlags l f).ln.v = t.ln.v := rfl
@[simp] theorem orFlags_ln_p (t : Thread) (l : Nat) (f : BitVec 5) : (t.orFlags l f).ln.p = t.ln.p := rfl
@[simp] theorem orFlags_ln_dc (t : Thread) (l : Nat) (f : BitVec 5) : (t.orFlags l f).ln.dc = t.ln.dc := rfl

/-! ### `fall` -/

@[simp] theorem fall_id (t : Thread) : (t.fall).id = t.id := rfl
@[simp] theorem fall_ln (t : Thread) : (t.fall).ln = t.ln := rfl
@[simp] theorem fall_tr (t : Thread) : (t.fall).tr = t.tr := rfl
@[simp] theorem fall_fl (t : Thread) : (t.fall).fl = t.fl := rfl
@[simp] theorem fall_an (t : Thread) : (t.fall).an = t.an := rfl
@[simp] theorem fall_sch (t : Thread) : (t.fall).sch = t.sch := rfl
@[simp] theorem fall_sl (t : Thread) : (t.fall).sl = t.sl := rfl
@[simp] theorem fall_sc_s (t : Thread) : (t.fall).sc.s = t.sc.s := rfl
@[simp] theorem fall_sc_c (t : Thread) : (t.fall).sc.c = t.sc.c := rfl
@[simp] theorem fall_sc_pc1 (t : Thread) : (t.fall).sc.pc1 = t.sc.pc1 := rfl
@[simp] theorem fall_sc_rmode (t : Thread) : (t.fall).sc.rmode = t.sc.rmode := rfl
@[simp] theorem fall_sc_fpte (t : Thread) : (t.fall).sc.fpte = t.sc.fpte := rfl
@[simp] theorem fall_sc_hints (t : Thread) : (t.fall).sc.hints = t.sc.hints := rfl
@[simp] theorem fall_sc_insn (t : Thread) : (t.fall).sc.insn = t.sc.insn := rfl

/-! ### `goto` -/

@[simp] theorem goto_id (t : Thread) (a : Word64) : (t.goto a).id = t.id := rfl
@[simp] theorem goto_ln (t : Thread) (a : Word64) : (t.goto a).ln = t.ln := rfl
@[simp] theorem goto_tr (t : Thread) (a : Word64) : (t.goto a).tr = t.tr := rfl
@[simp] theorem goto_fl (t : Thread) (a : Word64) : (t.goto a).fl = t.fl := rfl
@[simp] theorem goto_an (t : Thread) (a : Word64) : (t.goto a).an = t.an := rfl
@[simp] theorem goto_sch (t : Thread) (a : Word64) : (t.goto a).sch = t.sch := rfl
@[simp] theorem goto_sl (t : Thread) (a : Word64) : (t.goto a).sl = t.sl := rfl
@[simp] theorem goto_sc_s (t : Thread) (a : Word64) : (t.goto a).sc.s = t.sc.s := rfl
@[simp] theorem goto_sc_c (t : Thread) (a : Word64) : (t.goto a).sc.c = t.sc.c := rfl
@[simp] theorem goto_sc_pc1 (t : Thread) (a : Word64) : (t.goto a).sc.pc1 = t.sc.pc1 := rfl
@[simp] theorem goto_sc_loops (t : Thread) (a : Word64) : (t.goto a).sc.loops = t.sc.loops := rfl
@[simp] theorem goto_sc_rmode (t : Thread) (a : Word64) : (t.goto a).sc.rmode = t.sc.rmode := rfl
@[simp] theorem goto_sc_fpte (t : Thread) (a : Word64) : (t.goto a).sc.fpte = t.sc.fpte := rfl
@[simp] theorem goto_sc_hints (t : Thread) (a : Word64) : (t.goto a).sc.hints = t.sc.hints := rfl
@[simp] theorem goto_sc_insn (t : Thread) (a : Word64) : (t.goto a).sc.insn = t.sc.insn := rfl

/-! ### `jump` -/

@[simp] theorem jump_id (t : Thread) (a : Word64) : (t.jump a).id = t.id := rfl
@[simp] theorem jump_ln (t : Thread) (a : Word64) : (t.jump a).ln = t.ln := rfl
@[simp] theorem jump_tr (t : Thread) (a : Word64) : (t.jump a).tr = t.tr := rfl
@[simp] theorem jump_fl (t : Thread) (a : Word64) : (t.jump a).fl = t.fl := rfl
@[simp] theorem jump_an (t : Thread) (a : Word64) : (t.jump a).an = t.an := rfl
@[simp] theorem jump_sch (t : Thread) (a : Word64) : (t.jump a).sch = t.sch := rfl
@[simp] theorem jump_sl (t : Thread) (a : Word64) : (t.jump a).sl = t.sl := rfl
@[simp] theorem jump_sc_s (t : Thread) (a : Word64) : (t.jump a).sc.s = t.sc.s := rfl
@[simp] theorem jump_sc_c (t : Thread) (a : Word64) : (t.jump a).sc.c = t.sc.c := rfl
@[simp] theorem jump_sc_pc1 (t : Thread) (a : Word64) : (t.jump a).sc.pc1 = t.sc.pc1 := rfl
@[simp] theorem jump_sc_rmode (t : Thread) (a : Word64) : (t.jump a).sc.rmode = t.sc.rmode := rfl
@[simp] theorem jump_sc_fpte (t : Thread) (a : Word64) : (t.jump a).sc.fpte = t.sc.fpte := rfl
@[simp] theorem jump_sc_hints (t : Thread) (a : Word64) : (t.jump a).sc.hints = t.sc.hints := rfl
@[simp] theorem jump_sc_insn (t : Thread) (a : Word64) : (t.jump a).sc.insn = t.sc.insn := rfl

/-! ### `dropHints` -/

@[simp] theorem dropHints_id (t : Thread) : (t.dropHints).id = t.id := rfl
@[simp] theorem dropHints_ln (t : Thread) : (t.dropHints).ln = t.ln := rfl
@[simp] theorem dropHints_tr (t : Thread) : (t.dropHints).tr = t.tr := rfl
@[simp] theorem dropHints_fl (t : Thread) : (t.dropHints).fl = t.fl := rfl
@[simp] theorem dropHints_an (t : Thread) : (t.dropHints).an = t.an := rfl
@[simp] theorem dropHints_sch (t : Thread) : (t.dropHints).sch = t.sch := rfl
@[simp] theorem dropHints_sl (t : Thread) : (t.dropHints).sl = t.sl := rfl
@[simp] theorem dropHints_sc_s (t : Thread) : (t.dropHints).sc.s = t.sc.s := rfl
@[simp] theorem dropHints_sc_c (t : Thread) : (t.dropHints).sc.c = t.sc.c := rfl
@[simp] theorem dropHints_sc_pc (t : Thread) : (t.dropHints).sc.pc = t.sc.pc := rfl
@[simp] theorem dropHints_sc_pc1 (t : Thread) : (t.dropHints).sc.pc1 = t.sc.pc1 := rfl
@[simp] theorem dropHints_sc_loops (t : Thread) : (t.dropHints).sc.loops = t.sc.loops := rfl
@[simp] theorem dropHints_sc_rmode (t : Thread) : (t.dropHints).sc.rmode = t.sc.rmode := rfl
@[simp] theorem dropHints_sc_fpte (t : Thread) : (t.dropHints).sc.fpte = t.sc.fpte := rfl
@[simp] theorem dropHints_sc_insn (t : Thread) : (t.dropHints).sc.insn = t.sc.insn := rfl

end Sys2Proof.Laws
end

