-- ==== Sys2Proof/Laws/Regs.lean ====
section
/-!
SUPPORT. The registers of an agent: a read after a write, and what the end of an instruction leaves as it was.
-/
namespace Sys2Proof.Laws

open Sys2Proof.Machine Sys2Proof.Spec

/-! ### Reads after writes -/

theorem rdS_wrS (t : Thread) (r k : Nat) (x : Word64) : (t.wrS r x).rdS k = if k = r ∧ r ≠ 0 then x else t.rdS k := by
  unfold Thread.wrS Thread.rdS
  by_cases hr : r = 0 <;> by_cases hk : k = 0 <;> simp [hr, hk, spGet_spSet]
  · simp [Ne.symm hr]

/-- A bit of a byte set or cleared. -/
theorem getLsbD_setBit (c : BitVec 8) (n k : Nat) (hk : k < 8) (b : Bool) :
    (if b then c ||| (1#8 <<< n) else c &&& ~~~(1#8 <<< n)).getLsbD k = if k = n then b else c.getLsbD k := by
  cases b <;> by_cases h : k = n
  · subst h; simp
  · simp only [Bool.false_eq_true, if_false, BitVec.getLsbD_and, BitVec.getLsbD_not, BitVec.getLsbD_shiftLeft, BitVec.getLsbD_one, h]
    simp; omega
  · subst h; simp [hk]
  · simp only [if_true, BitVec.getLsbD_or, BitVec.getLsbD_shiftLeft, BitVec.getLsbD_one, h, if_false]
    simp; omega

theorem rdC_wrC (t : Thread) (r k : BitVec 3) (b : Bool) :
    (t.wrC r.toNat b).rdC k.toNat = if k = r ∧ r ≠ 0 then b else t.rdC k.toNat := by
  have hk : k.toNat < 8 := k.isLt
  by_cases h0 : r = 0
  · subst h0; simp [Thread.wrC]
  · have h1 : r.toNat ≠ 0 := fun e => h0 (BitVec.eq_of_toNat_eq e)
    simp only [Thread.wrC, Thread.rdC, if_neg h1, getLsbD_setBit _ _ _ hk]
    by_cases hkr : k = r
    · subst hkr; rw [if_pos rfl, if_pos ⟨rfl, h0⟩]; simp [h1]
    · have : k.toNat ≠ r.toNat := fun e => hkr (BitVec.eq_of_toNat_eq e)
      simp [hkr, this]

theorem rdV_wrV (t : Thread) (r l k m : Nat) (x : Word32) (hl : l < 64) (hm : m < 64) :
    (t.wrV r l x).rdV k m = if k = r ∧ m = l then x else t.rdV k m := by
  unfold Thread.wrV Thread.rdV
  rw [spGet_spSet]
  by_cases h : k = r ∧ m = l
  · rw [if_pos h, if_pos (by rw [h.1, h.2])]
  · rw [if_neg h, if_neg (fun e => h (by omega))]

theorem rdP_wrP (t : Thread) (r k : BitVec 3) (l m : Nat) (b : Bool) :
    (t.wrP r.toNat l b).rdP k.toNat m = if k = r ∧ r ≠ 0 ∧ m = l then b else t.rdP k.toNat m := by
  have hk : k.toNat < 8 := k.isLt
  by_cases h0 : r = 0
  · subst h0; simp [Thread.wrP]
  · have h1 : r.toNat ≠ 0 := fun e => h0 (BitVec.eq_of_toNat_eq e)
    simp only [Thread.wrP, Thread.rdP, if_neg h1, spGet_spSet]
    by_cases hm : m = l
    · subst hm
      rw [if_pos rfl, getLsbD_setBit _ _ _ hk]
      by_cases hkr : k = r
      · subst hkr; rw [if_pos rfl, if_pos ⟨rfl, h0, rfl⟩]; simp [h1]
      · have : k.toNat ≠ r.toNat := fun e => hkr (BitVec.eq_of_toNat_eq e)
        simp [hkr, this]
    · simp [hm]

/-! ### Lanes -/

theorem mem_activeLanes (t : Thread) (p l : Nat) : l ∈ t.activeLanes p ↔ t.active p l = true := by
  simp only [Thread.activeLanes, Thread.lanes, List.mem_filter, List.mem_range]
  constructor
  · exact fun h => h.2
  · intro h
    refine ⟨?_, h⟩
    simp only [Thread.active, Bool.and_eq_true, decide_eq_true_eq] at h
    exact h.1.1

theorem active_lt (t : Thread) (p l : Nat) (h : t.active p l = true) : l < 64 := by
  simp only [Thread.active, Bool.and_eq_true, decide_eq_true_eq] at h
  exact Nat.lt_of_lt_of_le h.1.1 (Nat.min_le_right _ _)

/-- Registers after a value was written in each of a list of lanes. -/
theorem rdV_wrLanes (t : Thread) (r : Nat) (f : Nat → Word32) (ls : List Nat) (h64 : ∀ l ∈ ls, l < 64) (k m : Nat) (hm : m < 64) :
    (t.wrLanes r f ls).rdV k m = if k = r ∧ m ∈ ls then f m else t.rdV k m := by
  induction ls generalizing t with
  | nil => simp [Thread.wrLanes]
  | cons l ls ih =>
    rw [Thread.wrLanes, ih _ (fun x hx => h64 x (List.mem_cons_of_mem _ hx)),
      rdV_wrV _ _ _ _ _ _ (h64 l List.mem_cons_self) hm]
    by_cases hk : k = r <;> by_cases hml : m = l <;> by_cases hin : m ∈ ls <;> simp_all

/-- What a write of lanes leaves as it was. -/
theorem wrLanes_frame (t : Thread) (r : Nat) (f : Nat → Word32) (ls : List Nat) : noV (t.wrLanes r f ls) = noV t := by
  induction ls generalizing t with
  | nil => rfl
  | cons l ls ih => rw [Thread.wrLanes, ih]; rfl

/-- Predicates after a bit was written in each of a list of lanes. -/
theorem rdP_wrPreds (t : Thread) (r : BitVec 3) (f : Nat → Bool) (ls : List Nat) (k : BitVec 3) (m : Nat) :
    (t.wrPreds r.toNat f ls).rdP k.toNat m = if k = r ∧ r ≠ 0 ∧ m ∈ ls then f m else t.rdP k.toNat m := by
  induction ls generalizing t with
  | nil => simp [Thread.wrPreds]
  | cons l ls ih =>
    rw [Thread.wrPreds, ih, rdP_wrP]
    by_cases hk : k = r <;> by_cases h0 : r = 0 <;> by_cases hml : m = l <;> by_cases hin : m ∈ ls <;> simp_all

theorem wrPreds_frame (t : Thread) (r : Nat) (f : Nat → Bool) (ls : List Nat) : noP (t.wrPreds r f ls) = noP t := by
  induction ls generalizing t with
  | nil => rfl
  | cons l ls ih =>
    rw [Thread.wrPreds, ih]
    unfold Thread.wrP
    split <;> rfl

/-- Flag registers after flags were accumulated in each of a list of lanes, each at most once. -/
theorem rdFlags_orFlagLanes (t : Thread) (f : Nat → BitVec 5) (ls : List Nat) (m : Nat) :
    (t.orFlagLanes f ls).rdFlags m = if m ∈ ls then t.rdFlags m ||| f m else t.rdFlags m := by
  induction ls generalizing t with
  | nil => simp [Thread.orFlagLanes]
  | cons l ls ih =>
    rw [Thread.orFlagLanes, ih]
    have h : (t.orFlags l (f l)).rdFlags m = if m = l then t.rdFlags l ||| f l else t.rdFlags m := by
      simp only [Thread.orFlags, Thread.rdFlags, spGet_spSet]
    rw [h]
    by_cases hml : m = l <;> by_cases hin : m ∈ ls <;> simp [hml, hin]
    · subst hml; simp [hin, BitVec.or_assoc]
    · subst hml; simp [hin]

theorem orFlagLanes_frame (t : Thread) (f : Nat → BitVec 5) (ls : List Nat) : noFlags (t.orFlagLanes f ls) = noFlags t := by
  induction ls generalizing t with
  | nil => rfl
  | cons l ls ih => rw [Thread.orFlagLanes, ih]; rfl

/-- Depth counters after one was computed for each of a list of lanes. -/
theorem rdDc_wrDcs (t : Thread) (f : Nat → BitVec 8) (ls : List Nat) (m : Nat) :
    (t.wrDcs f ls).rdDc m = if m ∈ ls then f m else t.rdDc m := by
  induction ls generalizing t with
  | nil => simp [Thread.wrDcs]
  | cons l ls ih =>
    rw [Thread.wrDcs, ih]
    simp only [Thread.rdDc, spGet_spSet]
    by_cases hml : m = l <;> by_cases hin : m ∈ ls <;> simp_all

theorem wrDcs_frame (t : Thread) (f : Nat → BitVec 8) (ls : List Nat) : noDc (t.wrDcs f ls) = noDc t := by
  induction ls generalizing t with
  | nil => rfl
  | cons l ls ih => rw [Thread.wrDcs, ih]; rfl

/-! ### The end of an instruction -/

theorem loopEnd_none (pc : Word64) (ls : List Loop) (h : ∀ l ∈ ls, l.last ≠ pc) : loopEnd pc ls = (ls, none) := by
  induction ls with
  | nil => rfl
  | cons l r ih =>
    rw [loopEnd, if_neg (h l List.mem_cons_self), ih (fun x hx => h x (List.mem_cons_of_mem _ hx))]

theorem still_count (s : State) : still s.count.cur = still s.cur := by
  unfold State.count; dsimp only; split <;> rfl

theorem count_sc (s : State) : s.count.cur.sc = s.cur.sc := by unfold State.count; dsimp only; split <;> rfl
theorem count_ln (s : State) : s.count.cur.ln = s.cur.ln := by unfold State.count; dsimp only; split <;> rfl

/-- A change of the running agent alone, then the end of the instruction, leave the panel the same. -/
theorem sameRest_count (s : State) (f : Thread → Thread) : SameRest s (s.updCur f).count := by
  unfold State.count; dsimp only
  refine ⟨by split <;> rfl, ?_⟩
  split <;> exact ⟨fun _ _ => rfl, fun _ _ _ => rfl, fun _ _ _ _ => rfl, fun _ => rfl⟩

theorem retire_eq (s : State) : s.retire = (s.updCur (fun t => t.fall.dropHints)).count := rfl

/-- The spec of a register member: what the agent's change writes stands, and the frame holds. -/
theorem retire_updCur (s : State) (f : Thread → Thread) (forget : Thread → Thread)
    (hf : still (forget ((f s.cur).fall.dropHints)) = still (forget s.cur))
    (hc : ∀ t u : Thread, still t = still u → still (forget t) = still (forget u))
    (hsc : (f s.cur).sc.pc = s.cur.sc.pc) (hl : (f s.cur).sc.loops = s.cur.sc.loops) :
    Falls s (s.updCur f).retire ∧ Frame forget s (s.updCur f).retire := by
  have e : (s.updCur f).retire = (s.updCur (fun t => (f t).fall.dropHints)).count := rfl
  refine ⟨⟨?_, ?_⟩, ?_, ?_⟩
  · rw [e, count_sc]; rfl
  · intro h
    rw [e, count_sc]
    simp only [updCur_cur, dropHints_sc_pc, dropHints_sc_loops, Thread.fall, hsc, hl, loopEnd_none _ _ h]
    trivial
  · rw [e]; exact sameRest_count s _
  · have h1 := still_count (s.updCur (fun t => (f t).fall.dropHints))
    rw [e]
    exact (hc _ _ h1).trans hf

end Sys2Proof.Laws
end

