-- ==== Sys2Proof/Laws/Members.lean ====
section
/-!
SUPPORT. The spec lemma of each shape of member: a write to a scalar, condition, vector or predicate register, and nothing but the end.
-/
namespace Sys2Proof.Laws

open Sys2Proof.Machine Sys2Proof.Spec

theorem retire_skips (s : State) : Skips s (goOn s.retire) := by
  have h := retire_updCur s id id rfl (fun _ _ h => h) rfl rfl
  exact ⟨_, rfl, h⟩

theorem wrS_retire_writes (s : State) (d : BitVec 6) (x : Word64) : WritesS s (goOn (s.wrS d x).retire) d x := by
  have h := retire_updCur s (fun t => t.wrS d.toNat x) noS
    (by unfold Thread.wrS; split <;> rfl) (fun t u h => by
      have := congrArg noS h
      exact this) (by simp) (by simp)
  refine ⟨_, rfl, fun k => ?_, h⟩
  have e : (s.wrS d x).retire.rdS k = (s.cur.wrS d.toNat x).rdS k.toNat := by
    simp only [State.rdS, Thread.rdS, retire_eq, count_sc]
    rfl
  rw [e, rdS_wrS]
  have hk : k.toNat = d.toNat ↔ k = d := ⟨BitVec.eq_of_toNat_eq, fun h => by rw [h]⟩
  have h0 : d.toNat = 0 ↔ d = 0 := ⟨fun h => BitVec.eq_of_toNat_eq h, fun h => by rw [h]; rfl⟩
  simp only [hk, ne_eq, h0]
  rfl

theorem setCond_writes (s : State) (d : BitVec 3) (b : Bool) : WritesC s (goOn (setCond d b s)) d b := by
  have h := retire_updCur s (fun t => t.wrC d.toNat b) noC
    (by unfold Thread.wrC; split <;> rfl) (fun t u h => congrArg noC h) (by simp) (by simp)
  refine ⟨_, rfl, fun k => ?_, h⟩
  have e : (setCond d b s).cur.rdC k.toNat = (s.cur.wrC d.toNat b).rdC k.toNat := by
    simp only [setCond, Thread.rdC, retire_eq, count_sc]
    rfl
  rw [e, rdC_wrC]

theorem laneOp_writes (s : State) (d : BitVec 7) (p : BitVec 3) (f : Thread → Nat → Word32) :
    WritesV s (goOn (laneOp d p f s)) d.toNat (s.cur.active p.toNat) (f s.cur) := by
  have hf : ∀ t : Thread, still (noV ((t.wrLanes d.toNat (f t) (t.activeLanes p.toNat)).fall.dropHints)) = still (noV t) :=
    fun t => congrArg (fun u => still (noV u.fall.dropHints)) (wrLanes_frame t d.toNat (f t) (t.activeLanes p.toNat))
  have hsc : (s.cur.wrLanes d.toNat (f s.cur) (s.cur.activeLanes p.toNat)).sc = s.cur.sc := by
    have h := congrArg Thread.sc (wrLanes_frame s.cur d.toNat (f s.cur) (s.cur.activeLanes p.toNat))
    exact h
  have h := retire_updCur s (fun t => t.wrLanes d.toNat (f t) (t.activeLanes p.toNat)) noV
    (hf s.cur) (fun t u h => congrArg noV h) (congrArg Scalar.pc hsc) (congrArg Scalar.loops hsc)
  refine ⟨_, rfl, fun k l hk hl => ?_, h⟩
  have e : (laneOp d p f s).cur.rdV k l = (s.cur.wrLanes d.toNat (f s.cur) (s.cur.activeLanes p.toNat)).rdV k l := by
    simp only [laneOp, Thread.rdV, retire_eq, count_ln]
    rfl
  rw [e, rdV_wrLanes _ _ _ _ (fun l hl => active_lt _ _ _ ((mem_activeLanes _ _ _).1 hl)) _ _ hl]
  simp only [mem_activeLanes]

theorem lanePred_writes (s : State) (d p : BitVec 3) (f : Thread → Nat → Bool) :
    WritesP s (goOn (lanePred d p f s)) d (s.cur.active p.toNat) (f s.cur) := by
  have hf : still (noP ((s.cur.wrPreds d.toNat (f s.cur) (s.cur.activeLanes p.toNat)).fall.dropHints)) = still (noP s.cur) :=
    congrArg (fun u => still (noP u.fall.dropHints)) (wrPreds_frame s.cur d.toNat (f s.cur) (s.cur.activeLanes p.toNat))
  have hsc : (s.cur.wrPreds d.toNat (f s.cur) (s.cur.activeLanes p.toNat)).sc = s.cur.sc := by
    have h := congrArg Thread.sc (wrPreds_frame s.cur d.toNat (f s.cur) (s.cur.activeLanes p.toNat))
    exact h
  have h := retire_updCur s (fun t => t.wrPreds d.toNat (f t) (t.activeLanes p.toNat)) noP
    hf (fun t u h => congrArg noP h) (congrArg Scalar.pc hsc) (congrArg Scalar.loops hsc)
  refine ⟨_, rfl, fun k l => ?_, h⟩
  have e : (lanePred d p f s).cur.rdP k.toNat l = (s.cur.wrPreds d.toNat (f s.cur) (s.cur.activeLanes p.toNat)).rdP k.toNat l := by
    simp only [lanePred, Thread.rdP, retire_eq, count_ln]
    rfl
  rw [e, rdP_wrPreds]
  simp only [mem_activeLanes]

end Sys2Proof.Laws
end

