-- ==== Sys2Proof/Laws/Float.lean ====
section
/-!
SUPPORT. The spec lemma of the float members: the results and the flags of the active lanes, or the FP trap.
-/
namespace Sys2Proof.Laws

open Sys2Proof.Machine Sys2Proof.Spec

theorem fpTrapLanes_eq (s : State) (p : Nat) (fl : Nat → BitVec 5) :
    fpTrapLanes s.cur (s.cur.activeLanes p) fl = trapping s p fl := rfl

theorem floatOp_member (s : State) (d p : Nat) (f : Thread → Nat → Word32 × BitVec 5) :
    FloatMember s (goOn (floatOp d p f s)) d p (f s.cur) := by
  constructor
  · intro h0
    have hop : floatOp d p f s = (s.updCur (fun t => (t.wrLanes d (fun l => (f t l).1) (s.cur.activeLanes p)).orFlagLanes
        (fun l => (f t l).2) (s.cur.activeLanes p))).retire := by
      unfold floatOp fpGuard
      dsimp only
      rw [fpTrapLanes_eq, if_pos h0]
    have hf : noV (noFlags ((s.cur.wrLanes d (fun l => (f s.cur l).1) (s.cur.activeLanes p)).orFlagLanes
        (fun l => (f s.cur l).2) (s.cur.activeLanes p))) = noV (noFlags s.cur) := by
      rw [orFlagLanes_frame]
      exact congrArg noFlags (wrLanes_frame s.cur d (fun l => (f s.cur l).1) (s.cur.activeLanes p))
    have hsc := congrArg Thread.sc hf
    have h := retire_updCur s (fun t => (t.wrLanes d (fun l => (f t l).1) (s.cur.activeLanes p)).orFlagLanes
        (fun l => (f t l).2) (s.cur.activeLanes p)) (fun u => noV (noFlags u))
      (congrArg (fun u => still (u.fall.dropHints)) hf) (fun t u h => congrArg (fun u => noV (noFlags u)) h)
      (congrArg Scalar.pc hsc) (congrArg Scalar.loops hsc)
    refine ⟨_, rfl, ?_, ?_, by rw [hop]; exact h⟩
    · intro k l hk hl
      have e : (floatOp d p f s).cur.rdV k l
          = (s.cur.wrLanes d (fun l => (f s.cur l).1) (s.cur.activeLanes p)).rdV k l := by
        rw [hop]
        simp only [Thread.rdV, retire_eq, count_ln]
        have := congrArg (fun u : Thread => spGet u.ln.v (k * 64 + l)) (orFlagLanes_frame (s.cur.wrLanes d (fun l => (f s.cur l).1)
          (s.cur.activeLanes p)) (fun l => (f s.cur l).2) (s.cur.activeLanes p))
        exact this
      rw [e, rdV_wrLanes _ _ _ _ (fun l hl => active_lt _ _ _ ((mem_activeLanes _ _ _).1 hl)) _ _ hl]
      simp only [mem_activeLanes]
    · intro l
      have e : (floatOp d p f s).cur.rdFlags l
          = ((s.cur.wrLanes d (fun l => (f s.cur l).1) (s.cur.activeLanes p)).orFlagLanes
              (fun l => (f s.cur l).2) (s.cur.activeLanes p)).rdFlags l := by
        rw [hop]
        simp only [Thread.rdFlags, retire_eq, count_ln]
        rfl
      have e2 : (s.cur.wrLanes d (fun l => (f s.cur l).1) (s.cur.activeLanes p)).rdFlags l = s.cur.rdFlags l := by
        have h := congrArg (fun u : Thread => spGet u.ln.flags l)
          (wrLanes_frame s.cur d (fun l => (f s.cur l).1) (s.cur.activeLanes p))
        exact h
      rw [e, rdFlags_orFlagLanes, e2]
      simp only [mem_activeLanes]
  · intro h0
    unfold floatOp fpGuard goOn
    dsimp only
    rw [fpTrapLanes_eq, if_neg h0]

theorem floatPred_compare (s : State) (d p : BitVec 3) (f : Thread → Nat → Bool × BitVec 5) :
    FloatCompare s (goOn (floatPred d.toNat p.toNat f s)) d p.toNat (f s.cur) := by
  constructor
  · intro h0
    have hop : floatPred d.toNat p.toNat f s = (s.updCur (fun t => (t.wrPreds d.toNat (fun l => (f t l).1) (s.cur.activeLanes p.toNat)).orFlagLanes
        (fun l => (f t l).2) (s.cur.activeLanes p.toNat))).retire := by
      unfold floatPred fpGuard
      dsimp only
      rw [fpTrapLanes_eq, if_pos h0]
    have hf : noP (noFlags ((s.cur.wrPreds d.toNat (fun l => (f s.cur l).1) (s.cur.activeLanes p.toNat)).orFlagLanes
        (fun l => (f s.cur l).2) (s.cur.activeLanes p.toNat))) = noP (noFlags s.cur) := by
      rw [orFlagLanes_frame]
      exact congrArg noFlags (wrPreds_frame s.cur d.toNat (fun l => (f s.cur l).1) (s.cur.activeLanes p.toNat))
    have hsc := congrArg Thread.sc hf
    have h := retire_updCur s (fun t => (t.wrPreds d.toNat (fun l => (f t l).1) (s.cur.activeLanes p.toNat)).orFlagLanes
        (fun l => (f t l).2) (s.cur.activeLanes p.toNat)) (fun u => noP (noFlags u))
      (congrArg (fun u => still (u.fall.dropHints)) hf) (fun t u h => congrArg (fun u => noP (noFlags u)) h)
      (congrArg Scalar.pc hsc) (congrArg Scalar.loops hsc)
    refine ⟨_, rfl, ?_, ?_, by rw [hop]; exact h⟩
    · intro k l
      have e : (floatPred d.toNat p.toNat f s).cur.rdP k.toNat l
          = (s.cur.wrPreds d.toNat (fun l => (f s.cur l).1) (s.cur.activeLanes p.toNat)).rdP k.toNat l := by
        rw [hop]
        simp only [Thread.rdP, retire_eq, count_ln]
        have := congrArg (fun u : Thread => spGet u.ln.p l) (orFlagLanes_frame (s.cur.wrPreds d.toNat (fun l => (f s.cur l).1)
          (s.cur.activeLanes p.toNat)) (fun l => (f s.cur l).2) (s.cur.activeLanes p.toNat))
        exact congrArg (fun x : BitVec 8 => (decide (k.toNat = 0) || x.getLsbD k.toNat)) this
      rw [e, rdP_wrPreds]
      simp only [mem_activeLanes]
    · intro l
      have e : (floatPred d.toNat p.toNat f s).cur.rdFlags l
          = ((s.cur.wrPreds d.toNat (fun l => (f s.cur l).1) (s.cur.activeLanes p.toNat)).orFlagLanes
              (fun l => (f s.cur l).2) (s.cur.activeLanes p.toNat)).rdFlags l := by
        rw [hop]
        simp only [Thread.rdFlags, retire_eq, count_ln]
        rfl
      have e2 : (s.cur.wrPreds d.toNat (fun l => (f s.cur l).1) (s.cur.activeLanes p.toNat)).rdFlags l = s.cur.rdFlags l := by
        have h := congrArg (fun u : Thread => spGet u.ln.flags l)
          (wrPreds_frame s.cur d.toNat (fun l => (f s.cur l).1) (s.cur.activeLanes p.toNat))
        exact h
      rw [e, rdFlags_orFlagLanes, e2]
      simp only [mem_activeLanes]
  · intro h0
    unfold floatPred fpGuard goOn
    dsimp only
    rw [fpTrapLanes_eq, if_neg h0]

end Sys2Proof.Laws
end

