-- ==== Sys2Proof/Laws/Memory.lean ====
section
/-!
SUPPORT. Every operation that writes a memory keeps its canonical form, and what a write brings about beside its bytes (counters, wakes,
barriers, ready words) leaves the memories as they are.
-/
namespace Sys2Proof.Laws

open Sys2Proof.Machine

/-- The four memories of a state. -/
def mems (s : State) : Memory × Memory × Memory × Memory := (s.mem, s.stores, s.hubMem, s.hostMem)

theorem memWf_eq (s : State) : s.memWf = (Memory.wf (mems s).1 && Memory.wf (mems s).2.1 && Memory.wf (mems s).2.2.1 && Memory.wf (mems s).2.2.2) := rfl

/-- The form is a property of the memories alone. -/
theorem memWf_of_mems {s t : State} (h : mems t = mems s) : t.memWf = s.memWf := by rw [memWf_eq, memWf_eq, h]

theorem memWf_iff (s : State) : s.memWf = true ↔
    Memory.wf s.mem = true ∧ Memory.wf s.stores = true ∧ Memory.wf s.hubMem = true ∧ Memory.wf s.hostMem = true := by
  simp [State.memWf, and_assoc]

/-- A fold of updates that leave the memories leaves the memories. -/
theorem mems_foldl {α : Type} (f : State → α → State) (hf : ∀ s a, mems (f s a) = mems s) (l : List α) (s : State) :
    mems (l.foldl f s) = mems s := by
  induction l generalizing s with
  | nil => rfl
  | cons a l ih => exact (ih (f s a)).trans (hf s a)

/-! ### What a write brings about beside its bytes -/

@[simp] theorem mems_owe (s : State) (e : Event) : mems (s.owe e) = mems s := rfl
@[simp] theorem mems_mapT (s : State) (f : Thread → Thread) : mems (s.mapT f) = mems s := rfl
@[simp] theorem mems_updCur (s : State) (f : Thread → Thread) : mems (s.updCur f) = mems s := rfl
@[simp] theorem mems_updT (s : State) (u : Nat) (f : Thread → Thread) : mems (s.updT u f) = mems s := rfl
@[simp] theorem mems_setIsland (s : State) (i : Island) : mems (s.setIsland i) = mems s := rfl
@[simp] theorem mems_updIsland (s : State) (n : Nat) (f : Island → Island) : mems (s.updIsland n f) = mems s := rfl
@[simp] theorem mems_setGroup (s : State) (g : Group) : mems (s.setGroup g) = mems s := rfl
@[simp] theorem mems_setCounter (s : State) (c : Counter) : mems (s.setCounter c) = mems s := rfl
@[simp] theorem mems_setMeter (s : State) (m : Meter) : mems (s.setMeter m) = mems s := rfl
@[simp] theorem mems_wakeWith (s : State) (us : List Nat) (f : Thread → List (Nat × Nat)) (b : Bool) : mems (wakeWith s us f b) = mems s := rfl
@[simp] theorem mems_charge (s : State) (isl ctx fj : Nat) : mems (charge s isl ctx fj) = mems s := by unfold charge; split <;> simp
@[simp] theorem mems_l2Used (s : State) (isl ctx n : Nat) : mems (l2Used s isl ctx n) = mems s := by simp [l2Used]
@[simp] theorem mems_storeUsed (s : State) (isl ctx n : Nat) : mems (storeUsed s isl ctx n) = mems s := by simp [storeUsed]
@[simp] theorem mems_sendUsed (s : State) (isl ctx : Nat) : mems (sendUsed s isl ctx) = mems s := by simp [sendUsed]
@[simp] theorem mems_oweOnce (s : State) (e : Event) : mems (s.oweOnce e) = mems s := by unfold State.oweOnce; split <;> rfl

@[simp] theorem mems_heatRequest (s : State) (isl : Nat) (r : HeatReq) : mems (heatRequest s isl r) = mems s := by simp [heatRequest]
@[simp] theorem mems_heatReturn (s : State) (isl n : Nat) : mems (heatReturn s isl n) = mems s := by unfold heatReturn; split <;> simp
@[simp] theorem mems_heatCancel (s : State) (isl k w : Nat) : mems (heatCancel s isl k w) = mems s := rfl

@[simp] theorem mems_oweWakes (s : State) (us : List Nat) : mems (oweWakes s us) = mems s := by
  unfold oweWakes
  split
  · rfl
  · rw [mems_foldl _ (fun s u => mems_oweOnce s _)]; rfl

@[simp] theorem mems_holdWaits (s : State) (isl : Nat) (cs : List (Nat × Byte)) : mems (holdWaits s isl cs) = mems s := by
  unfold holdWaits
  rw [mems_foldl _ (fun s u => mems_oweOnce s _)]; rfl

@[simp] theorem mems_groupLook (s : State) (g : Group) : mems (groupLook s g) = mems s := by
  unfold groupLook
  split
  · simp only []
    split <;> simp
  · simp
@[simp] theorem mems_groupArrive (s : State) (g : Group) (u : Nat) : mems (groupArrive s g u) = mems s := by simp [groupArrive]
@[simp] theorem mems_groupExternal (s : State) (isl ctx e : Nat) (r : List (Nat × Nat)) :
    mems (groupExternal s isl ctx e r) = mems s := by
  unfold groupExternal; split <;> simp
@[simp] theorem mems_groupRecheck (s : State) (isl l : Nat) : mems (groupRecheck s isl l) = mems s :=
  mems_foldl _ (fun s g => mems_groupLook s g) _ s
@[simp] theorem mems_chainReady (s : State) (c : Chain) : mems (chainReady s c) = mems s := by unfold chainReady; exact mems_heatRequest _ _ _
@[simp] theorem mems_yardLook (s : State) (isl core : Nat) : mems (yardLook s isl core) = mems s :=
  mems_foldl _ (fun s c => mems_chainReady s c) _ s

@[simp] theorem mems_counterAct (s : State) (c : Counter) : mems (counterAct s c) = mems s := by
  unfold counterAct
  split
  · split
    · rfl
    · split <;> rfl
  · split
    · simp
    · split
      · rfl
      · split <;> rfl

@[simp] theorem mems_counterFire (s : State) (c : Counter) : mems (counterFire s c) = mems s := by
  unfold counterFire; simp only []; split <;> simp
@[simp] theorem mems_countOne (s : State) (c : Counter) (n : Nat) : mems (countOne s c n) = mems s := by
  unfold countOne
  split
  · rfl
  · split
    · simp only []; split <;> simp
    · split <;> simp
@[simp] theorem mems_countWrite (s : State) (isl core space : Nat) (as : List Nat) : mems (countWrite s isl core space as) = mems s := by
  refine mems_foldl _ (fun s c => ?_) _ s
  split <;> simp
@[simp] theorem mems_countRange (s : State) (isl core space lo n : Nat) : mems (countRange s isl core space lo n) = mems s := by
  refine mems_foldl _ (fun s c => ?_) _ s
  split <;> simp
@[simp] theorem mems_readyFire (s : State) (isl pa : Nat) : mems (readyFire s isl pa) = mems s := by
  unfold readyFire
  split
  · rfl
  · split
    · rfl
    · split <;> rfl
@[simp] theorem mems_readyWrite (s : State) (isl : Nat) (cs : List (Nat × Byte)) : mems (readyWrite s isl cs) = mems s :=
  mems_foldl _ (fun s a => mems_readyFire s isl a) _ s
@[simp] theorem mems_clearBad (s : State) (isl : Nat) (cs : List (Nat × Byte)) : mems (clearBad s isl cs) = mems s := by
  unfold clearBad; split <;> rfl

/-! ### Writes -/

theorem reset_memWf : State.reset.memWf = true := rfl

theorem physSet_memWf {s : State} (h : s.memWf = true) (isl : Nat) (cs : List (Nat × Byte)) : (s.physSet isl cs).memWf = true := by
  rw [memWf_iff] at *
  unfold State.physSet
  split
  · exact ⟨h.1, h.2.1, setCells_wf h.2.2.1 cs, h.2.2.2⟩
  · exact ⟨setCells_wf h.1 _, h.2⟩

theorem l2Base_mems (s : State) (isl : Nat) (cs : List (Nat × Byte)) : mems (l2Base s isl cs) = mems (s.physSet isl cs) := by simp [l2Base]

/-- What a write at the L2 does to the memories: the cells, or nothing where there are none. -/
theorem l2Put_mems (s : State) (isl : Nat) (cs : List (Nat × Byte)) : mems (l2Put s isl cs) = mems (if cs = [] then s else s.physSet isl cs) := by
  unfold l2Put
  split
  · rfl
  · split
    · rfl
    · simp [l2Base_mems]

theorem l2Put_memWf {s : State} (h : s.memWf = true) (isl : Nat) (cs : List (Nat × Byte)) : (l2Put s isl cs).memWf = true := by
  rw [memWf_of_mems (l2Put_mems s isl cs)]
  split
  · exact h
  · exact physSet_memWf h isl cs

theorem storePut_memWf {s : State} (h : s.memWf = true) (isl core space : Nat) (cs : List (Nat × Byte)) :
    (storePut s isl core space cs).memWf = true := by
  have h' := (memWf_iff s).1 h
  unfold storePut
  split
  · exact h
  · simp only []
    split <;> (rw [memWf_of_mems (mems_countWrite _ _ _ _ _), memWf_iff]; exact ⟨h'.1, setCells_wf h'.2.1 _, h'.2.2⟩)

theorem hostPut_memWf {s : State} (h : s.memWf = true) (a : Nat) (bs : List Byte) : (hostPut s a bs).memWf = true := by
  rw [memWf_iff] at *
  exact ⟨h.1, h.2.1, h.2.2.1, setBytes_wf h.2.2.2 a bs⟩

theorem zeroStore_memWf {s : State} (h : s.memWf = true) (isl core space lo n : Nat) : (zeroStore s isl core space lo n).memWf = true := by
  have h' := (memWf_iff s).1 h
  unfold zeroStore
  split
  · exact h
  · simp only []
    split <;> (rw [memWf_iff]; exact ⟨h'.1, filter_wf h'.2.1 _, h'.2.2⟩)

theorem loseFrames_memWf {s : State} (h : s.memWf = true) (isl ctx : Nat) : (loseFrames s isl ctx).memWf = true := by
  rw [memWf_iff] at *
  exact ⟨filter_wf h.1 _, h.2⟩

theorem scrubMemory_memWf {s : State} (h : s.memWf = true) (isl pa : Nat) : (scrubMemory s isl pa).memWf = true := by
  have h' := (memWf_iff s).1 h
  unfold scrubMemory
  rw [memWf_of_mems (mems_countRange _ _ _ _ _ _), memWf_iff]
  exact ⟨filter_wf h'.1 _, h'.2⟩

/-- A map with its keys changed is in canonical form, whatever the map was. -/
theorem mapKeys_wf {w : Nat} (f : Nat → Nat) (m : Sparse w) : spWf (mapKeys f m) = true :=
  foldl_spSet_wf (fun c : Nat × BitVec w => f c.1) (fun c => c.2) m (m := ([] : Sparse w)) rfl

theorem exchange_memWf {s : State} (h : s.memWf = true) (a b : Nat) : (exchange a b s).memWf = true := by
  have h1 : (exchange a b s).mem = mapKeys (fun k => swapNat a b (k / 2 ^ 48) * 2 ^ 48 + k % 2 ^ 48) s.mem := rfl
  have h2 : (exchange a b s).stores = mapKeys (fun k => swapNat a b (k / 2 ^ 35) * 2 ^ 35 + k % 2 ^ 35) s.stores := rfl
  have h3 : (exchange a b s).hubMem = s.hubMem := rfl
  have h4 : (exchange a b s).hostMem = s.hostMem := rfl
  rw [memWf_iff] at *
  rw [h1, h2, h3, h4]
  exact ⟨mapKeys_wf _ _, mapKeys_wf _ _, h.2.2⟩

theorem l2Used_memWf {s : State} (h : s.memWf = true) (isl ctx n : Nat) : (l2Used s isl ctx n).memWf = true := by
  rw [memWf_of_mems (mems_l2Used s isl ctx n), h]

/-- A fold of updates that keep the form keeps it. -/
theorem foldl_memWf {α : Type} (f : State → α → State) (hf : ∀ s a, s.memWf = true → (f s a).memWf = true) (l : List α) {s : State}
    (h : s.memWf = true) : (l.foldl f s).memWf = true := by
  induction l generalizing s with
  | nil => exact h
  | cons a l ih => exact ih (hf s a h)

theorem walkUsed_memWf {s : State} (h : s.memWf = true) (isl ctx va : Nat) : (walkUsed s isl ctx va).memWf = true := by
  unfold walkUsed
  split
  · exact h
  · exact l2Used_memWf h _ _ _

theorem setAD_memWf {s : State} (h : s.memWf = true) (isl ctx e : Nat) (wr : Bool) : (setAD s isl ctx e wr).memWf = true := by
  unfold setAD
  simp only []
  refine physSet_memWf ?_ _ _
  split
  · exact h
  · exact l2Used_memWf h _ _ _

theorem markAD_memWf {s : State} (h : s.memWf = true) (isl ctx va : Nat) (wr : Bool) : (markAD s isl ctx va wr).memWf = true := by
  unfold markAD
  split
  · exact walkUsed_memWf h _ _ _
  · exact setAD_memWf (walkUsed_memWf h _ _ _) _ _ _ _

@[simp] theorem mems_setFn (s : State) (x : FnRegs) : mems (s.setFn x) = mems s := rfl
@[simp] theorem mems_setFrame (s : State) (x : FrameInfo) : mems (s.setFrame x) = mems s := rfl
@[simp] theorem mems_sendMsix (s : State) (fn v : Nat) : mems (sendMsix s fn v) = mems s := by
  unfold sendMsix; simp only []; split <;> simp

theorem postEvent_memWf {s : State} (h : s.memWf = true) (fn code isl ctx : Nat) (ws : List Word64) :
    (postEvent s fn code isl ctx ws).memWf = true := by
  unfold postEvent
  rw [memWf_of_mems (mems_sendMsix _ _ _), memWf_of_mems (mems_setFn _ _)]
  exact hostPut_memWf h _ _

theorem badLine_memWf {s : State} (h : s.memWf = true) (isl line : Nat) : (badLine s isl line).memWf = true := by
  have hi : ∀ i : Island, (s.setIsland i).memWf = true := fun i => (memWf_of_mems (mems_setIsland s i)).trans h
  unfold badLine
  simp only []
  split
  · exact h
  · split
    · split
      · exact postEvent_memWf (hi _) _ _ _ _ _
      · exact hi _
    · exact (memWf_of_mems (mems_setFrame s _)).trans h

/-! ### The L1 (R66, R81) -/

@[simp] theorem mems_l1Put (s : State) (l : L1Line) : mems (l1Put s l) = mems s := rfl

theorem l1WriteBack_memWf {s : State} (h : s.memWf = true) (l : L1Line) : (l1WriteBack s l).memWf = true := by
  have hp : (l2Put (l2Used (l1Put s { l with dirty := 0 }) l.isl l.ctx (dirtyCells l).length) l.isl (dirtyCells l)).memWf = true :=
    l2Put_memWf (l2Used_memWf ((memWf_of_mems (mems_l1Put s _)).trans h) _ _ _) _ _
  unfold l1WriteBack
  simp only []
  split
  · exact h
  · split
    · exact hp
    · exact badLine_memWf hp _ _

theorem wbLines_memWf {s : State} (h : s.memWf = true) (p : L1Line → Bool) : (wbLines s p).memWf = true :=
  foldl_memWf _ (fun _ l hs => l1WriteBack_memWf hs l) _ h

theorem dropLines_memWf {s : State} (h : s.memWf = true) (p : L1Line → Bool) : (dropLines s p).memWf = true := wbLines_memWf h p

theorem displace_memWf {s : State} (h : s.memWf = true) (v : L1Line) : (displace s v).memWf = true := l1WriteBack_memWf h v

theorem makeRoom_memWf {s : State} (h : s.memWf = true) (isl core line pol : Nat) : (makeRoom s isl core line pol).memWf = true := by
  unfold makeRoom
  simp only []
  split
  · exact displace_memWf h _
  · split
    · exact h
    · split
      · exact h
      · split
        · exact h
        · exact displace_memWf (s := { s with fresh := s.fresh + 1 }) h _

theorem l1Fill_memWf {s : State} (h : s.memWf = true) (isl core ctx line vline team pol : Nat) :
    (l1Fill s isl core ctx line vline team pol).1.memWf = true := by
  unfold l1Fill
  split
  · exact h
  · exact l2Used_memWf (makeRoom_memWf h _ _ _ _) _ _ _

theorem lineRead_memWf {s : State} (h : s.memWf = true) (isl core ctx va pa n team pol : Nat) :
    (lineRead s isl core ctx va pa n team pol).1.memWf = true := by
  unfold lineRead
  split
  · exact l2Used_memWf h _ _ _
  · exact l1Fill_memWf h _ _ _ _ _ _ _

theorem lineWrite_memWf {s : State} (h : s.memWf = true) (isl core ctx va pa : Nat) (bs : List Byte) (team pol : Nat) :
    (lineWrite s isl core ctx va pa bs team pol).memWf = true := by
  unfold lineWrite
  split
  · exact l2Put_memWf (l2Used_memWf h _ _ _) _ _
  · exact l1Fill_memWf h _ _ _ _ _ _ _

theorem touch_mems (s : State) (isl core line : Nat) (miss : Bool) : mems (touch s isl core line miss) = mems s := by
  unfold touch; simp only []; split <;> rfl

theorem gRead_memWf {s : State} (h : s.memWf = true) (isl core ctx va pa n pol : Nat) : (gRead s isl core ctx va pa n pol).1.memWf = true :=
  lineRead_memWf (s := touchAt s isl core pa) ((memWf_of_mems (touch_mems _ _ _ _ _)).trans h) _ _ _ _ _ _ _ _

theorem gWrite_memWf {s : State} (h : s.memWf = true) (isl core ctx va pa : Nat) (bs : List Byte) (pol : Nat) :
    (gWrite s isl core ctx va pa bs pol).memWf = true :=
  lineWrite_memWf (s := touchAt s isl core pa) ((memWf_of_mems (touch_mems _ _ _ _ _)).trans h) _ _ _ _ _ _ _ _

/-! ### Accesses performed late, and the images of a save area -/

theorem lateRead_memWf {s : State} (h : s.memWf = true) (a : LateAcc) (e : Nat × Nat × Nat × Nat × List Byte) :
    (lateRead s a e).1.memWf = true := by
  unfold lateRead
  split
  · exact lineRead_memWf h _ _ _ _ _ _ _ _
  · exact (memWf_of_mems (mems_storeUsed _ _ _ _)).trans h

theorem lateWrite_memWf {s : State} (h : s.memWf = true) (a : LateAcc) (e : Nat × Nat × Nat × Nat × List Byte) :
    (lateWrite a s e).memWf = true := by
  unfold lateWrite
  split
  · exact lineWrite_memWf h _ _ _ _ _ _ _ _
  · exact storePut_memWf ((memWf_of_mems (mems_storeUsed _ _ _ _)).trans h) _ _ _ _

theorem landLate_memWf {s : State} (h : s.memWf = true) (a : LateAcc) : (landLate s a).memWf = true := by
  unfold landLate
  simp only []
  split
  · exact h
  · exact foldl_memWf _ (fun _ e hs => lateWrite_memWf hs a e) _ h

theorem landOf_memWf {s : State} (h : s.memWf = true) (us : List Nat) : (landOf s us).memWf = true :=
  foldl_memWf _ (fun _ a hs => landLate_memWf hs a) _ h

theorem writeImage_memWf {s : State} (h : s.memWf = true) (i : Image) : (writeImage s i).memWf = true := by
  unfold writeImage markImage
  exact l2Put_memWf (l2Used_memWf (foldl_memWf _ (fun s k hs => markAD_memWf hs _ _ _ _) _ h) _ _ _) _ _

/-- The update of an image keeps the form where the end of a context, which a lost save area brings about, keeps it. -/
theorem updateImages_memWf (hr : ∀ (s : State) (isl ctx : Nat), s.memWf = true → (regionLost s isl ctx).memWf = true) {s : State}
    (h : s.memWf = true) (old : State) (op : Nat) : (updateImages old s op).memWf = true := by
  unfold updateImages
  refine foldl_memWf _ (fun s i hs => ?_) _ h
  unfold updateImage
  simp only []
  split
  · exact hs
  · split
    · exact hr _ _ _ hs
    · exact l2Put_memWf (l2Used_memWf (foldl_memWf _ (fun s p hs => markAD_memWf hs _ _ _ _) _ hs) _ _ _) _ _

theorem withFetchWord_memWf {s : State} (h : s.memWf = true) (n w : Nat) : (s.withFetchWord n w).memWf = true := by
  rw [memWf_iff] at *
  refine ⟨?_, h.2.1, ?_, h.2.2.2⟩
  · simp only [State.withFetchWord]; split
    · exact h.1
    · exact setCells_wf (setCells_wf h.1 _) _
  · simp only [State.withFetchWord]; split
    · exact setCells_wf h.2.2.1 _
    · exact h.2.2.1

end Sys2Proof.Laws
end

