-- ==== Sys2Proof/Laws/PerInstr.lean ====
section
/-!
SUPPORT. Statements about each instruction as syntax, one lemma per constructor: a well-formed instruction is what its word decodes to.
-/
namespace Sys2Proof.Laws

open Sys2Proof

/-- R208, R209, R211, R216, R219: the word of the instruction, where it is well formed, decodes to it. -/
def RoundTrip.Statement (i : Instr) : Prop := ∀ w, i.wf = true → encodeWord i = some w → w < 2 ^ 32 ∧ decodeWord w = .ok i

theorem bv_eq {w lo n : Nat} {x : BitVec n} (h : w / 2 ^ lo % 2 ^ n = x.toNat) : bv w lo n = x := by
  rw [bv, field, h, BitVec.ofNat_toNat, BitVec.setWidth_eq]

theorem toNat_of_bv {w lo n : Nat} {x : BitVec n} (h : bv w lo n = x) : field w lo n = x.toNat := by
  rw [← h, bv, BitVec.toNat_ofNat]; exact (Nat.mod_eq_of_lt (Nat.mod_lt _ (Nat.two_pow_pos n))).symm

theorem accept_wf {i : Instr} (h : i.wf = true) : accept true i = .ok i := by
  simp only [Instr.wf, Bool.and_eq_true] at h
  simp [accept, h.1.1, h.1.2, h.2]

theorem acceptCode_wf {i : Instr} (h : i.wf = true) : acceptCode true true i = .ok i := by
  rw [acceptCode]; simp [accept_wf h]

theorem codes_of_wf {i : Instr} (h : i.wf = true) : i.codesOk = true := by
  simp only [Instr.wf, Bool.and_eq_true] at h
  exact h.1.2

theorem major00 {w : Nat} (h : field w 26 6 = 0) : decodeWord w = decode00 w := by
  simp [decodeWord, h]
theorem major01 {w : Nat} (h : field w 26 6 = 1) : decodeWord w = decode01 w := by
  simp [decodeWord, h]
theorem major02 {w : Nat} (h : field w 26 6 = 2) : decodeWord w = decode02 w := by
  simp [decodeWord, h]
theorem major03 {w : Nat} (h : field w 26 6 = 3) : decodeWord w = decode03 w := by
  simp [decodeWord, h]
theorem major04 {w : Nat} (h : field w 26 6 = 4) : decodeWord w = decode04 w := by
  simp [decodeWord, h]
theorem major05 {w : Nat} (h : field w 26 6 = 5) : decodeWord w = decode05 w := by
  simp [decodeWord, h]
theorem major06 {w : Nat} (h : field w 26 6 = 6) : decodeWord w = decode06 w := by
  simp [decodeWord, h]
theorem major07 {w : Nat} (h : field w 26 6 = 7) : decodeWord w = decode07 w := by
  simp [decodeWord, h]
theorem major08 {w : Nat} (h : field w 26 6 = 8) : decodeWord w = decode08 w := by
  simp [decodeWord, h]
theorem major09 {w : Nat} (h : field w 26 6 = 9) : decodeWord w = decode09 w := by
  simp [decodeWord, h]
theorem major0A {w : Nat} (h : field w 26 6 = 10) : decodeWord w = decode0A w := by
  simp [decodeWord, h]
theorem major0B {w : Nat} (h : field w 26 6 = 11) : decodeWord w = decode0B w := by
  simp [decodeWord, h]
theorem major0C {w : Nat} (h : field w 26 6 = 12) : decodeWord w = decode0C w := by
  simp [decodeWord, h]
theorem major0D {w : Nat} (h : field w 26 6 = 13) : decodeWord w = decode0D w := by
  simp [decodeWord, h]
theorem major0E {w : Nat} (h : field w 26 6 = 14) : decodeWord w = decode0E w := by
  simp [decodeWord, h]
theorem major10 {w : Nat} (h : field w 26 6 = 16) : decodeWord w = decode10 w := by
  simp [decodeWord, h]
theorem major11 {w : Nat} (h : field w 26 6 = 17) : decodeWord w = decode11 w := by
  simp [decodeWord, h]
theorem major12 {w : Nat} (h : field w 26 6 = 18) : decodeWord w = decode12 w := by
  simp [decodeWord, h]
theorem major13 {w : Nat} (h : field w 26 6 = 19) : decodeWord w = decode13 w := by
  simp [decodeWord, h]
theorem major14 {w : Nat} (h : field w 26 6 = 20) : decodeWord w = decode14 w := by
  simp [decodeWord, h]
theorem major15 {w : Nat} (h : field w 26 6 = 21) : decodeWord w = decode15 w := by
  simp [decodeWord, h]
theorem major16 {w : Nat} (h : field w 26 6 = 22) : decodeWord w = decode16 w := by
  simp [decodeWord, h]
theorem major17 {w : Nat} (h : field w 26 6 = 23) : decodeWord w = decode17 w := by
  simp [decodeWord, h]
theorem major18 {w : Nat} (h : field w 26 6 = 24) : decodeWord w = decode18 w := by
  simp [decodeWord, h]
theorem major19 {w : Nat} (h : field w 26 6 = 25) : decodeWord w = decode19 w := by
  simp [decodeWord, h]
theorem major1A {w : Nat} (h : field w 26 6 = 26) : decodeWord w = decode1A w := by
  simp [decodeWord, h]
theorem major1B {w : Nat} (h : field w 26 6 = 27) : decodeWord w = decode1B w := by
  simp [decodeWord, h]
theorem major1C {w : Nat} (h : field w 26 6 = 28) : decodeWord w = decode1C w := by
  simp [decodeWord, h]
theorem major1D {w : Nat} (h : field w 26 6 = 29) : decodeWord w = decode1D w := by
  simp [decodeWord, h]
theorem major1E {w : Nat} (h : field w 26 6 = 30) : decodeWord w = decode1E w := by
  simp [decodeWord, h]
theorem major20 {w : Nat} (h : field w 26 6 = 32) : decodeWord w = decode20 w := by
  simp [decodeWord, h]
theorem major21 {w : Nat} (h : field w 26 6 = 33) : decodeWord w = decode21 w := by
  simp [decodeWord, h]
theorem major22 {w : Nat} (h : field w 26 6 = 34) : decodeWord w = decode22 w := by
  simp [decodeWord, h]
theorem major23 {w : Nat} (h : field w 26 6 = 35) : decodeWord w = decode23 w := by
  simp [decodeWord, h]
theorem major24 {w : Nat} (h : field w 26 6 = 36) : decodeWord w = decode24 w := by
  simp [decodeWord, h]
theorem major25 {w : Nat} (h : field w 26 6 = 37) : decodeWord w = decode25 w := by
  simp [decodeWord, h]
theorem major26 {w : Nat} (h : field w 26 6 = 38) : decodeWord w = decode26 w := by
  simp [decodeWord, h]
theorem major27 {w : Nat} (h : field w 26 6 = 39) : decodeWord w = decode27 w := by
  simp [decodeWord, h]
theorem major28 {w : Nat} (h : field w 26 6 = 40) : decodeWord w = decode28 w := by
  simp [decodeWord, h]
theorem major29 {w : Nat} (h : field w 26 6 = 41) : decodeWord w = decode29 w := by
  simp [decodeWord, h]
theorem major2A {w : Nat} (h : field w 26 6 = 42) : decodeWord w = decode2A w := by
  simp [decodeWord, h]
theorem major2B {w : Nat} (h : field w 26 6 = 43) : decodeWord w = decode2B w := by
  simp [decodeWord, h]
theorem major2C {w : Nat} (h : field w 26 6 = 44) : decodeWord w = decode2C w := by
  simp [decodeWord, h]
theorem major2D {w : Nat} (h : field w 26 6 = 45) : decodeWord w = decode2D w := by
  simp [decodeWord, h]
theorem major2E {w : Nat} (h : field w 26 6 = 46) : decodeWord w = decode2E w := by
  simp [decodeWord, h]
theorem major2F {w : Nat} (h : field w 26 6 = 47) : decodeWord w = decode2F w := by
  simp [decodeWord, h]
theorem major30 {w : Nat} (h : field w 26 6 = 48) : decodeWord w = decode30 w := by
  simp [decodeWord, h]
theorem major31 {w : Nat} (h : field w 26 6 = 49) : decodeWord w = decode31 w := by
  simp [decodeWord, h]
theorem major32 {w : Nat} (h : field w 26 6 = 50) : decodeWord w = decode32 w := by
  simp [decodeWord, h]
theorem major33 {w : Nat} (h : field w 26 6 = 51) : decodeWord w = decode33 w := by
  simp [decodeWord, h]
theorem major34 {w : Nat} (h : field w 26 6 = 52) : decodeWord w = decode34 w := by
  simp [decodeWord, h]
theorem major35 {w : Nat} (h : field w 26 6 = 53) : decodeWord w = decode35 w := by
  simp [decodeWord, h]
theorem major36 {w : Nat} (h : field w 26 6 = 54) : decodeWord w = decode36 w := by
  simp [decodeWord, h]
theorem major37 {w : Nat} (h : field w 26 6 = 55) : decodeWord w = decode37 w := by
  simp [decodeWord, h]
theorem major38 {w : Nat} (h : field w 26 6 = 56) : decodeWord w = decode38 w := by
  simp [decodeWord, h]
theorem major39 {w : Nat} (h : field w 26 6 = 57) : decodeWord w = decode39 w := by
  simp [decodeWord, h]
theorem major3A {w : Nat} (h : field w 26 6 = 58) : decodeWord w = decode3A w := by
  simp [decodeWord, h]
theorem major3B {w : Nat} (h : field w 26 6 = 59) : decodeWord w = decode3B w := by
  simp [decodeWord, h]
theorem major3C {w : Nat} (h : field w 26 6 = 60) : decodeWord w = decode3C w := by
  simp [decodeWord, h]
theorem major3D {w : Nat} (h : field w 26 6 = 61) : decodeWord w = decode3D w := by
  simp [decodeWord, h]
theorem major3E {w : Nat} (h : field w 26 6 = 62) : decodeWord w = decode3E w := by
  simp [decodeWord, h]
theorem major3F {w : Nat} (h : field w 26 6 = 63) : decodeWord w = decode3F w := by
  simp [decodeWord, h]

theorem layout1 {w C M k : Nat} (hw : w = C)
    (hC : C = M * 67108864 + k * 262144 + 0) (hM : M < 64) (hk : k < 256) :
    w < 2 ^ 32 ∧ field w 26 6 = M ∧ field w 18 8 = k ∧ field w 0 18 = 0 := by
  exact ⟨by omega, by unfold field; omega, by unfold field; omega, by unfold field; omega⟩

theorem layout2 {w C M k : Nat} {x0 : BitVec 6} (hw : w = C + x0.toNat)
    (hC : C = M * 67108864 + k * 262144 + 0) (hM : M < 64) (hk : k < 256) :
    w < 2 ^ 32 ∧ field w 26 6 = M ∧ field w 18 8 = k ∧ field w 6 12 = 0 ∧ bv w 0 6 = x0 := by
  have b0 := x0.isLt
  exact ⟨by omega, by unfold field; omega, by unfold field; omega, by unfold field; omega, bv_eq (by omega)⟩

theorem layout3 {w C M k : Nat} {x0 : BitVec 6} {x1 : BitVec 6} (hw : w = C + x0.toNat * 4096 + x1.toNat)
    (hC : C = M * 67108864 + k * 262144 + 0) (hM : M < 64) (hk : k < 256) :
    w < 2 ^ 32 ∧ field w 26 6 = M ∧ field w 18 8 = k ∧ field w 6 6 = 0 ∧ bv w 12 6 = x0 ∧ bv w 0 6 = x1 := by
  have b0 := x0.isLt
  have b1 := x1.isLt
  exact ⟨by omega, by unfold field; omega, by unfold field; omega, by unfold field; omega, bv_eq (by omega), bv_eq (by omega)⟩

theorem layout4 {w C M k : Nat} {x0 : BitVec 6} {x1 : BitVec 6} {x2 : BitVec 6} (hw : w = C + x0.toNat * 1048576 + x1.toNat * 16384 + x2.toNat * 256)
    (hC : C = M * 67108864 + k * 1 + 0) (hM : M < 64) (hk : k < 256) :
    w < 2 ^ 32 ∧ field w 26 6 = M ∧ field w 0 8 = k ∧ bv w 20 6 = x0 ∧ bv w 14 6 = x1 ∧ bv w 8 6 = x2 := by
  have b0 := x0.isLt
  have b1 := x1.isLt
  have b2 := x2.isLt
  exact ⟨by omega, by unfold field; omega, by unfold field; omega, bv_eq (by omega), bv_eq (by omega), bv_eq (by omega)⟩

theorem layout5 {w C M k : Nat} {x0 : BitVec 6} {x1 : BitVec 6} (hw : w = C + x0.toNat * 1048576 + x1.toNat * 16384)
    (hC : C = M * 67108864 + k * 1 + 0) (hM : M < 64) (hk : k < 256) :
    w < 2 ^ 32 ∧ field w 26 6 = M ∧ field w 0 8 = k ∧ field w 8 6 = 0 ∧ bv w 20 6 = x0 ∧ bv w 14 6 = x1 := by
  have b0 := x0.isLt
  have b1 := x1.isLt
  exact ⟨by omega, by unfold field; omega, by unfold field; omega, by unfold field; omega, bv_eq (by omega), bv_eq (by omega)⟩

theorem layout6 {w C M : Nat} {x0 : BitVec 6} {x1 : BitVec 6} {x2 : BitVec 14} (hw : w = C + x0.toNat * 1048576 + x1.toNat * 16384 + x2.toNat)
    (hC : C = M * 67108864 + 0) (hM : M < 64) :
    w < 2 ^ 32 ∧ field w 26 6 = M ∧ bv w 20 6 = x0 ∧ bv w 14 6 = x1 ∧ bv w 0 14 = x2 := by
  have b0 := x0.isLt
  have b1 := x1.isLt
  have b2 := x2.isLt
  exact ⟨by omega, by unfold field; omega, bv_eq (by omega), bv_eq (by omega), bv_eq (by omega)⟩

theorem layout7 {w C M k : Nat} {x0 : BitVec 6} {x1 : BitVec 6} {x2 : BitVec 6} (hw : w = C + x0.toNat * 1048576 + x1.toNat * 16384 + x2.toNat)
    (hC : C = M * 67108864 + k * 4096 + 0) (hM : M < 64) (hk : k < 4) :
    w < 2 ^ 32 ∧ field w 26 6 = M ∧ field w 12 2 = k ∧ field w 6 6 = 0 ∧ bv w 20 6 = x0 ∧ bv w 14 6 = x1 ∧ bv w 0 6 = x2 := by
  have b0 := x0.isLt
  have b1 := x1.isLt
  have b2 := x2.isLt
  exact ⟨by omega, by unfold field; omega, by unfold field; omega, by unfold field; omega, bv_eq (by omega), bv_eq (by omega), bv_eq (by omega)⟩

theorem layout8 {w C M : Nat} {x0 : BitVec 6} {x1 : BitVec 20} (hw : w = C + x0.toNat * 1048576 + x1.toNat)
    (hC : C = M * 67108864 + 0) (hM : M < 64) :
    w < 2 ^ 32 ∧ field w 26 6 = M ∧ bv w 20 6 = x0 ∧ bv w 0 20 = x1 := by
  have b0 := x0.isLt
  have b1 := x1.isLt
  exact ⟨by omega, by unfold field; omega, bv_eq (by omega), bv_eq (by omega)⟩

theorem layout9 {w C M : Nat} {x0 : BitVec 3} {x1 : BitVec 3} {x2 : BitVec 6} {x3 : BitVec 6} (hw : w = C + x0.toNat * 8388608 + x1.toNat * 1048576 + x2.toNat * 16384 + x3.toNat * 256)
    (hC : C = M * 67108864 + 0) (hM : M < 64) :
    w < 2 ^ 32 ∧ field w 26 6 = M ∧ field w 0 8 = 0 ∧ bv w 23 3 = x0 ∧ bv w 20 3 = x1 ∧ bv w 14 6 = x2 ∧ bv w 8 6 = x3 := by
  have b0 := x0.isLt
  have b1 := x1.isLt
  have b2 := x2.isLt
  have b3 := x3.isLt
  exact ⟨by omega, by unfold field; omega, by unfold field; omega, bv_eq (by omega), bv_eq (by omega), bv_eq (by omega), bv_eq (by omega)⟩

theorem layout10 {w C M : Nat} {x0 : BitVec 3} {x1 : BitVec 3} {x2 : BitVec 6} {x3 : BitVec 14} (hw : w = C + x0.toNat * 8388608 + x1.toNat * 1048576 + x2.toNat * 16384 + x3.toNat)
    (hC : C = M * 67108864 + 0) (hM : M < 64) :
    w < 2 ^ 32 ∧ field w 26 6 = M ∧ bv w 23 3 = x0 ∧ bv w 20 3 = x1 ∧ bv w 14 6 = x2 ∧ bv w 0 14 = x3 := by
  have b0 := x0.isLt
  have b1 := x1.isLt
  have b2 := x2.isLt
  have b3 := x3.isLt
  exact ⟨by omega, by unfold field; omega, bv_eq (by omega), bv_eq (by omega), bv_eq (by omega), bv_eq (by omega)⟩

theorem layout11 {w C M k : Nat} {x0 : BitVec 6} {x1 : BitVec 6} {x2 : BitVec 12} (hw : w = C + x0.toNat * 1048576 + x1.toNat * 16384 + x2.toNat)
    (hC : C = M * 67108864 + k * 4096 + 0) (hM : M < 64) (hk : k < 4) :
    w < 2 ^ 32 ∧ field w 26 6 = M ∧ field w 12 2 = k ∧ bv w 20 6 = x0 ∧ bv w 14 6 = x1 ∧ bv w 0 12 = x2 := by
  have b0 := x0.isLt
  have b1 := x1.isLt
  have b2 := x2.isLt
  exact ⟨by omega, by unfold field; omega, by unfold field; omega, bv_eq (by omega), bv_eq (by omega), bv_eq (by omega)⟩

theorem layout12 {w C M : Nat} {x0 : BitVec 3} {x1 : BitVec 1} {x2 : BitVec 22} (hw : w = C + x0.toNat * 8388608 + x1.toNat * 4194304 + x2.toNat)
    (hC : C = M * 67108864 + 0) (hM : M < 64) :
    w < 2 ^ 32 ∧ field w 26 6 = M ∧ bv w 23 3 = x0 ∧ bv w 22 1 = x1 ∧ bv w 0 22 = x2 := by
  have b0 := x0.isLt
  have b1 := x1.isLt
  have b2 := x2.isLt
  exact ⟨by omega, by unfold field; omega, bv_eq (by omega), bv_eq (by omega), bv_eq (by omega)⟩

theorem layout13 {w C M : Nat} {x0 : BitVec 26} (hw : w = C + x0.toNat)
    (hC : C = M * 67108864 + 0) (hM : M < 64) :
    w < 2 ^ 32 ∧ field w 26 6 = M ∧ bv w 0 26 = x0 := by
  have b0 := x0.isLt
  exact ⟨by omega, by unfold field; omega, bv_eq (by omega)⟩

theorem layout14 {w C M k : Nat} {x0 : BitVec 6} (hw : w = C + x0.toNat * 4096)
    (hC : C = M * 67108864 + k * 262144 + 0) (hM : M < 64) (hk : k < 256) :
    w < 2 ^ 32 ∧ field w 26 6 = M ∧ field w 18 8 = k ∧ field w 0 12 = 0 ∧ bv w 12 6 = x0 := by
  have b0 := x0.isLt
  exact ⟨by omega, by unfold field; omega, by unfold field; omega, by unfold field; omega, bv_eq (by omega)⟩

theorem layout15 {w C M k : Nat} {x0 : BitVec 3} {x1 : BitVec 3} {x2 : BitVec 3} (hw : w = C + x0.toNat * 4096 + x1.toNat * 64 + x2.toNat)
    (hC : C = M * 67108864 + k * 262144 + 33288) (hM : M < 64) (hk : k < 256) :
    w < 2 ^ 32 ∧ field w 26 6 = M ∧ field w 18 8 = k ∧ field w 3 3 = 1 ∧ field w 9 3 = 1 ∧ field w 15 3 = 1 ∧ bv w 12 3 = x0 ∧ bv w 6 3 = x1 ∧ bv w 0 3 = x2 := by
  have b0 := x0.isLt
  have b1 := x1.isLt
  have b2 := x2.isLt
  exact ⟨by omega, by unfold field; omega, by unfold field; omega, by unfold field; omega, by unfold field; omega, by unfold field; omega, bv_eq (by omega), bv_eq (by omega), bv_eq (by omega)⟩

theorem layout16 {w C M k : Nat} {x0 : BitVec 3} {x1 : BitVec 3} (hw : w = C + x0.toNat * 4096 + x1.toNat * 64)
    (hC : C = M * 67108864 + k * 262144 + 33280) (hM : M < 64) (hk : k < 256) :
    w < 2 ^ 32 ∧ field w 26 6 = M ∧ field w 18 8 = k ∧ field w 0 6 = 0 ∧ field w 9 3 = 1 ∧ field w 15 3 = 1 ∧ bv w 12 3 = x0 ∧ bv w 6 3 = x1 := by
  have b0 := x0.isLt
  have b1 := x1.isLt
  exact ⟨by omega, by unfold field; omega, by unfold field; omega, by unfold field; omega, by unfold field; omega, by unfold field; omega, bv_eq (by omega), bv_eq (by omega)⟩

theorem layout17 {w C M k : Nat} {x0 : BitVec 6} {x1 : BitVec 8} (hw : w = C + x0.toNat * 262144 + x1.toNat)
    (hC : C = M * 67108864 + k * 16777216 + 0) (hM : M < 64) (hk : k < 4) :
    w < 2 ^ 32 ∧ field w 26 6 = M ∧ field w 24 2 = k ∧ field w 8 10 = 0 ∧ bv w 18 6 = x0 ∧ bv w 0 8 = x1 := by
  have b0 := x0.isLt
  have b1 := x1.isLt
  exact ⟨by omega, by unfold field; omega, by unfold field; omega, by unfold field; omega, bv_eq (by omega), bv_eq (by omega)⟩

theorem layout18 {w C M k : Nat} {x0 : BitVec 16} {x1 : BitVec 8} (hw : w = C + x0.toNat * 256 + x1.toNat)
    (hC : C = M * 67108864 + k * 16777216 + 0) (hM : M < 64) (hk : k < 4) :
    w < 2 ^ 32 ∧ field w 26 6 = M ∧ field w 24 2 = k ∧ bv w 8 16 = x0 ∧ bv w 0 8 = x1 := by
  have b0 := x0.isLt
  have b1 := x1.isLt
  exact ⟨by omega, by unfold field; omega, by unfold field; omega, bv_eq (by omega), bv_eq (by omega)⟩

theorem layout19 {w C M k : Nat} (hw : w = C)
    (hC : C = M * 67108864 + k * 16777216 + 0) (hM : M < 64) (hk : k < 4) :
    w < 2 ^ 32 ∧ field w 26 6 = M ∧ field w 24 2 = k ∧ field w 0 24 = 0 := by
  exact ⟨by omega, by unfold field; omega, by unfold field; omega, by unfold field; omega⟩

theorem layout20 {w C M k : Nat} {x0 : BitVec 3} (hw : w = C + x0.toNat * 4096)
    (hC : C = M * 67108864 + k * 262144 + 0) (hM : M < 64) (hk : k < 256) :
    w < 2 ^ 32 ∧ field w 26 6 = M ∧ field w 18 8 = k ∧ field w 0 12 = 0 ∧ field w 15 3 = 0 ∧ bv w 12 3 = x0 := by
  have b0 := x0.isLt
  exact ⟨by omega, by unfold field; omega, by unfold field; omega, by unfold field; omega, by unfold field; omega, bv_eq (by omega)⟩

theorem layout21 {w C M k : Nat} {x0 : BitVec 3} {x1 : BitVec 6} (hw : w = C + x0.toNat * 4096 + x1.toNat * 64)
    (hC : C = M * 67108864 + k * 262144 + 0) (hM : M < 64) (hk : k < 256) :
    w < 2 ^ 32 ∧ field w 26 6 = M ∧ field w 18 8 = k ∧ field w 0 6 = 0 ∧ field w 15 3 = 0 ∧ bv w 12 3 = x0 ∧ bv w 6 6 = x1 := by
  have b0 := x0.isLt
  have b1 := x1.isLt
  exact ⟨by omega, by unfold field; omega, by unfold field; omega, by unfold field; omega, by unfold field; omega, bv_eq (by omega), bv_eq (by omega)⟩

theorem layout22 {w C M k : Nat} {x0 : BitVec 18} (hw : w = C + x0.toNat)
    (hC : C = M * 67108864 + k * 262144 + 0) (hM : M < 64) (hk : k < 256) :
    w < 2 ^ 32 ∧ field w 26 6 = M ∧ field w 18 8 = k ∧ bv w 0 18 = x0 := by
  have b0 := x0.isLt
  exact ⟨by omega, by unfold field; omega, by unfold field; omega, bv_eq (by omega)⟩

theorem layout23 {w C M k : Nat} {x0 : BitVec 6} {x1 : BitVec 6} {x2 : BitVec 6} (hw : w = C + x0.toNat * 4096 + x1.toNat * 64 + x2.toNat)
    (hC : C = M * 67108864 + k * 262144 + 0) (hM : M < 64) (hk : k < 256) :
    w < 2 ^ 32 ∧ field w 26 6 = M ∧ field w 18 8 = k ∧ bv w 12 6 = x0 ∧ bv w 6 6 = x1 ∧ bv w 0 6 = x2 := by
  have b0 := x0.isLt
  have b1 := x1.isLt
  have b2 := x2.isLt
  exact ⟨by omega, by unfold field; omega, by unfold field; omega, bv_eq (by omega), bv_eq (by omega), bv_eq (by omega)⟩

theorem layout24 {w C M k : Nat} {x0 : BitVec 6} {x1 : BitVec 6} {x2 : BitVec 5} (hw : w = C + x0.toNat * 4096 + x1.toNat * 64 + x2.toNat)
    (hC : C = M * 67108864 + k * 262144 + 0) (hM : M < 64) (hk : k < 256) :
    w < 2 ^ 32 ∧ field w 26 6 = M ∧ field w 18 8 = k ∧ field w 5 1 = 0 ∧ bv w 12 6 = x0 ∧ bv w 6 6 = x1 ∧ bv w 0 5 = x2 := by
  have b0 := x0.isLt
  have b1 := x1.isLt
  have b2 := x2.isLt
  exact ⟨by omega, by unfold field; omega, by unfold field; omega, by unfold field; omega, bv_eq (by omega), bv_eq (by omega), bv_eq (by omega)⟩

theorem layout25 {w C M k : Nat} {x0 : BitVec 2} {x1 : BitVec 2} {x2 : BitVec 2} (hw : w = C + x0.toNat * 64 + x1.toNat * 4 + x2.toNat)
    (hC : C = M * 67108864 + k * 262144 + 0) (hM : M < 64) (hk : k < 256) :
    w < 2 ^ 32 ∧ field w 26 6 = M ∧ field w 18 8 = k ∧ field w 4 2 = 0 ∧ field w 8 10 = 0 ∧ bv w 6 2 = x0 ∧ bv w 2 2 = x1 ∧ bv w 0 2 = x2 := by
  have b0 := x0.isLt
  have b1 := x1.isLt
  have b2 := x2.isLt
  exact ⟨by omega, by unfold field; omega, by unfold field; omega, by unfold field; omega, by unfold field; omega, bv_eq (by omega), bv_eq (by omega), bv_eq (by omega)⟩

theorem layout26 {w C M k : Nat} {x0 : BitVec 6} {x1 : BitVec 2} {x2 : BitVec 2} {x3 : BitVec 2} (hw : w = C + x0.toNat * 4096 + x1.toNat * 64 + x2.toNat * 4 + x3.toNat)
    (hC : C = M * 67108864 + k * 262144 + 0) (hM : M < 64) (hk : k < 256) :
    w < 2 ^ 32 ∧ field w 26 6 = M ∧ field w 18 8 = k ∧ field w 4 2 = 0 ∧ field w 8 4 = 0 ∧ bv w 12 6 = x0 ∧ bv w 6 2 = x1 ∧ bv w 2 2 = x2 ∧ bv w 0 2 = x3 := by
  have b0 := x0.isLt
  have b1 := x1.isLt
  have b2 := x2.isLt
  have b3 := x3.isLt
  exact ⟨by omega, by unfold field; omega, by unfold field; omega, by unfold field; omega, by unfold field; omega, bv_eq (by omega), bv_eq (by omega), bv_eq (by omega), bv_eq (by omega)⟩

theorem layout27 {w C M k : Nat} {x0 : BitVec 6} {x1 : BitVec 2} {x2 : BitVec 4} (hw : w = C + x0.toNat * 4096 + x1.toNat * 64 + x2.toNat)
    (hC : C = M * 67108864 + k * 262144 + 0) (hM : M < 64) (hk : k < 256) :
    w < 2 ^ 32 ∧ field w 26 6 = M ∧ field w 18 8 = k ∧ field w 4 2 = 0 ∧ field w 8 4 = 0 ∧ bv w 12 6 = x0 ∧ bv w 6 2 = x1 ∧ bv w 0 4 = x2 := by
  have b0 := x0.isLt
  have b1 := x1.isLt
  have b2 := x2.isLt
  exact ⟨by omega, by unfold field; omega, by unfold field; omega, by unfold field; omega, by unfold field; omega, bv_eq (by omega), bv_eq (by omega), bv_eq (by omega)⟩

theorem layout28 {w C M k : Nat} {x0 : BitVec 7} {x1 : BitVec 7} {x2 : BitVec 7} {x3 : BitVec 3} (hw : w = C + x0.toNat * 524288 + x1.toNat * 4096 + x2.toNat * 32 + x3.toNat * 4)
    (hC : C = M * 67108864 + k * 1 + 0) (hM : M < 64) (hk : k < 4) :
    w < 2 ^ 32 ∧ field w 26 6 = M ∧ field w 0 2 = k ∧ bv w 19 7 = x0 ∧ bv w 12 7 = x1 ∧ bv w 5 7 = x2 ∧ bv w 2 3 = x3 := by
  have b0 := x0.isLt
  have b1 := x1.isLt
  have b2 := x2.isLt
  have b3 := x3.isLt
  exact ⟨by omega, by unfold field; omega, by unfold field; omega, bv_eq (by omega), bv_eq (by omega), bv_eq (by omega), bv_eq (by omega)⟩

theorem layout29 {w C M k : Nat} {x0 : BitVec 3} {x1 : BitVec 7} {x2 : BitVec 7} {x3 : BitVec 3} (hw : w = C + x0.toNat * 524288 + x1.toNat * 4096 + x2.toNat * 32 + x3.toNat * 4)
    (hC : C = M * 67108864 + k * 1 + 0) (hM : M < 64) (hk : k < 4) :
    w < 2 ^ 32 ∧ field w 26 6 = M ∧ field w 0 2 = k ∧ field w 22 4 = 0 ∧ bv w 19 3 = x0 ∧ bv w 12 7 = x1 ∧ bv w 5 7 = x2 ∧ bv w 2 3 = x3 := by
  have b0 := x0.isLt
  have b1 := x1.isLt
  have b2 := x2.isLt
  have b3 := x3.isLt
  exact ⟨by omega, by unfold field; omega, by unfold field; omega, by unfold field; omega, bv_eq (by omega), bv_eq (by omega), bv_eq (by omega), bv_eq (by omega)⟩

theorem layout30 {w C M k : Nat} {x0 : BitVec 7} {x1 : BitVec 7} {x2 : BitVec 3} (hw : w = C + x0.toNat * 524288 + x1.toNat * 4096 + x2.toNat * 4)
    (hC : C = M * 67108864 + k * 1 + 0) (hM : M < 64) (hk : k < 4) :
    w < 2 ^ 32 ∧ field w 26 6 = M ∧ field w 0 2 = k ∧ field w 5 7 = 0 ∧ bv w 19 7 = x0 ∧ bv w 12 7 = x1 ∧ bv w 2 3 = x2 := by
  have b0 := x0.isLt
  have b1 := x1.isLt
  have b2 := x2.isLt
  exact ⟨by omega, by unfold field; omega, by unfold field; omega, by unfold field; omega, bv_eq (by omega), bv_eq (by omega), bv_eq (by omega)⟩

theorem layout31 {w C M : Nat} {x0 : BitVec 7} {x1 : BitVec 7} {x2 : BitVec 3} {x3 : BitVec 9} (hw : w = C + x0.toNat * 524288 + x1.toNat * 4096 + x2.toNat * 512 + x3.toNat)
    (hC : C = M * 67108864 + 0) (hM : M < 64) :
    w < 2 ^ 32 ∧ field w 26 6 = M ∧ bv w 19 7 = x0 ∧ bv w 12 7 = x1 ∧ bv w 9 3 = x2 ∧ bv w 0 9 = x3 := by
  have b0 := x0.isLt
  have b1 := x1.isLt
  have b2 := x2.isLt
  have b3 := x3.isLt
  exact ⟨by omega, by unfold field; omega, bv_eq (by omega), bv_eq (by omega), bv_eq (by omega), bv_eq (by omega)⟩

theorem layout32 {w C M k : Nat} {x0 : BitVec 7} {x1 : BitVec 7} {x2 : BitVec 3} {x3 : BitVec 5} (hw : w = C + x0.toNat * 524288 + x1.toNat * 4096 + x2.toNat * 512 + x3.toNat)
    (hC : C = M * 67108864 + k * 128 + 0) (hM : M < 64) (hk : k < 4) :
    w < 2 ^ 32 ∧ field w 26 6 = M ∧ field w 7 2 = k ∧ field w 5 2 = 0 ∧ bv w 19 7 = x0 ∧ bv w 12 7 = x1 ∧ bv w 9 3 = x2 ∧ bv w 0 5 = x3 := by
  have b0 := x0.isLt
  have b1 := x1.isLt
  have b2 := x2.isLt
  have b3 := x3.isLt
  exact ⟨by omega, by unfold field; omega, by unfold field; omega, by unfold field; omega, bv_eq (by omega), bv_eq (by omega), bv_eq (by omega), bv_eq (by omega)⟩

theorem layout33 {w C M : Nat} {x0 : BitVec 7} {x1 : BitVec 3} {x2 : BitVec 16} (hw : w = C + x0.toNat * 524288 + x1.toNat * 65536 + x2.toNat)
    (hC : C = M * 67108864 + 0) (hM : M < 64) :
    w < 2 ^ 32 ∧ field w 26 6 = M ∧ bv w 19 7 = x0 ∧ bv w 16 3 = x1 ∧ bv w 0 16 = x2 := by
  have b0 := x0.isLt
  have b1 := x1.isLt
  have b2 := x2.isLt
  exact ⟨by omega, by unfold field; omega, bv_eq (by omega), bv_eq (by omega), bv_eq (by omega)⟩

theorem layout34 {w C M : Nat} {x0 : BitVec 3} {x1 : BitVec 3} {x2 : BitVec 7} {x3 : BitVec 3} {x4 : BitVec 9} (hw : w = C + x0.toNat * 8388608 + x1.toNat * 1048576 + x2.toNat * 4096 + x3.toNat * 512 + x4.toNat)
    (hC : C = M * 67108864 + 0) (hM : M < 64) :
    w < 2 ^ 32 ∧ field w 26 6 = M ∧ field w 19 1 = 0 ∧ bv w 23 3 = x0 ∧ bv w 20 3 = x1 ∧ bv w 12 7 = x2 ∧ bv w 9 3 = x3 ∧ bv w 0 9 = x4 := by
  have b0 := x0.isLt
  have b1 := x1.isLt
  have b2 := x2.isLt
  have b3 := x3.isLt
  have b4 := x4.isLt
  exact ⟨by omega, by unfold field; omega, by unfold field; omega, bv_eq (by omega), bv_eq (by omega), bv_eq (by omega), bv_eq (by omega), bv_eq (by omega)⟩

theorem layout35 {w C M k : Nat} {x0 : BitVec 5} {x1 : BitVec 5} {x2 : BitVec 5} {x3 : BitVec 5} {x4 : BitVec 3} (hw : w = C + x0.toNat * 2097152 + x1.toNat * 65536 + x2.toNat * 2048 + x3.toNat * 64 + x4.toNat * 8)
    (hC : C = M * 67108864 + k * 2 + 0) (hM : M < 64) (hk : k < 4) :
    w < 2 ^ 32 ∧ field w 26 6 = M ∧ field w 1 2 = k ∧ field w 0 1 = 0 ∧ bv w 21 5 = x0 ∧ bv w 16 5 = x1 ∧ bv w 11 5 = x2 ∧ bv w 6 5 = x3 ∧ bv w 3 3 = x4 := by
  have b0 := x0.isLt
  have b1 := x1.isLt
  have b2 := x2.isLt
  have b3 := x3.isLt
  have b4 := x4.isLt
  exact ⟨by omega, by unfold field; omega, by unfold field; omega, by unfold field; omega, bv_eq (by omega), bv_eq (by omega), bv_eq (by omega), bv_eq (by omega), bv_eq (by omega)⟩

theorem layout36 {w C M : Nat} {x0 : BitVec 7} {x1 : BitVec 7} {x2 : BitVec 7} {x3 : BitVec 3} {x4 : BitVec 2} (hw : w = C + x0.toNat * 524288 + x1.toNat * 4096 + x2.toNat * 32 + x3.toNat * 4 + x4.toNat)
    (hC : C = M * 67108864 + 0) (hM : M < 64) :
    w < 2 ^ 32 ∧ field w 26 6 = M ∧ bv w 19 7 = x0 ∧ bv w 12 7 = x1 ∧ bv w 5 7 = x2 ∧ bv w 2 3 = x3 ∧ bv w 0 2 = x4 := by
  have b0 := x0.isLt
  have b1 := x1.isLt
  have b2 := x2.isLt
  have b3 := x3.isLt
  have b4 := x4.isLt
  exact ⟨by omega, by unfold field; omega, bv_eq (by omega), bv_eq (by omega), bv_eq (by omega), bv_eq (by omega), bv_eq (by omega)⟩

theorem layout37 {w C M k : Nat} {x0 : BitVec 3} {x1 : BitVec 3} {x2 : BitVec 3} (hw : w = C + x0.toNat * 4096 + x1.toNat * 64 + x2.toNat)
    (hC : C = M * 67108864 + k * 262144 + 0) (hM : M < 64) (hk : k < 256) :
    w < 2 ^ 32 ∧ field w 26 6 = M ∧ field w 18 8 = k ∧ field w 3 3 = 0 ∧ field w 9 3 = 0 ∧ field w 15 3 = 0 ∧ bv w 12 3 = x0 ∧ bv w 6 3 = x1 ∧ bv w 0 3 = x2 := by
  have b0 := x0.isLt
  have b1 := x1.isLt
  have b2 := x2.isLt
  exact ⟨by omega, by unfold field; omega, by unfold field; omega, by unfold field; omega, by unfold field; omega, by unfold field; omega, bv_eq (by omega), bv_eq (by omega), bv_eq (by omega)⟩

theorem layout38 {w C M k : Nat} {x0 : BitVec 3} {x1 : BitVec 3} (hw : w = C + x0.toNat * 4096 + x1.toNat * 64)
    (hC : C = M * 67108864 + k * 262144 + 0) (hM : M < 64) (hk : k < 256) :
    w < 2 ^ 32 ∧ field w 26 6 = M ∧ field w 18 8 = k ∧ field w 0 6 = 0 ∧ field w 9 3 = 0 ∧ field w 15 3 = 0 ∧ bv w 12 3 = x0 ∧ bv w 6 3 = x1 := by
  have b0 := x0.isLt
  have b1 := x1.isLt
  exact ⟨by omega, by unfold field; omega, by unfold field; omega, by unfold field; omega, by unfold field; omega, by unfold field; omega, bv_eq (by omega), bv_eq (by omega)⟩

theorem layout39 {w C M k : Nat} {x0 : BitVec 3} {x1 : BitVec 3} (hw : w = C + x0.toNat * 4096 + x1.toNat * 64)
    (hC : C = M * 67108864 + k * 262144 + 1024) (hM : M < 64) (hk : k < 256) :
    w < 2 ^ 32 ∧ field w 26 6 = M ∧ field w 18 8 = k ∧ field w 0 6 = 0 ∧ field w 9 3 = 2 ∧ field w 15 3 = 0 ∧ bv w 12 3 = x0 ∧ bv w 6 3 = x1 := by
  have b0 := x0.isLt
  have b1 := x1.isLt
  exact ⟨by omega, by unfold field; omega, by unfold field; omega, by unfold field; omega, by unfold field; omega, by unfold field; omega, bv_eq (by omega), bv_eq (by omega)⟩

theorem layout40 {w C M k : Nat} {x0 : BitVec 5} (hw : w = C + x0.toNat)
    (hC : C = M * 67108864 + k * 262144 + 0) (hM : M < 64) (hk : k < 256) :
    w < 2 ^ 32 ∧ field w 26 6 = M ∧ field w 18 8 = k ∧ field w 5 13 = 0 ∧ bv w 0 5 = x0 := by
  have b0 := x0.isLt
  exact ⟨by omega, by unfold field; omega, by unfold field; omega, by unfold field; omega, bv_eq (by omega)⟩

theorem layout41 {w C M k : Nat} {x0 : BitVec 7} {x1 : BitVec 1} {x2 : BitVec 6} {x3 : BitVec 6} {x4 : BitVec 3} (hw : w = C + x0.toNat * 524288 + x1.toNat * 262144 + x2.toNat * 4096 + x3.toNat * 64 + x4.toNat * 8)
    (hC : C = M * 67108864 + k * 1 + 0) (hM : M < 64) (hk : k < 8) :
    w < 2 ^ 32 ∧ field w 26 6 = M ∧ field w 0 3 = k ∧ bv w 19 7 = x0 ∧ bv w 18 1 = x1 ∧ bv w 12 6 = x2 ∧ bv w 6 6 = x3 ∧ bv w 3 3 = x4 := by
  have b0 := x0.isLt
  have b1 := x1.isLt
  have b2 := x2.isLt
  have b3 := x3.isLt
  have b4 := x4.isLt
  exact ⟨by omega, by unfold field; omega, by unfold field; omega, bv_eq (by omega), bv_eq (by omega), bv_eq (by omega), bv_eq (by omega), bv_eq (by omega)⟩

theorem layout42 {w C M k : Nat} {x0 : BitVec 7} {x1 : BitVec 6} {x2 : BitVec 6} {x3 : BitVec 3} (hw : w = C + x0.toNat * 524288 + x1.toNat * 4096 + x2.toNat * 64 + x3.toNat * 8)
    (hC : C = M * 67108864 + k * 1 + 0) (hM : M < 64) (hk : k < 8) :
    w < 2 ^ 32 ∧ field w 26 6 = M ∧ field w 0 3 = k ∧ field w 18 1 = 0 ∧ bv w 19 7 = x0 ∧ bv w 12 6 = x1 ∧ bv w 6 6 = x2 ∧ bv w 3 3 = x3 := by
  have b0 := x0.isLt
  have b1 := x1.isLt
  have b2 := x2.isLt
  have b3 := x3.isLt
  exact ⟨by omega, by unfold field; omega, by unfold field; omega, by unfold field; omega, bv_eq (by omega), bv_eq (by omega), bv_eq (by omega), bv_eq (by omega)⟩

theorem layout43 {w C M k : Nat} {x0 : BitVec 1} {x1 : BitVec 3} {x2 : BitVec 1} {x3 : BitVec 3} (hw : w = C + x0.toNat * 32768 + x1.toNat * 4096 + x2.toNat * 1024 + x3.toNat * 64)
    (hC : C = M * 67108864 + k * 262144 + 0) (hM : M < 64) (hk : k < 256) :
    w < 2 ^ 32 ∧ field w 26 6 = M ∧ field w 18 8 = k ∧ field w 0 6 = 0 ∧ field w 9 1 = 0 ∧ field w 11 1 = 0 ∧ field w 16 2 = 0 ∧ bv w 15 1 = x0 ∧ bv w 12 3 = x1 ∧ bv w 10 1 = x2 ∧ bv w 6 3 = x3 := by
  have b0 := x0.isLt
  have b1 := x1.isLt
  have b2 := x2.isLt
  have b3 := x3.isLt
  exact ⟨by omega, by unfold field; omega, by unfold field; omega, by unfold field; omega, by unfold field; omega, by unfold field; omega, by unfold field; omega, bv_eq (by omega), bv_eq (by omega), bv_eq (by omega), bv_eq (by omega)⟩

theorem layout44 {w C M k : Nat} {x0 : BitVec 6} {x1 : BitVec 1} {x2 : BitVec 3} (hw : w = C + x0.toNat * 4096 + x1.toNat * 1024 + x2.toNat * 64)
    (hC : C = M * 67108864 + k * 262144 + 0) (hM : M < 64) (hk : k < 256) :
    w < 2 ^ 32 ∧ field w 26 6 = M ∧ field w 18 8 = k ∧ field w 0 6 = 0 ∧ field w 9 1 = 0 ∧ field w 11 1 = 0 ∧ bv w 12 6 = x0 ∧ bv w 10 1 = x1 ∧ bv w 6 3 = x2 := by
  have b0 := x0.isLt
  have b1 := x1.isLt
  have b2 := x2.isLt
  exact ⟨by omega, by unfold field; omega, by unfold field; omega, by unfold field; omega, by unfold field; omega, by unfold field; omega, bv_eq (by omega), bv_eq (by omega), bv_eq (by omega)⟩

theorem layout45 {w C M k : Nat} {x0 : BitVec 7} {x1 : BitVec 7} {x2 : BitVec 1} {x3 : BitVec 6} {x4 : BitVec 3} (hw : w = C + x0.toNat * 524288 + x1.toNat * 4096 + x2.toNat * 2048 + x3.toNat * 32 + x4.toNat * 4)
    (hC : C = M * 67108864 + k * 1 + 0) (hM : M < 64) (hk : k < 4) :
    w < 2 ^ 32 ∧ field w 26 6 = M ∧ field w 0 2 = k ∧ bv w 19 7 = x0 ∧ bv w 12 7 = x1 ∧ bv w 11 1 = x2 ∧ bv w 5 6 = x3 ∧ bv w 2 3 = x4 := by
  have b0 := x0.isLt
  have b1 := x1.isLt
  have b2 := x2.isLt
  have b3 := x3.isLt
  have b4 := x4.isLt
  exact ⟨by omega, by unfold field; omega, by unfold field; omega, bv_eq (by omega), bv_eq (by omega), bv_eq (by omega), bv_eq (by omega), bv_eq (by omega)⟩

theorem layout46 {w C M k : Nat} {x0 : BitVec 7} {x1 : BitVec 7} {x2 : BitVec 6} {x3 : BitVec 3} (hw : w = C + x0.toNat * 524288 + x1.toNat * 4096 + x2.toNat * 32 + x3.toNat * 4)
    (hC : C = M * 67108864 + k * 1 + 0) (hM : M < 64) (hk : k < 4) :
    w < 2 ^ 32 ∧ field w 26 6 = M ∧ field w 0 2 = k ∧ field w 11 1 = 0 ∧ bv w 19 7 = x0 ∧ bv w 12 7 = x1 ∧ bv w 5 6 = x2 ∧ bv w 2 3 = x3 := by
  have b0 := x0.isLt
  have b1 := x1.isLt
  have b2 := x2.isLt
  have b3 := x3.isLt
  exact ⟨by omega, by unfold field; omega, by unfold field; omega, by unfold field; omega, bv_eq (by omega), bv_eq (by omega), bv_eq (by omega), bv_eq (by omega)⟩

theorem layout47 {w C M k : Nat} {x0 : BitVec 6} {x1 : BitVec 6} {x2 : BitVec 3} (hw : w = C + x0.toNat * 4096 + x1.toNat * 64 + x2.toNat)
    (hC : C = M * 67108864 + k * 262144 + 0) (hM : M < 64) (hk : k < 256) :
    w < 2 ^ 32 ∧ field w 26 6 = M ∧ field w 18 8 = k ∧ field w 3 3 = 0 ∧ bv w 12 6 = x0 ∧ bv w 6 6 = x1 ∧ bv w 0 3 = x2 := by
  have b0 := x0.isLt
  have b1 := x1.isLt
  have b2 := x2.isLt
  exact ⟨by omega, by unfold field; omega, by unfold field; omega, by unfold field; omega, bv_eq (by omega), bv_eq (by omega), bv_eq (by omega)⟩

theorem layout48 {w C M k : Nat} {x0 : BitVec 6} {x1 : BitVec 1} (hw : w = C + x0.toNat * 4096 + x1.toNat)
    (hC : C = M * 67108864 + k * 262144 + 0) (hM : M < 64) (hk : k < 256) :
    w < 2 ^ 32 ∧ field w 26 6 = M ∧ field w 18 8 = k ∧ field w 1 11 = 0 ∧ bv w 12 6 = x0 ∧ bv w 0 1 = x1 := by
  have b0 := x0.isLt
  have b1 := x1.isLt
  exact ⟨by omega, by unfold field; omega, by unfold field; omega, by unfold field; omega, bv_eq (by omega), bv_eq (by omega)⟩

theorem layout49 {w C M : Nat} {x0 : BitVec 7} {x1 : BitVec 7} {x2 : BitVec 6} {x3 : BitVec 3} {x4 : BitVec 3} (hw : w = C + x0.toNat * 524288 + x1.toNat * 4096 + x2.toNat * 64 + x3.toNat * 8 + x4.toNat)
    (hC : C = M * 67108864 + 0) (hM : M < 64) :
    w < 2 ^ 32 ∧ field w 26 6 = M ∧ bv w 19 7 = x0 ∧ bv w 12 7 = x1 ∧ bv w 6 6 = x2 ∧ bv w 3 3 = x3 ∧ bv w 0 3 = x4 := by
  have b0 := x0.isLt
  have b1 := x1.isLt
  have b2 := x2.isLt
  have b3 := x3.isLt
  have b4 := x4.isLt
  exact ⟨by omega, by unfold field; omega, bv_eq (by omega), bv_eq (by omega), bv_eq (by omega), bv_eq (by omega), bv_eq (by omega)⟩

theorem layout50 {w C M : Nat} {x0 : BitVec 7} {x1 : BitVec 7} {x2 : BitVec 6} {x3 : BitVec 4} {x4 : BitVec 2} (hw : w = C + x0.toNat * 524288 + x1.toNat * 4096 + x2.toNat * 64 + x3.toNat * 4 + x4.toNat)
    (hC : C = M * 67108864 + 0) (hM : M < 64) :
    w < 2 ^ 32 ∧ field w 26 6 = M ∧ bv w 19 7 = x0 ∧ bv w 12 7 = x1 ∧ bv w 6 6 = x2 ∧ bv w 2 4 = x3 ∧ bv w 0 2 = x4 := by
  have b0 := x0.isLt
  have b1 := x1.isLt
  have b2 := x2.isLt
  have b3 := x3.isLt
  have b4 := x4.isLt
  exact ⟨by omega, by unfold field; omega, bv_eq (by omega), bv_eq (by omega), bv_eq (by omega), bv_eq (by omega), bv_eq (by omega)⟩

theorem layout51 {w C M k : Nat} {x0 : BitVec 2} {x1 : BitVec 2} (hw : w = C + x0.toNat * 4 + x1.toNat)
    (hC : C = M * 67108864 + k * 262144 + 0) (hM : M < 64) (hk : k < 256) :
    w < 2 ^ 32 ∧ field w 26 6 = M ∧ field w 18 8 = k ∧ field w 4 14 = 0 ∧ bv w 2 2 = x0 ∧ bv w 0 2 = x1 := by
  have b0 := x0.isLt
  have b1 := x1.isLt
  exact ⟨by omega, by unfold field; omega, by unfold field; omega, by unfold field; omega, bv_eq (by omega), bv_eq (by omega)⟩

theorem layout52 {w C M k : Nat} {x0 : BitVec 6} {x1 : BitVec 6} {x2 : BitVec 2} (hw : w = C + x0.toNat * 4096 + x1.toNat * 64 + x2.toNat * 4)
    (hC : C = M * 67108864 + k * 262144 + 0) (hM : M < 64) (hk : k < 256) :
    w < 2 ^ 32 ∧ field w 26 6 = M ∧ field w 18 8 = k ∧ field w 0 2 = 0 ∧ field w 4 2 = 0 ∧ bv w 12 6 = x0 ∧ bv w 6 6 = x1 ∧ bv w 2 2 = x2 := by
  have b0 := x0.isLt
  have b1 := x1.isLt
  have b2 := x2.isLt
  exact ⟨by omega, by unfold field; omega, by unfold field; omega, by unfold field; omega, by unfold field; omega, bv_eq (by omega), bv_eq (by omega), bv_eq (by omega)⟩

theorem layout53 {w C M k : Nat} {x0 : BitVec 6} (hw : w = C + x0.toNat * 64)
    (hC : C = M * 67108864 + k * 262144 + 0) (hM : M < 64) (hk : k < 256) :
    w < 2 ^ 32 ∧ field w 26 6 = M ∧ field w 18 8 = k ∧ field w 0 6 = 0 ∧ field w 12 6 = 0 ∧ bv w 6 6 = x0 := by
  have b0 := x0.isLt
  exact ⟨by omega, by unfold field; omega, by unfold field; omega, by unfold field; omega, by unfold field; omega, bv_eq (by omega)⟩

theorem layout54 {w C M k : Nat} {x0 : BitVec 6} {x1 : BitVec 6} (hw : w = C + x0.toNat * 64 + x1.toNat)
    (hC : C = M * 67108864 + k * 262144 + 0) (hM : M < 64) (hk : k < 256) :
    w < 2 ^ 32 ∧ field w 26 6 = M ∧ field w 18 8 = k ∧ field w 12 6 = 0 ∧ bv w 6 6 = x0 ∧ bv w 0 6 = x1 := by
  have b0 := x0.isLt
  have b1 := x1.isLt
  exact ⟨by omega, by unfold field; omega, by unfold field; omega, by unfold field; omega, bv_eq (by omega), bv_eq (by omega)⟩

theorem layout55 {w C M k : Nat} {x0 : BitVec 4} {x1 : BitVec 2} {x2 : BitVec 6} {x3 : BitVec 6} {x4 : BitVec 6} (hw : w = C + x0.toNat * 1048576 + x1.toNat * 262144 + x2.toNat * 4096 + x3.toNat * 64 + x4.toNat)
    (hC : C = M * 67108864 + k * 16777216 + 0) (hM : M < 64) (hk : k < 4) :
    w < 2 ^ 32 ∧ field w 26 6 = M ∧ field w 24 2 = k ∧ bv w 20 4 = x0 ∧ bv w 18 2 = x1 ∧ bv w 12 6 = x2 ∧ bv w 6 6 = x3 ∧ bv w 0 6 = x4 := by
  have b0 := x0.isLt
  have b1 := x1.isLt
  have b2 := x2.isLt
  have b3 := x3.isLt
  have b4 := x4.isLt
  exact ⟨by omega, by unfold field; omega, by unfold field; omega, bv_eq (by omega), bv_eq (by omega), bv_eq (by omega), bv_eq (by omega), bv_eq (by omega)⟩

theorem layout56 {w C M : Nat} {x0 : BitVec 4} {x1 : BitVec 4} {x2 : BitVec 4} {x3 : BitVec 4} {x4 : BitVec 4} (hw : w = C + x0.toNat * 4194304 + x1.toNat * 262144 + x2.toNat * 16384 + x3.toNat * 1024 + x4.toNat * 64)
    (hC : C = M * 67108864 + 0) (hM : M < 64) :
    w < 2 ^ 32 ∧ field w 26 6 = M ∧ field w 0 6 = 0 ∧ bv w 22 4 = x0 ∧ bv w 18 4 = x1 ∧ bv w 14 4 = x2 ∧ bv w 10 4 = x3 ∧ bv w 6 4 = x4 := by
  have b0 := x0.isLt
  have b1 := x1.isLt
  have b2 := x2.isLt
  have b3 := x3.isLt
  have b4 := x4.isLt
  exact ⟨by omega, by unfold field; omega, by unfold field; omega, bv_eq (by omega), bv_eq (by omega), bv_eq (by omega), bv_eq (by omega), bv_eq (by omega)⟩

theorem layout57 {w C M k : Nat} {x0 : BitVec 6} {x1 : BitVec 6} {x2 : BitVec 2} {x3 : BitVec 2} {x4 : BitVec 1} (hw : w = C + x0.toNat * 4096 + x1.toNat * 64 + x2.toNat * 16 + x3.toNat * 4 + x4.toNat)
    (hC : C = M * 67108864 + k * 262144 + 0) (hM : M < 64) (hk : k < 256) :
    w < 2 ^ 32 ∧ field w 26 6 = M ∧ field w 18 8 = k ∧ field w 1 1 = 0 ∧ bv w 12 6 = x0 ∧ bv w 6 6 = x1 ∧ bv w 4 2 = x2 ∧ bv w 2 2 = x3 ∧ bv w 0 1 = x4 := by
  have b0 := x0.isLt
  have b1 := x1.isLt
  have b2 := x2.isLt
  have b3 := x3.isLt
  have b4 := x4.isLt
  exact ⟨by omega, by unfold field; omega, by unfold field; omega, by unfold field; omega, bv_eq (by omega), bv_eq (by omega), bv_eq (by omega), bv_eq (by omega), bv_eq (by omega)⟩

theorem layout58 {w C M k : Nat} {x0 : BitVec 6} {x1 : BitVec 6} (hw : w = C + x0.toNat * 4096 + x1.toNat * 64)
    (hC : C = M * 67108864 + k * 262144 + 0) (hM : M < 64) (hk : k < 256) :
    w < 2 ^ 32 ∧ field w 26 6 = M ∧ field w 18 8 = k ∧ field w 0 6 = 0 ∧ bv w 12 6 = x0 ∧ bv w 6 6 = x1 := by
  have b0 := x0.isLt
  have b1 := x1.isLt
  exact ⟨by omega, by unfold field; omega, by unfold field; omega, by unfold field; omega, bv_eq (by omega), bv_eq (by omega)⟩

theorem layout59 {w C M k : Nat} {x0 : BitVec 6} {x1 : BitVec 2} (hw : w = C + x0.toNat * 4096 + x1.toNat)
    (hC : C = M * 67108864 + k * 262144 + 0) (hM : M < 64) (hk : k < 256) :
    w < 2 ^ 32 ∧ field w 26 6 = M ∧ field w 18 8 = k ∧ field w 2 10 = 0 ∧ bv w 12 6 = x0 ∧ bv w 0 2 = x1 := by
  have b0 := x0.isLt
  have b1 := x1.isLt
  exact ⟨by omega, by unfold field; omega, by unfold field; omega, by unfold field; omega, bv_eq (by omega), bv_eq (by omega)⟩

theorem layout60 {w C M k : Nat} {x0 : BitVec 6} {x1 : BitVec 6} {x2 : BitVec 1} {x3 : BitVec 1} {x4 : BitVec 2} (hw : w = C + x0.toNat * 4096 + x1.toNat * 64 + x2.toNat * 32 + x3.toNat * 16 + x4.toNat * 4)
    (hC : C = M * 67108864 + k * 262144 + 0) (hM : M < 64) (hk : k < 256) :
    w < 2 ^ 32 ∧ field w 26 6 = M ∧ field w 18 8 = k ∧ field w 0 2 = 0 ∧ bv w 12 6 = x0 ∧ bv w 6 6 = x1 ∧ bv w 5 1 = x2 ∧ bv w 4 1 = x3 ∧ bv w 2 2 = x4 := by
  have b0 := x0.isLt
  have b1 := x1.isLt
  have b2 := x2.isLt
  have b3 := x3.isLt
  have b4 := x4.isLt
  exact ⟨by omega, by unfold field; omega, by unfold field; omega, by unfold field; omega, bv_eq (by omega), bv_eq (by omega), bv_eq (by omega), bv_eq (by omega), bv_eq (by omega)⟩

theorem layout61 {w C M : Nat} {x0 : BitVec 5} {x1 : BitVec 7} {x2 : BitVec 2} {x3 : BitVec 6} {x4 : BitVec 3} {x5 : BitVec 1} {x6 : BitVec 1} (hw : w = C + x0.toNat * 2097152 + x1.toNat * 16384 + x2.toNat * 4096 + x3.toNat * 64 + x4.toNat * 8 + x5.toNat * 4 + x6.toNat * 2)
    (hC : C = M * 67108864 + 0) (hM : M < 64) :
    w < 2 ^ 32 ∧ field w 26 6 = M ∧ field w 0 1 = 0 ∧ bv w 21 5 = x0 ∧ bv w 14 7 = x1 ∧ bv w 12 2 = x2 ∧ bv w 6 6 = x3 ∧ bv w 3 3 = x4 ∧ bv w 2 1 = x5 ∧ bv w 1 1 = x6 := by
  have b0 := x0.isLt
  have b1 := x1.isLt
  have b2 := x2.isLt
  have b3 := x3.isLt
  have b4 := x4.isLt
  have b5 := x5.isLt
  have b6 := x6.isLt
  exact ⟨by omega, by unfold field; omega, by unfold field; omega, bv_eq (by omega), bv_eq (by omega), bv_eq (by omega), bv_eq (by omega), bv_eq (by omega), bv_eq (by omega), bv_eq (by omega)⟩

theorem layout62 {w C M k : Nat} {x0 : BitVec 7} {x1 : BitVec 6} {x2 : BitVec 1} {x3 : BitVec 6} {x4 : BitVec 3} (hw : w = C + x0.toNat * 524288 + x1.toNat * 8192 + x2.toNat * 4096 + x3.toNat * 64 + x4.toNat * 8)
    (hC : C = M * 67108864 + k * 1 + 0) (hM : M < 64) (hk : k < 8) :
    w < 2 ^ 32 ∧ field w 26 6 = M ∧ field w 0 3 = k ∧ bv w 19 7 = x0 ∧ bv w 13 6 = x1 ∧ bv w 12 1 = x2 ∧ bv w 6 6 = x3 ∧ bv w 3 3 = x4 := by
  have b0 := x0.isLt
  have b1 := x1.isLt
  have b2 := x2.isLt
  have b3 := x3.isLt
  have b4 := x4.isLt
  exact ⟨by omega, by unfold field; omega, by unfold field; omega, bv_eq (by omega), bv_eq (by omega), bv_eq (by omega), bv_eq (by omega), bv_eq (by omega)⟩

theorem layout63 {w C M k : Nat} {x0 : BitVec 6} {x1 : BitVec 6} {x2 : BitVec 1} {x3 : BitVec 1} (hw : w = C + x0.toNat * 4096 + x1.toNat * 64 + x2.toNat * 16 + x3.toNat * 2)
    (hC : C = M * 67108864 + k * 262144 + 0) (hM : M < 64) (hk : k < 256) :
    w < 2 ^ 32 ∧ field w 26 6 = M ∧ field w 18 8 = k ∧ field w 0 1 = 0 ∧ field w 2 2 = 0 ∧ field w 5 1 = 0 ∧ bv w 12 6 = x0 ∧ bv w 6 6 = x1 ∧ bv w 4 1 = x2 ∧ bv w 1 1 = x3 := by
  have b0 := x0.isLt
  have b1 := x1.isLt
  have b2 := x2.isLt
  have b3 := x3.isLt
  exact ⟨by omega, by unfold field; omega, by unfold field; omega, by unfold field; omega, by unfold field; omega, by unfold field; omega, bv_eq (by omega), bv_eq (by omega), bv_eq (by omega), bv_eq (by omega)⟩

theorem layout64 {w C M k : Nat} {x0 : BitVec 22} (hw : w = C + x0.toNat)
    (hC : C = M * 67108864 + k * 4194304 + 0) (hM : M < 64) (hk : k < 16) :
    w < 2 ^ 32 ∧ field w 26 6 = M ∧ field w 22 4 = k ∧ bv w 0 22 = x0 := by
  have b0 := x0.isLt
  exact ⟨by omega, by unfold field; omega, by unfold field; omega, bv_eq (by omega)⟩

theorem layout65 {w C M k : Nat} {x0 : BitVec 4} {x1 : BitVec 3} {x2 : BitVec 3} (hw : w = C + x0.toNat * 64 + x1.toNat * 8 + x2.toNat)
    (hC : C = M * 67108864 + k * 4194304 + 0) (hM : M < 64) (hk : k < 16) :
    w < 2 ^ 32 ∧ field w 26 6 = M ∧ field w 22 4 = k ∧ field w 10 12 = 0 ∧ bv w 6 4 = x0 ∧ bv w 3 3 = x1 ∧ bv w 0 3 = x2 := by
  have b0 := x0.isLt
  have b1 := x1.isLt
  have b2 := x2.isLt
  exact ⟨by omega, by unfold field; omega, by unfold field; omega, by unfold field; omega, bv_eq (by omega), bv_eq (by omega), bv_eq (by omega)⟩

theorem layout66 {w C M k : Nat} {x0 : BitVec 10} {x1 : BitVec 4} {x2 : BitVec 8} (hw : w = C + x0.toNat * 4096 + x1.toNat * 256 + x2.toNat)
    (hC : C = M * 67108864 + k * 4194304 + 0) (hM : M < 64) (hk : k < 16) :
    w < 2 ^ 32 ∧ field w 26 6 = M ∧ field w 22 4 = k ∧ bv w 12 10 = x0 ∧ bv w 8 4 = x1 ∧ bv w 0 8 = x2 := by
  have b0 := x0.isLt
  have b1 := x1.isLt
  have b2 := x2.isLt
  exact ⟨by omega, by unfold field; omega, by unfold field; omega, bv_eq (by omega), bv_eq (by omega), bv_eq (by omega)⟩

theorem layout67 {w C M : Nat} {x0 : BitVec 4} {x1 : BitVec 22} (hw : w = C + x0.toNat * 4194304 + x1.toNat)
    (hC : C = M * 67108864 + 0) (hM : M < 64) :
    w < 2 ^ 32 ∧ field w 26 6 = M ∧ bv w 22 4 = x0 ∧ bv w 0 22 = x1 := by
  have b0 := x0.isLt
  have b1 := x1.isLt
  exact ⟨by omega, by unfold field; omega, bv_eq (by omega), bv_eq (by omega)⟩

theorem RoundTrip.nop : RoundTrip.Statement (.nop) := by
  intro w hi hw
  obtain ⟨h, m, f, z0⟩ := layout1 (M := 0) (k := 0) (Option.some.inj hw).symm rfl (by decide) (by decide)
  exact ⟨h, by rw [major00 m, decode00]; simp [f, z0, accept_wf hi]⟩

theorem RoundTrip.trap (x0 : BitVec 6) : RoundTrip.Statement (.trap x0) := by
  intro w hi hw
  obtain ⟨h, m, f, z0, e0⟩ := layout2 (M := 0) (k := 1) (Option.some.inj hw).symm rfl (by decide) (by decide)
  exact ⟨h, by rw [major00 m, decode00]; simp [f, z0, e0, accept_wf hi]⟩

theorem RoundTrip.brk (x0 : BitVec 6) : RoundTrip.Statement (.brk x0) := by
  intro w hi hw
  obtain ⟨h, m, f, z0, e0⟩ := layout2 (M := 0) (k := 2) (Option.some.inj hw).symm rfl (by decide) (by decide)
  exact ⟨h, by rw [major00 m, decode00]; simp [f, z0, e0, accept_wf hi]⟩

theorem RoundTrip.tret : RoundTrip.Statement (.tret) := by
  intro w hi hw
  obtain ⟨h, m, f, z0⟩ := layout1 (M := 0) (k := 3) (Option.some.inj hw).symm rfl (by decide) (by decide)
  exact ⟨h, by rw [major00 m, decode00]; simp [f, z0, accept_wf hi]⟩

theorem RoundTrip.tkill : RoundTrip.Statement (.tkill) := by
  intro w hi hw
  obtain ⟨h, m, f, z0⟩ := layout1 (M := 0) (k := 4) (Option.some.inj hw).symm rfl (by decide) (by decide)
  exact ⟨h, by rw [major00 m, decode00]; simp [f, z0, accept_wf hi]⟩

theorem RoundTrip.tskip : RoundTrip.Statement (.tskip) := by
  intro w hi hw
  obtain ⟨h, m, f, z0⟩ := layout1 (M := 0) (k := 5) (Option.some.inj hw).symm rfl (by decide) (by decide)
  exact ⟨h, by rw [major00 m, decode00]; simp [f, z0, accept_wf hi]⟩

theorem RoundTrip.mfsr (x0 : BitVec 6) (x1 : BitVec 6) : RoundTrip.Statement (.mfsr x0 x1) := by
  intro w hi hw
  obtain ⟨h, m, f, z0, e0, e1⟩ := layout3 (M := 0) (k := 6) (Option.some.inj hw).symm rfl (by decide) (by decide)
  exact ⟨h, by rw [major00 m, decode00]; simp [f, z0, e0, e1, accept_wf hi]⟩

theorem RoundTrip.mtsr (x0 : BitVec 6) (x1 : BitVec 6) : RoundTrip.Statement (.mtsr x0 x1) := by
  intro w hi hw
  obtain ⟨h, m, f, z0, e0, e1⟩ := layout3 (M := 0) (k := 7) (Option.some.inj hw).symm rfl (by decide) (by decide)
  exact ⟨h, by rw [major00 m, decode00]; simp [f, z0, e0, e1, accept_wf hi]⟩

theorem RoundTrip.halt : RoundTrip.Statement (.halt) := by
  intro w hi hw
  obtain ⟨h, m, f, z0⟩ := layout1 (M := 0) (k := 8) (Option.some.inj hw).symm rfl (by decide) (by decide)
  exact ⟨h, by rw [major00 m, decode00]; simp [f, z0, accept_wf hi]⟩

theorem RoundTrip.sadd (x0 : BitVec 6) (x1 : BitVec 6) (x2 : BitVec 6) : RoundTrip.Statement (.sadd x0 x1 x2) := by
  intro w hi hw
  obtain ⟨h, m, f, e0, e1, e2⟩ := layout4 (M := 1) (k := 0) (Option.some.inj hw).symm rfl (by decide) (by decide)
  exact ⟨h, by rw [major01 m, decode01]; simp [f, e0, e1, e2, accept_wf hi]⟩

theorem RoundTrip.ssub (x0 : BitVec 6) (x1 : BitVec 6) (x2 : BitVec 6) : RoundTrip.Statement (.ssub x0 x1 x2) := by
  intro w hi hw
  obtain ⟨h, m, f, e0, e1, e2⟩ := layout4 (M := 1) (k := 1) (Option.some.inj hw).symm rfl (by decide) (by decide)
  exact ⟨h, by rw [major01 m, decode01]; simp [f, e0, e1, e2, accept_wf hi]⟩

theorem RoundTrip.smul (x0 : BitVec 6) (x1 : BitVec 6) (x2 : BitVec 6) : RoundTrip.Statement (.smul x0 x1 x2) := by
  intro w hi hw
  obtain ⟨h, m, f, e0, e1, e2⟩ := layout4 (M := 1) (k := 2) (Option.some.inj hw).symm rfl (by decide) (by decide)
  exact ⟨h, by rw [major01 m, decode01]; simp [f, e0, e1, e2, accept_wf hi]⟩

theorem RoundTrip.smulh (x0 : BitVec 6) (x1 : BitVec 6) (x2 : BitVec 6) : RoundTrip.Statement (.smulh x0 x1 x2) := by
  intro w hi hw
  obtain ⟨h, m, f, e0, e1, e2⟩ := layout4 (M := 1) (k := 3) (Option.some.inj hw).symm rfl (by decide) (by decide)
  exact ⟨h, by rw [major01 m, decode01]; simp [f, e0, e1, e2, accept_wf hi]⟩

theorem RoundTrip.smulhu (x0 : BitVec 6) (x1 : BitVec 6) (x2 : BitVec 6) : RoundTrip.Statement (.smulhu x0 x1 x2) := by
  intro w hi hw
  obtain ⟨h, m, f, e0, e1, e2⟩ := layout4 (M := 1) (k := 4) (Option.some.inj hw).symm rfl (by decide) (by decide)
  exact ⟨h, by rw [major01 m, decode01]; simp [f, e0, e1, e2, accept_wf hi]⟩

theorem RoundTrip.sdiv (x0 : BitVec 6) (x1 : BitVec 6) (x2 : BitVec 6) : RoundTrip.Statement (.sdiv x0 x1 x2) := by
  intro w hi hw
  obtain ⟨h, m, f, e0, e1, e2⟩ := layout4 (M := 1) (k := 5) (Option.some.inj hw).symm rfl (by decide) (by decide)
  exact ⟨h, by rw [major01 m, decode01]; simp [f, e0, e1, e2, accept_wf hi]⟩

theorem RoundTrip.sdivu (x0 : BitVec 6) (x1 : BitVec 6) (x2 : BitVec 6) : RoundTrip.Statement (.sdivu x0 x1 x2) := by
  intro w hi hw
  obtain ⟨h, m, f, e0, e1, e2⟩ := layout4 (M := 1) (k := 6) (Option.some.inj hw).symm rfl (by decide) (by decide)
  exact ⟨h, by rw [major01 m, decode01]; simp [f, e0, e1, e2, accept_wf hi]⟩

theorem RoundTrip.srem (x0 : BitVec 6) (x1 : BitVec 6) (x2 : BitVec 6) : RoundTrip.Statement (.srem x0 x1 x2) := by
  intro w hi hw
  obtain ⟨h, m, f, e0, e1, e2⟩ := layout4 (M := 1) (k := 7) (Option.some.inj hw).symm rfl (by decide) (by decide)
  exact ⟨h, by rw [major01 m, decode01]; simp [f, e0, e1, e2, accept_wf hi]⟩

theorem RoundTrip.sremu (x0 : BitVec 6) (x1 : BitVec 6) (x2 : BitVec 6) : RoundTrip.Statement (.sremu x0 x1 x2) := by
  intro w hi hw
  obtain ⟨h, m, f, e0, e1, e2⟩ := layout4 (M := 1) (k := 8) (Option.some.inj hw).symm rfl (by decide) (by decide)
  exact ⟨h, by rw [major01 m, decode01]; simp [f, e0, e1, e2, accept_wf hi]⟩

theorem RoundTrip.sand (x0 : BitVec 6) (x1 : BitVec 6) (x2 : BitVec 6) : RoundTrip.Statement (.sand x0 x1 x2) := by
  intro w hi hw
  obtain ⟨h, m, f, e0, e1, e2⟩ := layout4 (M := 1) (k := 9) (Option.some.inj hw).symm rfl (by decide) (by decide)
  exact ⟨h, by rw [major01 m, decode01]; simp [f, e0, e1, e2, accept_wf hi]⟩

theorem RoundTrip.sor (x0 : BitVec 6) (x1 : BitVec 6) (x2 : BitVec 6) : RoundTrip.Statement (.sor x0 x1 x2) := by
  intro w hi hw
  obtain ⟨h, m, f, e0, e1, e2⟩ := layout4 (M := 1) (k := 10) (Option.some.inj hw).symm rfl (by decide) (by decide)
  exact ⟨h, by rw [major01 m, decode01]; simp [f, e0, e1, e2, accept_wf hi]⟩

theorem RoundTrip.sxor (x0 : BitVec 6) (x1 : BitVec 6) (x2 : BitVec 6) : RoundTrip.Statement (.sxor x0 x1 x2) := by
  intro w hi hw
  obtain ⟨h, m, f, e0, e1, e2⟩ := layout4 (M := 1) (k := 11) (Option.some.inj hw).symm rfl (by decide) (by decide)
  exact ⟨h, by rw [major01 m, decode01]; simp [f, e0, e1, e2, accept_wf hi]⟩

theorem RoundTrip.sshl (x0 : BitVec 6) (x1 : BitVec 6) (x2 : BitVec 6) : RoundTrip.Statement (.sshl x0 x1 x2) := by
  intro w hi hw
  obtain ⟨h, m, f, e0, e1, e2⟩ := layout4 (M := 1) (k := 12) (Option.some.inj hw).symm rfl (by decide) (by decide)
  exact ⟨h, by rw [major01 m, decode01]; simp [f, e0, e1, e2, accept_wf hi]⟩

theorem RoundTrip.sshr (x0 : BitVec 6) (x1 : BitVec 6) (x2 : BitVec 6) : RoundTrip.Statement (.sshr x0 x1 x2) := by
  intro w hi hw
  obtain ⟨h, m, f, e0, e1, e2⟩ := layout4 (M := 1) (k := 13) (Option.some.inj hw).symm rfl (by decide) (by decide)
  exact ⟨h, by rw [major01 m, decode01]; simp [f, e0, e1, e2, accept_wf hi]⟩

theorem RoundTrip.ssra (x0 : BitVec 6) (x1 : BitVec 6) (x2 : BitVec 6) : RoundTrip.Statement (.ssra x0 x1 x2) := by
  intro w hi hw
  obtain ⟨h, m, f, e0, e1, e2⟩ := layout4 (M := 1) (k := 14) (Option.some.inj hw).symm rfl (by decide) (by decide)
  exact ⟨h, by rw [major01 m, decode01]; simp [f, e0, e1, e2, accept_wf hi]⟩

theorem RoundTrip.smin (x0 : BitVec 6) (x1 : BitVec 6) (x2 : BitVec 6) : RoundTrip.Statement (.smin x0 x1 x2) := by
  intro w hi hw
  obtain ⟨h, m, f, e0, e1, e2⟩ := layout4 (M := 1) (k := 15) (Option.some.inj hw).symm rfl (by decide) (by decide)
  exact ⟨h, by rw [major01 m, decode01]; simp [f, e0, e1, e2, accept_wf hi]⟩

theorem RoundTrip.smax (x0 : BitVec 6) (x1 : BitVec 6) (x2 : BitVec 6) : RoundTrip.Statement (.smax x0 x1 x2) := by
  intro w hi hw
  obtain ⟨h, m, f, e0, e1, e2⟩ := layout4 (M := 1) (k := 16) (Option.some.inj hw).symm rfl (by decide) (by decide)
  exact ⟨h, by rw [major01 m, decode01]; simp [f, e0, e1, e2, accept_wf hi]⟩

theorem RoundTrip.sminu (x0 : BitVec 6) (x1 : BitVec 6) (x2 : BitVec 6) : RoundTrip.Statement (.sminu x0 x1 x2) := by
  intro w hi hw
  obtain ⟨h, m, f, e0, e1, e2⟩ := layout4 (M := 1) (k := 17) (Option.some.inj hw).symm rfl (by decide) (by decide)
  exact ⟨h, by rw [major01 m, decode01]; simp [f, e0, e1, e2, accept_wf hi]⟩

theorem RoundTrip.smaxu (x0 : BitVec 6) (x1 : BitVec 6) (x2 : BitVec 6) : RoundTrip.Statement (.smaxu x0 x1 x2) := by
  intro w hi hw
  obtain ⟨h, m, f, e0, e1, e2⟩ := layout4 (M := 1) (k := 18) (Option.some.inj hw).symm rfl (by decide) (by decide)
  exact ⟨h, by rw [major01 m, decode01]; simp [f, e0, e1, e2, accept_wf hi]⟩

theorem RoundTrip.sclz (x0 : BitVec 6) (x1 : BitVec 6) : RoundTrip.Statement (.sclz x0 x1) := by
  intro w hi hw
  obtain ⟨h, m, f, z0, e0, e1⟩ := layout5 (M := 1) (k := 19) (Option.some.inj hw).symm rfl (by decide) (by decide)
  exact ⟨h, by rw [major01 m, decode01]; simp [f, z0, e0, e1, accept_wf hi]⟩

theorem RoundTrip.spopc (x0 : BitVec 6) (x1 : BitVec 6) : RoundTrip.Statement (.spopc x0 x1) := by
  intro w hi hw
  obtain ⟨h, m, f, z0, e0, e1⟩ := layout5 (M := 1) (k := 20) (Option.some.inj hw).symm rfl (by decide) (by decide)
  exact ⟨h, by rw [major01 m, decode01]; simp [f, z0, e0, e1, accept_wf hi]⟩

theorem RoundTrip.saddi (x0 : BitVec 6) (x1 : BitVec 6) (x2 : BitVec 14) : RoundTrip.Statement (.saddi x0 x1 x2) := by
  intro w hi hw
  obtain ⟨h, m, e0, e1, e2⟩ := layout6 (M := 2) (Option.some.inj hw).symm rfl (by decide)
  exact ⟨h, by rw [major02 m, decode02]; simp [e0, e1, e2, accept_wf hi]⟩

theorem RoundTrip.sshli (x0 : BitVec 6) (x1 : BitVec 6) (x2 : BitVec 6) : RoundTrip.Statement (.sshli x0 x1 x2) := by
  intro w hi hw
  obtain ⟨h, m, f, z0, e0, e1, e2⟩ := layout7 (M := 3) (k := 0) (Option.some.inj hw).symm rfl (by decide) (by decide)
  exact ⟨h, by rw [major03 m, decode03]; simp [f, z0, e0, e1, e2, accept_wf hi]⟩

theorem RoundTrip.sshri (x0 : BitVec 6) (x1 : BitVec 6) (x2 : BitVec 6) : RoundTrip.Statement (.sshri x0 x1 x2) := by
  intro w hi hw
  obtain ⟨h, m, f, z0, e0, e1, e2⟩ := layout7 (M := 3) (k := 1) (Option.some.inj hw).symm rfl (by decide) (by decide)
  exact ⟨h, by rw [major03 m, decode03]; simp [f, z0, e0, e1, e2, accept_wf hi]⟩

theorem RoundTrip.ssrai (x0 : BitVec 6) (x1 : BitVec 6) (x2 : BitVec 6) : RoundTrip.Statement (.ssrai x0 x1 x2) := by
  intro w hi hw
  obtain ⟨h, m, f, z0, e0, e1, e2⟩ := layout7 (M := 3) (k := 2) (Option.some.inj hw).symm rfl (by decide) (by decide)
  exact ⟨h, by rw [major03 m, decode03]; simp [f, z0, e0, e1, e2, accept_wf hi]⟩

theorem RoundTrip.slui (x0 : BitVec 6) (x1 : BitVec 20) : RoundTrip.Statement (.slui x0 x1) := by
  intro w hi hw
  obtain ⟨h, m, e0, e1⟩ := layout8 (M := 4) (Option.some.inj hw).symm rfl (by decide)
  exact ⟨h, by rw [major04 m, decode04]; simp [e0, e1, accept_wf hi]⟩

theorem RoundTrip.scmp (x0 : BitVec 3) (x1 : BitVec 3) (x2 : BitVec 6) (x3 : BitVec 6) : RoundTrip.Statement (.scmp x0 x1 x2 x3) := by
  intro w hi hw
  obtain ⟨h, m, z0, e0, e1, e2, e3⟩ := layout9 (M := 5) (Option.some.inj hw).symm rfl (by decide)
  have hc := codes_of_wf hi
  simp only [Instr.codesOk, decide_eq_true_eq] at hc
  have hf : field w 20 3 = x1.toNat := toNat_of_bv e1
  have g0 : ¬ 6 ≤ field w 20 3 := by omega
  exact ⟨h, by rw [major05 m, decode05]; simp [g0, z0, e0, e1, e2, e3, accept_wf hi]⟩

theorem RoundTrip.scmpi (x0 : BitVec 3) (x1 : BitVec 3) (x2 : BitVec 6) (x3 : BitVec 14) : RoundTrip.Statement (.scmpi x0 x1 x2 x3) := by
  intro w hi hw
  obtain ⟨h, m, e0, e1, e2, e3⟩ := layout10 (M := 6) (Option.some.inj hw).symm rfl (by decide)
  have hc := codes_of_wf hi
  simp only [Instr.codesOk, decide_eq_true_eq] at hc
  have hf : field w 20 3 = x1.toNat := toNat_of_bv e1
  have g0 : ¬ 6 ≤ field w 20 3 := by omega
  exact ⟨h, by rw [major06 m, decode06]; simp [g0, e0, e1, e2, e3, accept_wf hi]⟩

theorem RoundTrip.sldW (x0 : BitVec 6) (x1 : BitVec 6) (x2 : BitVec 12) : RoundTrip.Statement (.sldW x0 x1 x2) := by
  intro w hi hw
  obtain ⟨h, m, f, e0, e1, e2⟩ := layout11 (M := 7) (k := 0) (Option.some.inj hw).symm rfl (by decide) (by decide)
  exact ⟨h, by rw [major07 m, decode07]; simp [f, e0, e1, e2, accept_wf hi]⟩

theorem RoundTrip.sldD (x0 : BitVec 6) (x1 : BitVec 6) (x2 : BitVec 12) : RoundTrip.Statement (.sldD x0 x1 x2) := by
  intro w hi hw
  obtain ⟨h, m, f, e0, e1, e2⟩ := layout11 (M := 7) (k := 1) (Option.some.inj hw).symm rfl (by decide) (by decide)
  exact ⟨h, by rw [major07 m, decode07]; simp [f, e0, e1, e2, accept_wf hi]⟩

theorem RoundTrip.sstW (x0 : BitVec 6) (x1 : BitVec 6) (x2 : BitVec 12) : RoundTrip.Statement (.sstW x0 x1 x2) := by
  intro w hi hw
  obtain ⟨h, m, f, e0, e1, e2⟩ := layout11 (M := 7) (k := 2) (Option.some.inj hw).symm rfl (by decide) (by decide)
  exact ⟨h, by rw [major07 m, decode07]; simp [f, e0, e1, e2, accept_wf hi]⟩

theorem RoundTrip.sstD (x0 : BitVec 6) (x1 : BitVec 6) (x2 : BitVec 12) : RoundTrip.Statement (.sstD x0 x1 x2) := by
  intro w hi hw
  obtain ⟨h, m, f, e0, e1, e2⟩ := layout11 (M := 7) (k := 3) (Option.some.inj hw).symm rfl (by decide) (by decide)
  exact ⟨h, by rw [major07 m, decode07]; simp [f, e0, e1, e2, accept_wf hi]⟩

theorem RoundTrip.br (x0 : BitVec 3) (x1 : BitVec 1) (x2 : BitVec 22) : RoundTrip.Statement (.br x0 x1 x2) := by
  intro w hi hw
  obtain ⟨h, m, e0, e1, e2⟩ := layout12 (M := 8) (Option.some.inj hw).symm rfl (by decide)
  exact ⟨h, by rw [major08 m, decode08]; simp [e0, e1, e2, accept_wf hi]⟩

theorem RoundTrip.call (x0 : BitVec 26) : RoundTrip.Statement (.call x0) := by
  intro w hi hw
  obtain ⟨h, m, e0⟩ := layout13 (M := 9) (Option.some.inj hw).symm rfl (by decide)
  exact ⟨h, by rw [major09 m, decode09]; simp [e0, accept_wf hi]⟩

theorem RoundTrip.jmpr (x0 : BitVec 6) : RoundTrip.Statement (.jmpr x0) := by
  intro w hi hw
  obtain ⟨h, m, f, z0, e0⟩ := layout14 (M := 10) (k := 0) (Option.some.inj hw).symm rfl (by decide) (by decide)
  exact ⟨h, by rw [major0A m, decode0A]; simp [f, z0, e0, accept_wf hi]⟩

theorem RoundTrip.callr (x0 : BitVec 6) : RoundTrip.Statement (.callr x0) := by
  intro w hi hw
  obtain ⟨h, m, f, z0, e0⟩ := layout14 (M := 10) (k := 1) (Option.some.inj hw).symm rfl (by decide) (by decide)
  exact ⟨h, by rw [major0A m, decode0A]; simp [f, z0, e0, accept_wf hi]⟩

theorem RoundTrip.ret : RoundTrip.Statement (.ret) := by
  intro w hi hw
  obtain ⟨h, m, f, z0⟩ := layout1 (M := 10) (k := 2) (Option.some.inj hw).symm rfl (by decide) (by decide)
  exact ⟨h, by rw [major0A m, decode0A]; simp [f, z0, accept_wf hi]⟩

theorem RoundTrip.cand (x0 : BitVec 3) (x1 : BitVec 3) (x2 : BitVec 3) : RoundTrip.Statement (.cand x0 x1 x2) := by
  intro w hi hw
  obtain ⟨h, m, f, z0, z1, z2, e0, e1, e2⟩ := layout15 (M := 10) (k := 3) (Option.some.inj hw).symm rfl (by decide) (by decide)
  exact ⟨h, by rw [major0A m, decode0A]; simp [f, z0, z1, z2, e0, e1, e2, accept_wf hi]⟩

theorem RoundTrip.cor (x0 : BitVec 3) (x1 : BitVec 3) (x2 : BitVec 3) : RoundTrip.Statement (.cor x0 x1 x2) := by
  intro w hi hw
  obtain ⟨h, m, f, z0, z1, z2, e0, e1, e2⟩ := layout15 (M := 10) (k := 4) (Option.some.inj hw).symm rfl (by decide) (by decide)
  exact ⟨h, by rw [major0A m, decode0A]; simp [f, z0, z1, z2, e0, e1, e2, accept_wf hi]⟩

theorem RoundTrip.cxor (x0 : BitVec 3) (x1 : BitVec 3) (x2 : BitVec 3) : RoundTrip.Statement (.cxor x0 x1 x2) := by
  intro w hi hw
  obtain ⟨h, m, f, z0, z1, z2, e0, e1, e2⟩ := layout15 (M := 10) (k := 5) (Option.some.inj hw).symm rfl (by decide) (by decide)
  exact ⟨h, by rw [major0A m, decode0A]; simp [f, z0, z1, z2, e0, e1, e2, accept_wf hi]⟩

theorem RoundTrip.cnot (x0 : BitVec 3) (x1 : BitVec 3) : RoundTrip.Statement (.cnot x0 x1) := by
  intro w hi hw
  obtain ⟨h, m, f, z0, z1, z2, e0, e1⟩ := layout16 (M := 10) (k := 6) (Option.some.inj hw).symm rfl (by decide) (by decide)
  exact ⟨h, by rw [major0A m, decode0A]; simp [f, z0, z1, z2, e0, e1, accept_wf hi]⟩

theorem RoundTrip.looph (x0 : BitVec 6) (x1 : BitVec 8) : RoundTrip.Statement (.looph x0 x1) := by
  intro w hi hw
  obtain ⟨h, m, f, z0, e0, e1⟩ := layout17 (M := 11) (k := 0) (Option.some.inj hw).symm rfl (by decide) (by decide)
  exact ⟨h, by rw [major0B m, decode0B]; simp [f, z0, e0, e1, accept_wf hi]⟩

theorem RoundTrip.loophi (x0 : BitVec 16) (x1 : BitVec 8) : RoundTrip.Statement (.loophi x0 x1) := by
  intro w hi hw
  obtain ⟨h, m, f, e0, e1⟩ := layout18 (M := 11) (k := 1) (Option.some.inj hw).symm rfl (by decide) (by decide)
  exact ⟨h, by rw [major0B m, decode0B]; simp [f, e0, e1, accept_wf hi]⟩

theorem RoundTrip.lbrk : RoundTrip.Statement (.lbrk) := by
  intro w hi hw
  obtain ⟨h, m, f, z0⟩ := layout19 (M := 11) (k := 2) (Option.some.inj hw).symm rfl (by decide) (by decide)
  exact ⟨h, by rw [major0B m, decode0B]; simp [f, z0, accept_wf hi]⟩

theorem RoundTrip.vif (x0 : BitVec 3) : RoundTrip.Statement (.vif x0) := by
  intro w hi hw
  obtain ⟨h, m, f, z0, z1, e0⟩ := layout20 (M := 12) (k := 0) (Option.some.inj hw).symm rfl (by decide) (by decide)
  exact ⟨h, by rw [major0C m, decode0C]; simp [f, z0, z1, e0, accept_wf hi]⟩

theorem RoundTrip.velse : RoundTrip.Statement (.velse) := by
  intro w hi hw
  obtain ⟨h, m, f, z0⟩ := layout1 (M := 12) (k := 1) (Option.some.inj hw).symm rfl (by decide) (by decide)
  exact ⟨h, by rw [major0C m, decode0C]; simp [f, z0, accept_wf hi]⟩

theorem RoundTrip.vendif : RoundTrip.Statement (.vendif) := by
  intro w hi hw
  obtain ⟨h, m, f, z0⟩ := layout1 (M := 12) (k := 2) (Option.some.inj hw).symm rfl (by decide) (by decide)
  exact ⟨h, by rw [major0C m, decode0C]; simp [f, z0, accept_wf hi]⟩

theorem RoundTrip.vloop : RoundTrip.Statement (.vloop) := by
  intro w hi hw
  obtain ⟨h, m, f, z0⟩ := layout1 (M := 12) (k := 3) (Option.some.inj hw).symm rfl (by decide) (by decide)
  exact ⟨h, by rw [major0C m, decode0C]; simp [f, z0, accept_wf hi]⟩

theorem RoundTrip.vbrk (x0 : BitVec 3) (x1 : BitVec 6) : RoundTrip.Statement (.vbrk x0 x1) := by
  intro w hi hw
  obtain ⟨h, m, f, z0, z1, e0, e1⟩ := layout21 (M := 12) (k := 4) (Option.some.inj hw).symm rfl (by decide) (by decide)
  exact ⟨h, by rw [major0C m, decode0C]; simp [f, z0, z1, e0, e1, accept_wf hi]⟩

theorem RoundTrip.vcont (x0 : BitVec 3) (x1 : BitVec 6) : RoundTrip.Statement (.vcont x0 x1) := by
  intro w hi hw
  obtain ⟨h, m, f, z0, z1, e0, e1⟩ := layout21 (M := 12) (k := 5) (Option.some.inj hw).symm rfl (by decide) (by decide)
  exact ⟨h, by rw [major0C m, decode0C]; simp [f, z0, z1, e0, e1, accept_wf hi]⟩

theorem RoundTrip.endvl (x0 : BitVec 18) : RoundTrip.Statement (.endvl x0) := by
  intro w hi hw
  obtain ⟨h, m, f, e0⟩ := layout22 (M := 12) (k := 6) (Option.some.inj hw).symm rfl (by decide) (by decide)
  exact ⟨h, by rw [major0C m, decode0C]; simp [f, e0, accept_wf hi]⟩

theorem RoundTrip.exit : RoundTrip.Statement (.exit) := by
  intro w hi hw
  obtain ⟨h, m, f, z0⟩ := layout1 (M := 13) (k := 0) (Option.some.inj hw).symm rfl (by decide) (by decide)
  exact ⟨h, by rw [major0D m, decode0D]; simp [f, z0, accept_wf hi]⟩

theorem RoundTrip.exitS (x0 : BitVec 6) : RoundTrip.Statement (.exitS x0) := by
  intro w hi hw
  obtain ⟨h, m, f, z0, e0⟩ := layout14 (M := 13) (k := 1) (Option.some.inj hw).symm rfl (by decide) (by decide)
  exact ⟨h, by rw [major0D m, decode0D]; simp [f, z0, e0, accept_wf hi]⟩

theorem RoundTrip.yield : RoundTrip.Statement (.yield) := by
  intro w hi hw
  obtain ⟨h, m, f, z0⟩ := layout1 (M := 13) (k := 2) (Option.some.inj hw).symm rfl (by decide) (by decide)
  exact ⟨h, by rw [major0D m, decode0D]; simp [f, z0, accept_wf hi]⟩

theorem RoundTrip.yieldc (x0 : BitVec 6) (x1 : BitVec 6) (x2 : BitVec 6) : RoundTrip.Statement (.yieldc x0 x1 x2) := by
  intro w hi hw
  obtain ⟨h, m, f, e0, e1, e2⟩ := layout23 (M := 13) (k := 3) (Option.some.inj hw).symm rfl (by decide) (by decide)
  exact ⟨h, by rw [major0D m, decode0D]; simp [f, e0, e1, e2, accept_wf hi]⟩

theorem RoundTrip.split (x0 : BitVec 6) : RoundTrip.Statement (.split x0) := by
  intro w hi hw
  obtain ⟨h, m, f, z0, e0⟩ := layout2 (M := 13) (k := 4) (Option.some.inj hw).symm rfl (by decide) (by decide)
  exact ⟨h, by rw [major0D m, decode0D]; simp [f, z0, e0, accept_wf hi]⟩

theorem RoundTrip.fuse (x0 : BitVec 6) (x1 : BitVec 6) (x2 : BitVec 5) : RoundTrip.Statement (.fuse x0 x1 x2) := by
  intro w hi hw
  obtain ⟨h, m, f, z0, e0, e1, e2⟩ := layout24 (M := 13) (k := 5) (Option.some.inj hw).symm rfl (by decide) (by decide)
  exact ⟨h, by rw [major0D m, decode0D]; simp [f, z0, e0, e1, e2, acceptCode_wf hi]⟩

theorem RoundTrip.lease (x0 : BitVec 6) : RoundTrip.Statement (.lease x0) := by
  intro w hi hw
  obtain ⟨h, m, f, z0, e0⟩ := layout14 (M := 13) (k := 6) (Option.some.inj hw).symm rfl (by decide) (by decide)
  exact ⟨h, by rw [major0D m, decode0D]; simp [f, z0, e0, accept_wf hi]⟩

theorem RoundTrip.leasem : RoundTrip.Statement (.leasem) := by
  intro w hi hw
  obtain ⟨h, m, f, z0⟩ := layout1 (M := 13) (k := 7) (Option.some.inj hw).symm rfl (by decide) (by decide)
  exact ⟨h, by rw [major0D m, decode0D]; simp [f, z0, accept_wf hi]⟩

theorem RoundTrip.leaseq (x0 : BitVec 6) (x1 : BitVec 6) : RoundTrip.Statement (.leaseq x0 x1) := by
  intro w hi hw
  obtain ⟨h, m, f, z0, e0, e1⟩ := layout3 (M := 13) (k := 8) (Option.some.inj hw).symm rfl (by decide) (by decide)
  exact ⟨h, by rw [major0D m, decode0D]; simp [f, z0, e0, e1, accept_wf hi]⟩

theorem RoundTrip.gbar (x0 : BitVec 2) (x1 : BitVec 2) (x2 : BitVec 2) : RoundTrip.Statement (.gbar x0 x1 x2) := by
  intro w hi hw
  obtain ⟨h, m, f, z0, z1, e0, e1, e2⟩ := layout25 (M := 14) (k := 0) (Option.some.inj hw).symm rfl (by decide) (by decide)
  exact ⟨h, by rw [major0E m, decode0E]; simp [f, z0, z1, e0, e1, e2, accept_wf hi]⟩

theorem RoundTrip.garrive (x0 : BitVec 6) (x1 : BitVec 2) (x2 : BitVec 2) (x3 : BitVec 2) : RoundTrip.Statement (.garrive x0 x1 x2 x3) := by
  intro w hi hw
  obtain ⟨h, m, f, z0, z1, e0, e1, e2, e3⟩ := layout26 (M := 14) (k := 1) (Option.some.inj hw).symm rfl (by decide) (by decide)
  exact ⟨h, by rw [major0E m, decode0E]; simp [f, z0, z1, e0, e1, e2, e3, accept_wf hi]⟩

theorem RoundTrip.gwait (x0 : BitVec 6) (x1 : BitVec 2) (x2 : BitVec 2) (x3 : BitVec 2) : RoundTrip.Statement (.gwait x0 x1 x2 x3) := by
  intro w hi hw
  obtain ⟨h, m, f, z0, z1, e0, e1, e2, e3⟩ := layout26 (M := 14) (k := 2) (Option.some.inj hw).symm rfl (by decide) (by decide)
  exact ⟨h, by rw [major0E m, decode0E]; simp [f, z0, z1, e0, e1, e2, e3, accept_wf hi]⟩

theorem RoundTrip.gqry (x0 : BitVec 6) (x1 : BitVec 2) (x2 : BitVec 4) : RoundTrip.Statement (.gqry x0 x1 x2) := by
  intro w hi hw
  obtain ⟨h, m, f, z0, z1, e0, e1, e2⟩ := layout27 (M := 14) (k := 3) (Option.some.inj hw).symm rfl (by decide) (by decide)
  exact ⟨h, by rw [major0E m, decode0E]; simp [f, z0, z1, e0, e1, e2, accept_wf hi]⟩

theorem RoundTrip.vadd (x0 : BitVec 7) (x1 : BitVec 7) (x2 : BitVec 7) (x3 : BitVec 3) : RoundTrip.Statement (.vadd x0 x1 x2 x3) := by
  intro w hi hw
  obtain ⟨h, m, f, e0, e1, e2, e3⟩ := layout28 (M := 16) (k := 0) (Option.some.inj hw).symm rfl (by decide) (by decide)
  exact ⟨h, by rw [major10 m, decode10]; simp [f, e0, e1, e2, e3, accept_wf hi]⟩

theorem RoundTrip.vsub (x0 : BitVec 7) (x1 : BitVec 7) (x2 : BitVec 7) (x3 : BitVec 3) : RoundTrip.Statement (.vsub x0 x1 x2 x3) := by
  intro w hi hw
  obtain ⟨h, m, f, e0, e1, e2, e3⟩ := layout28 (M := 16) (k := 1) (Option.some.inj hw).symm rfl (by decide) (by decide)
  exact ⟨h, by rw [major10 m, decode10]; simp [f, e0, e1, e2, e3, accept_wf hi]⟩

theorem RoundTrip.vadds (x0 : BitVec 7) (x1 : BitVec 7) (x2 : BitVec 7) (x3 : BitVec 3) : RoundTrip.Statement (.vadds x0 x1 x2 x3) := by
  intro w hi hw
  obtain ⟨h, m, f, e0, e1, e2, e3⟩ := layout28 (M := 16) (k := 2) (Option.some.inj hw).symm rfl (by decide) (by decide)
  exact ⟨h, by rw [major10 m, decode10]; simp [f, e0, e1, e2, e3, accept_wf hi]⟩

theorem RoundTrip.vsubs (x0 : BitVec 7) (x1 : BitVec 7) (x2 : BitVec 7) (x3 : BitVec 3) : RoundTrip.Statement (.vsubs x0 x1 x2 x3) := by
  intro w hi hw
  obtain ⟨h, m, f, e0, e1, e2, e3⟩ := layout28 (M := 16) (k := 3) (Option.some.inj hw).symm rfl (by decide) (by decide)
  exact ⟨h, by rw [major10 m, decode10]; simp [f, e0, e1, e2, e3, accept_wf hi]⟩

theorem RoundTrip.vmul (x0 : BitVec 7) (x1 : BitVec 7) (x2 : BitVec 7) (x3 : BitVec 3) : RoundTrip.Statement (.vmul x0 x1 x2 x3) := by
  intro w hi hw
  obtain ⟨h, m, f, e0, e1, e2, e3⟩ := layout28 (M := 17) (k := 0) (Option.some.inj hw).symm rfl (by decide) (by decide)
  exact ⟨h, by rw [major11 m, decode11]; simp [f, e0, e1, e2, e3, accept_wf hi]⟩

theorem RoundTrip.vmulh (x0 : BitVec 7) (x1 : BitVec 7) (x2 : BitVec 7) (x3 : BitVec 3) : RoundTrip.Statement (.vmulh x0 x1 x2 x3) := by
  intro w hi hw
  obtain ⟨h, m, f, e0, e1, e2, e3⟩ := layout28 (M := 17) (k := 1) (Option.some.inj hw).symm rfl (by decide) (by decide)
  exact ⟨h, by rw [major11 m, decode11]; simp [f, e0, e1, e2, e3, accept_wf hi]⟩

theorem RoundTrip.vmulhu (x0 : BitVec 7) (x1 : BitVec 7) (x2 : BitVec 7) (x3 : BitVec 3) : RoundTrip.Statement (.vmulhu x0 x1 x2 x3) := by
  intro w hi hw
  obtain ⟨h, m, f, e0, e1, e2, e3⟩ := layout28 (M := 17) (k := 2) (Option.some.inj hw).symm rfl (by decide) (by decide)
  exact ⟨h, by rw [major11 m, decode11]; simp [f, e0, e1, e2, e3, accept_wf hi]⟩

theorem RoundTrip.vmad (x0 : BitVec 7) (x1 : BitVec 7) (x2 : BitVec 7) (x3 : BitVec 3) : RoundTrip.Statement (.vmad x0 x1 x2 x3) := by
  intro w hi hw
  obtain ⟨h, m, f, e0, e1, e2, e3⟩ := layout28 (M := 17) (k := 3) (Option.some.inj hw).symm rfl (by decide) (by decide)
  exact ⟨h, by rw [major11 m, decode11]; simp [f, e0, e1, e2, e3, accept_wf hi]⟩

theorem RoundTrip.vand (x0 : BitVec 7) (x1 : BitVec 7) (x2 : BitVec 7) (x3 : BitVec 3) : RoundTrip.Statement (.vand x0 x1 x2 x3) := by
  intro w hi hw
  obtain ⟨h, m, f, e0, e1, e2, e3⟩ := layout28 (M := 18) (k := 0) (Option.some.inj hw).symm rfl (by decide) (by decide)
  exact ⟨h, by rw [major12 m, decode12]; simp [f, e0, e1, e2, e3, accept_wf hi]⟩

theorem RoundTrip.vor (x0 : BitVec 7) (x1 : BitVec 7) (x2 : BitVec 7) (x3 : BitVec 3) : RoundTrip.Statement (.vor x0 x1 x2 x3) := by
  intro w hi hw
  obtain ⟨h, m, f, e0, e1, e2, e3⟩ := layout28 (M := 18) (k := 1) (Option.some.inj hw).symm rfl (by decide) (by decide)
  exact ⟨h, by rw [major12 m, decode12]; simp [f, e0, e1, e2, e3, accept_wf hi]⟩

theorem RoundTrip.vxor (x0 : BitVec 7) (x1 : BitVec 7) (x2 : BitVec 7) (x3 : BitVec 3) : RoundTrip.Statement (.vxor x0 x1 x2 x3) := by
  intro w hi hw
  obtain ⟨h, m, f, e0, e1, e2, e3⟩ := layout28 (M := 18) (k := 2) (Option.some.inj hw).symm rfl (by decide) (by decide)
  exact ⟨h, by rw [major12 m, decode12]; simp [f, e0, e1, e2, e3, accept_wf hi]⟩

theorem RoundTrip.vandn (x0 : BitVec 7) (x1 : BitVec 7) (x2 : BitVec 7) (x3 : BitVec 3) : RoundTrip.Statement (.vandn x0 x1 x2 x3) := by
  intro w hi hw
  obtain ⟨h, m, f, e0, e1, e2, e3⟩ := layout28 (M := 18) (k := 3) (Option.some.inj hw).symm rfl (by decide) (by decide)
  exact ⟨h, by rw [major12 m, decode12]; simp [f, e0, e1, e2, e3, accept_wf hi]⟩

theorem RoundTrip.vshl (x0 : BitVec 7) (x1 : BitVec 7) (x2 : BitVec 7) (x3 : BitVec 3) : RoundTrip.Statement (.vshl x0 x1 x2 x3) := by
  intro w hi hw
  obtain ⟨h, m, f, e0, e1, e2, e3⟩ := layout28 (M := 19) (k := 0) (Option.some.inj hw).symm rfl (by decide) (by decide)
  exact ⟨h, by rw [major13 m, decode13]; simp [f, e0, e1, e2, e3, accept_wf hi]⟩

theorem RoundTrip.vshr (x0 : BitVec 7) (x1 : BitVec 7) (x2 : BitVec 7) (x3 : BitVec 3) : RoundTrip.Statement (.vshr x0 x1 x2 x3) := by
  intro w hi hw
  obtain ⟨h, m, f, e0, e1, e2, e3⟩ := layout28 (M := 19) (k := 1) (Option.some.inj hw).symm rfl (by decide) (by decide)
  exact ⟨h, by rw [major13 m, decode13]; simp [f, e0, e1, e2, e3, accept_wf hi]⟩

theorem RoundTrip.vsra (x0 : BitVec 7) (x1 : BitVec 7) (x2 : BitVec 7) (x3 : BitVec 3) : RoundTrip.Statement (.vsra x0 x1 x2 x3) := by
  intro w hi hw
  obtain ⟨h, m, f, e0, e1, e2, e3⟩ := layout28 (M := 19) (k := 2) (Option.some.inj hw).symm rfl (by decide) (by decide)
  exact ⟨h, by rw [major13 m, decode13]; simp [f, e0, e1, e2, e3, accept_wf hi]⟩

theorem RoundTrip.vrot (x0 : BitVec 7) (x1 : BitVec 7) (x2 : BitVec 7) (x3 : BitVec 3) : RoundTrip.Statement (.vrot x0 x1 x2 x3) := by
  intro w hi hw
  obtain ⟨h, m, f, e0, e1, e2, e3⟩ := layout28 (M := 19) (k := 3) (Option.some.inj hw).symm rfl (by decide) (by decide)
  exact ⟨h, by rw [major13 m, decode13]; simp [f, e0, e1, e2, e3, accept_wf hi]⟩

theorem RoundTrip.vmin (x0 : BitVec 7) (x1 : BitVec 7) (x2 : BitVec 7) (x3 : BitVec 3) : RoundTrip.Statement (.vmin x0 x1 x2 x3) := by
  intro w hi hw
  obtain ⟨h, m, f, e0, e1, e2, e3⟩ := layout28 (M := 20) (k := 0) (Option.some.inj hw).symm rfl (by decide) (by decide)
  exact ⟨h, by rw [major14 m, decode14]; simp [f, e0, e1, e2, e3, accept_wf hi]⟩

theorem RoundTrip.vmax (x0 : BitVec 7) (x1 : BitVec 7) (x2 : BitVec 7) (x3 : BitVec 3) : RoundTrip.Statement (.vmax x0 x1 x2 x3) := by
  intro w hi hw
  obtain ⟨h, m, f, e0, e1, e2, e3⟩ := layout28 (M := 20) (k := 1) (Option.some.inj hw).symm rfl (by decide) (by decide)
  exact ⟨h, by rw [major14 m, decode14]; simp [f, e0, e1, e2, e3, accept_wf hi]⟩

theorem RoundTrip.vminu (x0 : BitVec 7) (x1 : BitVec 7) (x2 : BitVec 7) (x3 : BitVec 3) : RoundTrip.Statement (.vminu x0 x1 x2 x3) := by
  intro w hi hw
  obtain ⟨h, m, f, e0, e1, e2, e3⟩ := layout28 (M := 20) (k := 2) (Option.some.inj hw).symm rfl (by decide) (by decide)
  exact ⟨h, by rw [major14 m, decode14]; simp [f, e0, e1, e2, e3, accept_wf hi]⟩

theorem RoundTrip.vmaxu (x0 : BitVec 7) (x1 : BitVec 7) (x2 : BitVec 7) (x3 : BitVec 3) : RoundTrip.Statement (.vmaxu x0 x1 x2 x3) := by
  intro w hi hw
  obtain ⟨h, m, f, e0, e1, e2, e3⟩ := layout28 (M := 20) (k := 3) (Option.some.inj hw).symm rfl (by decide) (by decide)
  exact ⟨h, by rw [major14 m, decode14]; simp [f, e0, e1, e2, e3, accept_wf hi]⟩

theorem RoundTrip.vaddus (x0 : BitVec 7) (x1 : BitVec 7) (x2 : BitVec 7) (x3 : BitVec 3) : RoundTrip.Statement (.vaddus x0 x1 x2 x3) := by
  intro w hi hw
  obtain ⟨h, m, f, e0, e1, e2, e3⟩ := layout28 (M := 21) (k := 0) (Option.some.inj hw).symm rfl (by decide) (by decide)
  exact ⟨h, by rw [major15 m, decode15]; simp [f, e0, e1, e2, e3, accept_wf hi]⟩

theorem RoundTrip.vsubus (x0 : BitVec 7) (x1 : BitVec 7) (x2 : BitVec 7) (x3 : BitVec 3) : RoundTrip.Statement (.vsubus x0 x1 x2 x3) := by
  intro w hi hw
  obtain ⟨h, m, f, e0, e1, e2, e3⟩ := layout28 (M := 21) (k := 1) (Option.some.inj hw).symm rfl (by decide) (by decide)
  exact ⟨h, by rw [major15 m, decode15]; simp [f, e0, e1, e2, e3, accept_wf hi]⟩

theorem RoundTrip.vabsd (x0 : BitVec 7) (x1 : BitVec 7) (x2 : BitVec 7) (x3 : BitVec 3) : RoundTrip.Statement (.vabsd x0 x1 x2 x3) := by
  intro w hi hw
  obtain ⟨h, m, f, e0, e1, e2, e3⟩ := layout28 (M := 21) (k := 2) (Option.some.inj hw).symm rfl (by decide) (by decide)
  exact ⟨h, by rw [major15 m, decode15]; simp [f, e0, e1, e2, e3, accept_wf hi]⟩

theorem RoundTrip.vavg (x0 : BitVec 7) (x1 : BitVec 7) (x2 : BitVec 7) (x3 : BitVec 3) : RoundTrip.Statement (.vavg x0 x1 x2 x3) := by
  intro w hi hw
  obtain ⟨h, m, f, e0, e1, e2, e3⟩ := layout28 (M := 21) (k := 3) (Option.some.inj hw).symm rfl (by decide) (by decide)
  exact ⟨h, by rw [major15 m, decode15]; simp [f, e0, e1, e2, e3, accept_wf hi]⟩

theorem RoundTrip.vceq (x0 : BitVec 3) (x1 : BitVec 7) (x2 : BitVec 7) (x3 : BitVec 3) : RoundTrip.Statement (.vceq x0 x1 x2 x3) := by
  intro w hi hw
  obtain ⟨h, m, f, z0, e0, e1, e2, e3⟩ := layout29 (M := 22) (k := 0) (Option.some.inj hw).symm rfl (by decide) (by decide)
  exact ⟨h, by rw [major16 m, decode16]; simp [f, z0, e0, e1, e2, e3, accept_wf hi]⟩

theorem RoundTrip.vcne (x0 : BitVec 3) (x1 : BitVec 7) (x2 : BitVec 7) (x3 : BitVec 3) : RoundTrip.Statement (.vcne x0 x1 x2 x3) := by
  intro w hi hw
  obtain ⟨h, m, f, z0, e0, e1, e2, e3⟩ := layout29 (M := 22) (k := 1) (Option.some.inj hw).symm rfl (by decide) (by decide)
  exact ⟨h, by rw [major16 m, decode16]; simp [f, z0, e0, e1, e2, e3, accept_wf hi]⟩

theorem RoundTrip.vclt (x0 : BitVec 3) (x1 : BitVec 7) (x2 : BitVec 7) (x3 : BitVec 3) : RoundTrip.Statement (.vclt x0 x1 x2 x3) := by
  intro w hi hw
  obtain ⟨h, m, f, z0, e0, e1, e2, e3⟩ := layout29 (M := 22) (k := 2) (Option.some.inj hw).symm rfl (by decide) (by decide)
  exact ⟨h, by rw [major16 m, decode16]; simp [f, z0, e0, e1, e2, e3, accept_wf hi]⟩

theorem RoundTrip.vcle (x0 : BitVec 3) (x1 : BitVec 7) (x2 : BitVec 7) (x3 : BitVec 3) : RoundTrip.Statement (.vcle x0 x1 x2 x3) := by
  intro w hi hw
  obtain ⟨h, m, f, z0, e0, e1, e2, e3⟩ := layout29 (M := 22) (k := 3) (Option.some.inj hw).symm rfl (by decide) (by decide)
  exact ⟨h, by rw [major16 m, decode16]; simp [f, z0, e0, e1, e2, e3, accept_wf hi]⟩

theorem RoundTrip.vcltu (x0 : BitVec 3) (x1 : BitVec 7) (x2 : BitVec 7) (x3 : BitVec 3) : RoundTrip.Statement (.vcltu x0 x1 x2 x3) := by
  intro w hi hw
  obtain ⟨h, m, f, z0, e0, e1, e2, e3⟩ := layout29 (M := 23) (k := 0) (Option.some.inj hw).symm rfl (by decide) (by decide)
  exact ⟨h, by rw [major17 m, decode17]; simp [f, z0, e0, e1, e2, e3, accept_wf hi]⟩

theorem RoundTrip.vcleu (x0 : BitVec 3) (x1 : BitVec 7) (x2 : BitVec 7) (x3 : BitVec 3) : RoundTrip.Statement (.vcleu x0 x1 x2 x3) := by
  intro w hi hw
  obtain ⟨h, m, f, z0, e0, e1, e2, e3⟩ := layout29 (M := 23) (k := 1) (Option.some.inj hw).symm rfl (by decide) (by decide)
  exact ⟨h, by rw [major17 m, decode17]; simp [f, z0, e0, e1, e2, e3, accept_wf hi]⟩

theorem RoundTrip.vctst (x0 : BitVec 3) (x1 : BitVec 7) (x2 : BitVec 7) (x3 : BitVec 3) : RoundTrip.Statement (.vctst x0 x1 x2 x3) := by
  intro w hi hw
  obtain ⟨h, m, f, z0, e0, e1, e2, e3⟩ := layout29 (M := 23) (k := 2) (Option.some.inj hw).symm rfl (by decide) (by decide)
  exact ⟨h, by rw [major17 m, decode17]; simp [f, z0, e0, e1, e2, e3, accept_wf hi]⟩

theorem RoundTrip.vaddh2 (x0 : BitVec 7) (x1 : BitVec 7) (x2 : BitVec 7) (x3 : BitVec 3) : RoundTrip.Statement (.vaddh2 x0 x1 x2 x3) := by
  intro w hi hw
  obtain ⟨h, m, f, e0, e1, e2, e3⟩ := layout28 (M := 24) (k := 0) (Option.some.inj hw).symm rfl (by decide) (by decide)
  exact ⟨h, by rw [major18 m, decode18]; simp [f, e0, e1, e2, e3, accept_wf hi]⟩

theorem RoundTrip.vaddb4 (x0 : BitVec 7) (x1 : BitVec 7) (x2 : BitVec 7) (x3 : BitVec 3) : RoundTrip.Statement (.vaddb4 x0 x1 x2 x3) := by
  intro w hi hw
  obtain ⟨h, m, f, e0, e1, e2, e3⟩ := layout28 (M := 24) (k := 1) (Option.some.inj hw).symm rfl (by decide) (by decide)
  exact ⟨h, by rw [major18 m, decode18]; simp [f, e0, e1, e2, e3, accept_wf hi]⟩

theorem RoundTrip.vmulh2 (x0 : BitVec 7) (x1 : BitVec 7) (x2 : BitVec 7) (x3 : BitVec 3) : RoundTrip.Statement (.vmulh2 x0 x1 x2 x3) := by
  intro w hi hw
  obtain ⟨h, m, f, e0, e1, e2, e3⟩ := layout28 (M := 24) (k := 2) (Option.some.inj hw).symm rfl (by decide) (by decide)
  exact ⟨h, by rw [major18 m, decode18]; simp [f, e0, e1, e2, e3, accept_wf hi]⟩

theorem RoundTrip.vdot4 (x0 : BitVec 7) (x1 : BitVec 7) (x2 : BitVec 7) (x3 : BitVec 3) : RoundTrip.Statement (.vdot4 x0 x1 x2 x3) := by
  intro w hi hw
  obtain ⟨h, m, f, e0, e1, e2, e3⟩ := layout28 (M := 24) (k := 3) (Option.some.inj hw).symm rfl (by decide) (by decide)
  exact ⟨h, by rw [major18 m, decode18]; simp [f, e0, e1, e2, e3, accept_wf hi]⟩

theorem RoundTrip.vsel (x0 : BitVec 7) (x1 : BitVec 7) (x2 : BitVec 7) (x3 : BitVec 3) : RoundTrip.Statement (.vsel x0 x1 x2 x3) := by
  intro w hi hw
  obtain ⟨h, m, f, e0, e1, e2, e3⟩ := layout28 (M := 25) (k := 0) (Option.some.inj hw).symm rfl (by decide) (by decide)
  exact ⟨h, by rw [major19 m, decode19]; simp [f, e0, e1, e2, e3, accept_wf hi]⟩

theorem RoundTrip.vclz (x0 : BitVec 7) (x1 : BitVec 7) (x2 : BitVec 3) : RoundTrip.Statement (.vclz x0 x1 x2) := by
  intro w hi hw
  obtain ⟨h, m, f, z0, e0, e1, e2⟩ := layout30 (M := 25) (k := 1) (Option.some.inj hw).symm rfl (by decide) (by decide)
  exact ⟨h, by rw [major19 m, decode19]; simp [f, z0, e0, e1, e2, accept_wf hi]⟩

theorem RoundTrip.vpopc (x0 : BitVec 7) (x1 : BitVec 7) (x2 : BitVec 3) : RoundTrip.Statement (.vpopc x0 x1 x2) := by
  intro w hi hw
  obtain ⟨h, m, f, z0, e0, e1, e2⟩ := layout30 (M := 25) (k := 2) (Option.some.inj hw).symm rfl (by decide) (by decide)
  exact ⟨h, by rw [major19 m, decode19]; simp [f, z0, e0, e1, e2, accept_wf hi]⟩

theorem RoundTrip.vbrev (x0 : BitVec 7) (x1 : BitVec 7) (x2 : BitVec 3) : RoundTrip.Statement (.vbrev x0 x1 x2) := by
  intro w hi hw
  obtain ⟨h, m, f, z0, e0, e1, e2⟩ := layout30 (M := 25) (k := 3) (Option.some.inj hw).symm rfl (by decide) (by decide)
  exact ⟨h, by rw [major19 m, decode19]; simp [f, z0, e0, e1, e2, accept_wf hi]⟩

theorem RoundTrip.vaddi (x0 : BitVec 7) (x1 : BitVec 7) (x2 : BitVec 3) (x3 : BitVec 9) : RoundTrip.Statement (.vaddi x0 x1 x2 x3) := by
  intro w hi hw
  obtain ⟨h, m, e0, e1, e2, e3⟩ := layout31 (M := 26) (Option.some.inj hw).symm rfl (by decide)
  exact ⟨h, by rw [major1A m, decode1A]; simp [e0, e1, e2, e3, accept_wf hi]⟩

theorem RoundTrip.vshli (x0 : BitVec 7) (x1 : BitVec 7) (x2 : BitVec 3) (x3 : BitVec 5) : RoundTrip.Statement (.vshli x0 x1 x2 x3) := by
  intro w hi hw
  obtain ⟨h, m, f, z0, e0, e1, e2, e3⟩ := layout32 (M := 27) (k := 0) (Option.some.inj hw).symm rfl (by decide) (by decide)
  exact ⟨h, by rw [major1B m, decode1B]; simp [f, z0, e0, e1, e2, e3, accept_wf hi]⟩

theorem RoundTrip.vshri (x0 : BitVec 7) (x1 : BitVec 7) (x2 : BitVec 3) (x3 : BitVec 5) : RoundTrip.Statement (.vshri x0 x1 x2 x3) := by
  intro w hi hw
  obtain ⟨h, m, f, z0, e0, e1, e2, e3⟩ := layout32 (M := 27) (k := 1) (Option.some.inj hw).symm rfl (by decide) (by decide)
  exact ⟨h, by rw [major1B m, decode1B]; simp [f, z0, e0, e1, e2, e3, accept_wf hi]⟩

theorem RoundTrip.vsrai (x0 : BitVec 7) (x1 : BitVec 7) (x2 : BitVec 3) (x3 : BitVec 5) : RoundTrip.Statement (.vsrai x0 x1 x2 x3) := by
  intro w hi hw
  obtain ⟨h, m, f, z0, e0, e1, e2, e3⟩ := layout32 (M := 27) (k := 2) (Option.some.inj hw).symm rfl (by decide) (by decide)
  exact ⟨h, by rw [major1B m, decode1B]; simp [f, z0, e0, e1, e2, e3, accept_wf hi]⟩

theorem RoundTrip.vmovi (x0 : BitVec 7) (x1 : BitVec 3) (x2 : BitVec 16) : RoundTrip.Statement (.vmovi x0 x1 x2) := by
  intro w hi hw
  obtain ⟨h, m, e0, e1, e2⟩ := layout33 (M := 28) (Option.some.inj hw).symm rfl (by decide)
  exact ⟨h, by rw [major1C m, decode1C]; simp [e0, e1, e2, accept_wf hi]⟩

theorem RoundTrip.vmovhi (x0 : BitVec 7) (x1 : BitVec 3) (x2 : BitVec 16) : RoundTrip.Statement (.vmovhi x0 x1 x2) := by
  intro w hi hw
  obtain ⟨h, m, e0, e1, e2⟩ := layout33 (M := 29) (Option.some.inj hw).symm rfl (by decide)
  exact ⟨h, by rw [major1D m, decode1D]; simp [e0, e1, e2, accept_wf hi]⟩

theorem RoundTrip.vcmpi (x0 : BitVec 3) (x1 : BitVec 3) (x2 : BitVec 7) (x3 : BitVec 3) (x4 : BitVec 9) : RoundTrip.Statement (.vcmpi x0 x1 x2 x3 x4) := by
  intro w hi hw
  obtain ⟨h, m, z0, e0, e1, e2, e3, e4⟩ := layout34 (M := 30) (Option.some.inj hw).symm rfl (by decide)
  have hc := codes_of_wf hi
  simp only [Instr.codesOk, decide_eq_true_eq] at hc
  have hf : field w 20 3 = x1.toNat := toNat_of_bv e1
  have g0 : ¬ 6 ≤ field w 20 3 := by omega
  exact ⟨h, by rw [major1E m, decode1E]; simp [g0, z0, e0, e1, e2, e3, e4, accept_wf hi]⟩

theorem RoundTrip.fadd (x0 : BitVec 7) (x1 : BitVec 7) (x2 : BitVec 7) (x3 : BitVec 3) : RoundTrip.Statement (.fadd x0 x1 x2 x3) := by
  intro w hi hw
  obtain ⟨h, m, f, e0, e1, e2, e3⟩ := layout28 (M := 32) (k := 0) (Option.some.inj hw).symm rfl (by decide) (by decide)
  exact ⟨h, by rw [major20 m, decode20]; simp [f, e0, e1, e2, e3, accept_wf hi]⟩

theorem RoundTrip.fsub (x0 : BitVec 7) (x1 : BitVec 7) (x2 : BitVec 7) (x3 : BitVec 3) : RoundTrip.Statement (.fsub x0 x1 x2 x3) := by
  intro w hi hw
  obtain ⟨h, m, f, e0, e1, e2, e3⟩ := layout28 (M := 32) (k := 1) (Option.some.inj hw).symm rfl (by decide) (by decide)
  exact ⟨h, by rw [major20 m, decode20]; simp [f, e0, e1, e2, e3, accept_wf hi]⟩

theorem RoundTrip.fmul (x0 : BitVec 7) (x1 : BitVec 7) (x2 : BitVec 7) (x3 : BitVec 3) : RoundTrip.Statement (.fmul x0 x1 x2 x3) := by
  intro w hi hw
  obtain ⟨h, m, f, e0, e1, e2, e3⟩ := layout28 (M := 32) (k := 2) (Option.some.inj hw).symm rfl (by decide) (by decide)
  exact ⟨h, by rw [major20 m, decode20]; simp [f, e0, e1, e2, e3, accept_wf hi]⟩

theorem RoundTrip.fmac (x0 : BitVec 7) (x1 : BitVec 7) (x2 : BitVec 7) (x3 : BitVec 3) : RoundTrip.Statement (.fmac x0 x1 x2 x3) := by
  intro w hi hw
  obtain ⟨h, m, f, e0, e1, e2, e3⟩ := layout28 (M := 32) (k := 3) (Option.some.inj hw).symm rfl (by decide) (by decide)
  exact ⟨h, by rw [major20 m, decode20]; simp [f, e0, e1, e2, e3, accept_wf hi]⟩

theorem RoundTrip.fmin (x0 : BitVec 7) (x1 : BitVec 7) (x2 : BitVec 7) (x3 : BitVec 3) : RoundTrip.Statement (.fmin x0 x1 x2 x3) := by
  intro w hi hw
  obtain ⟨h, m, f, e0, e1, e2, e3⟩ := layout28 (M := 33) (k := 0) (Option.some.inj hw).symm rfl (by decide) (by decide)
  exact ⟨h, by rw [major21 m, decode21]; simp [f, e0, e1, e2, e3, accept_wf hi]⟩

theorem RoundTrip.fmax (x0 : BitVec 7) (x1 : BitVec 7) (x2 : BitVec 7) (x3 : BitVec 3) : RoundTrip.Statement (.fmax x0 x1 x2 x3) := by
  intro w hi hw
  obtain ⟨h, m, f, e0, e1, e2, e3⟩ := layout28 (M := 33) (k := 1) (Option.some.inj hw).symm rfl (by decide) (by decide)
  exact ⟨h, by rw [major21 m, decode21]; simp [f, e0, e1, e2, e3, accept_wf hi]⟩

theorem RoundTrip.fminm (x0 : BitVec 7) (x1 : BitVec 7) (x2 : BitVec 7) (x3 : BitVec 3) : RoundTrip.Statement (.fminm x0 x1 x2 x3) := by
  intro w hi hw
  obtain ⟨h, m, f, e0, e1, e2, e3⟩ := layout28 (M := 33) (k := 2) (Option.some.inj hw).symm rfl (by decide) (by decide)
  exact ⟨h, by rw [major21 m, decode21]; simp [f, e0, e1, e2, e3, accept_wf hi]⟩

theorem RoundTrip.fmaxm (x0 : BitVec 7) (x1 : BitVec 7) (x2 : BitVec 7) (x3 : BitVec 3) : RoundTrip.Statement (.fmaxm x0 x1 x2 x3) := by
  intro w hi hw
  obtain ⟨h, m, f, e0, e1, e2, e3⟩ := layout28 (M := 33) (k := 3) (Option.some.inj hw).symm rfl (by decide) (by decide)
  exact ⟨h, by rw [major21 m, decode21]; simp [f, e0, e1, e2, e3, accept_wf hi]⟩

theorem RoundTrip.fceq (x0 : BitVec 3) (x1 : BitVec 7) (x2 : BitVec 7) (x3 : BitVec 3) : RoundTrip.Statement (.fceq x0 x1 x2 x3) := by
  intro w hi hw
  obtain ⟨h, m, f, z0, e0, e1, e2, e3⟩ := layout29 (M := 34) (k := 0) (Option.some.inj hw).symm rfl (by decide) (by decide)
  exact ⟨h, by rw [major22 m, decode22]; simp [f, z0, e0, e1, e2, e3, accept_wf hi]⟩

theorem RoundTrip.fclt (x0 : BitVec 3) (x1 : BitVec 7) (x2 : BitVec 7) (x3 : BitVec 3) : RoundTrip.Statement (.fclt x0 x1 x2 x3) := by
  intro w hi hw
  obtain ⟨h, m, f, z0, e0, e1, e2, e3⟩ := layout29 (M := 34) (k := 1) (Option.some.inj hw).symm rfl (by decide) (by decide)
  exact ⟨h, by rw [major22 m, decode22]; simp [f, z0, e0, e1, e2, e3, accept_wf hi]⟩

theorem RoundTrip.fcle (x0 : BitVec 3) (x1 : BitVec 7) (x2 : BitVec 7) (x3 : BitVec 3) : RoundTrip.Statement (.fcle x0 x1 x2 x3) := by
  intro w hi hw
  obtain ⟨h, m, f, z0, e0, e1, e2, e3⟩ := layout29 (M := 34) (k := 2) (Option.some.inj hw).symm rfl (by decide) (by decide)
  exact ⟨h, by rw [major22 m, decode22]; simp [f, z0, e0, e1, e2, e3, accept_wf hi]⟩

theorem RoundTrip.fcun (x0 : BitVec 3) (x1 : BitVec 7) (x2 : BitVec 7) (x3 : BitVec 3) : RoundTrip.Statement (.fcun x0 x1 x2 x3) := by
  intro w hi hw
  obtain ⟨h, m, f, z0, e0, e1, e2, e3⟩ := layout29 (M := 34) (k := 3) (Option.some.inj hw).symm rfl (by decide) (by decide)
  exact ⟨h, by rw [major22 m, decode22]; simp [f, z0, e0, e1, e2, e3, accept_wf hi]⟩

theorem RoundTrip.fdiv (x0 : BitVec 7) (x1 : BitVec 7) (x2 : BitVec 7) (x3 : BitVec 3) : RoundTrip.Statement (.fdiv x0 x1 x2 x3) := by
  intro w hi hw
  obtain ⟨h, m, f, e0, e1, e2, e3⟩ := layout28 (M := 35) (k := 0) (Option.some.inj hw).symm rfl (by decide) (by decide)
  exact ⟨h, by rw [major23 m, decode23]; simp [f, e0, e1, e2, e3, accept_wf hi]⟩

theorem RoundTrip.fsqrt (x0 : BitVec 7) (x1 : BitVec 7) (x2 : BitVec 3) : RoundTrip.Statement (.fsqrt x0 x1 x2) := by
  intro w hi hw
  obtain ⟨h, m, f, z0, e0, e1, e2⟩ := layout30 (M := 35) (k := 1) (Option.some.inj hw).symm rfl (by decide) (by decide)
  exact ⟨h, by rw [major23 m, decode23]; simp [f, z0, e0, e1, e2, accept_wf hi]⟩

theorem RoundTrip.frsq (x0 : BitVec 7) (x1 : BitVec 7) (x2 : BitVec 3) : RoundTrip.Statement (.frsq x0 x1 x2) := by
  intro w hi hw
  obtain ⟨h, m, f, z0, e0, e1, e2⟩ := layout30 (M := 35) (k := 2) (Option.some.inj hw).symm rfl (by decide) (by decide)
  exact ⟨h, by rw [major23 m, decode23]; simp [f, z0, e0, e1, e2, accept_wf hi]⟩

theorem RoundTrip.frcp (x0 : BitVec 7) (x1 : BitVec 7) (x2 : BitVec 3) : RoundTrip.Statement (.frcp x0 x1 x2) := by
  intro w hi hw
  obtain ⟨h, m, f, z0, e0, e1, e2⟩ := layout30 (M := 35) (k := 3) (Option.some.inj hw).symm rfl (by decide) (by decide)
  exact ⟨h, by rw [major23 m, decode23]; simp [f, z0, e0, e1, e2, accept_wf hi]⟩

theorem RoundTrip.fexp2 (x0 : BitVec 7) (x1 : BitVec 7) (x2 : BitVec 3) : RoundTrip.Statement (.fexp2 x0 x1 x2) := by
  intro w hi hw
  obtain ⟨h, m, f, z0, e0, e1, e2⟩ := layout30 (M := 36) (k := 0) (Option.some.inj hw).symm rfl (by decide) (by decide)
  exact ⟨h, by rw [major24 m, decode24]; simp [f, z0, e0, e1, e2, accept_wf hi]⟩

theorem RoundTrip.flog2 (x0 : BitVec 7) (x1 : BitVec 7) (x2 : BitVec 3) : RoundTrip.Statement (.flog2 x0 x1 x2) := by
  intro w hi hw
  obtain ⟨h, m, f, z0, e0, e1, e2⟩ := layout30 (M := 36) (k := 1) (Option.some.inj hw).symm rfl (by decide) (by decide)
  exact ⟨h, by rw [major24 m, decode24]; simp [f, z0, e0, e1, e2, accept_wf hi]⟩

theorem RoundTrip.fsinpi (x0 : BitVec 7) (x1 : BitVec 7) (x2 : BitVec 3) : RoundTrip.Statement (.fsinpi x0 x1 x2) := by
  intro w hi hw
  obtain ⟨h, m, f, z0, e0, e1, e2⟩ := layout30 (M := 36) (k := 2) (Option.some.inj hw).symm rfl (by decide) (by decide)
  exact ⟨h, by rw [major24 m, decode24]; simp [f, z0, e0, e1, e2, accept_wf hi]⟩

theorem RoundTrip.fcospi (x0 : BitVec 7) (x1 : BitVec 7) (x2 : BitVec 3) : RoundTrip.Statement (.fcospi x0 x1 x2) := by
  intro w hi hw
  obtain ⟨h, m, f, z0, e0, e1, e2⟩ := layout30 (M := 36) (k := 3) (Option.some.inj hw).symm rfl (by decide) (by decide)
  exact ⟨h, by rw [major24 m, decode24]; simp [f, z0, e0, e1, e2, accept_wf hi]⟩

theorem RoundTrip.fma (x0 : BitVec 5) (x1 : BitVec 5) (x2 : BitVec 5) (x3 : BitVec 5) (x4 : BitVec 3) : RoundTrip.Statement (.fma x0 x1 x2 x3 x4) := by
  intro w hi hw
  obtain ⟨h, m, f, z0, e0, e1, e2, e3, e4⟩ := layout35 (M := 37) (k := 0) (Option.some.inj hw).symm rfl (by decide) (by decide)
  exact ⟨h, by rw [major25 m, decode25]; simp [f, z0, e0, e1, e2, e3, e4, accept_wf hi]⟩

theorem RoundTrip.fms (x0 : BitVec 5) (x1 : BitVec 5) (x2 : BitVec 5) (x3 : BitVec 5) (x4 : BitVec 3) : RoundTrip.Statement (.fms x0 x1 x2 x3 x4) := by
  intro w hi hw
  obtain ⟨h, m, f, z0, e0, e1, e2, e3, e4⟩ := layout35 (M := 37) (k := 1) (Option.some.inj hw).symm rfl (by decide) (by decide)
  exact ⟨h, by rw [major25 m, decode25]; simp [f, z0, e0, e1, e2, e3, e4, accept_wf hi]⟩

theorem RoundTrip.fnma (x0 : BitVec 5) (x1 : BitVec 5) (x2 : BitVec 5) (x3 : BitVec 5) (x4 : BitVec 3) : RoundTrip.Statement (.fnma x0 x1 x2 x3 x4) := by
  intro w hi hw
  obtain ⟨h, m, f, z0, e0, e1, e2, e3, e4⟩ := layout35 (M := 37) (k := 2) (Option.some.inj hw).symm rfl (by decide) (by decide)
  exact ⟨h, by rw [major25 m, decode25]; simp [f, z0, e0, e1, e2, e3, e4, accept_wf hi]⟩

theorem RoundTrip.fnms (x0 : BitVec 5) (x1 : BitVec 5) (x2 : BitVec 5) (x3 : BitVec 5) (x4 : BitVec 3) : RoundTrip.Statement (.fnms x0 x1 x2 x3 x4) := by
  intro w hi hw
  obtain ⟨h, m, f, z0, e0, e1, e2, e3, e4⟩ := layout35 (M := 37) (k := 3) (Option.some.inj hw).symm rfl (by decide) (by decide)
  exact ⟨h, by rw [major25 m, decode25]; simp [f, z0, e0, e1, e2, e3, e4, accept_wf hi]⟩

theorem RoundTrip.hadd2 (x0 : BitVec 7) (x1 : BitVec 7) (x2 : BitVec 7) (x3 : BitVec 3) : RoundTrip.Statement (.hadd2 x0 x1 x2 x3) := by
  intro w hi hw
  obtain ⟨h, m, f, e0, e1, e2, e3⟩ := layout28 (M := 38) (k := 0) (Option.some.inj hw).symm rfl (by decide) (by decide)
  exact ⟨h, by rw [major26 m, decode26]; simp [f, e0, e1, e2, e3, accept_wf hi]⟩

theorem RoundTrip.hmul2 (x0 : BitVec 7) (x1 : BitVec 7) (x2 : BitVec 7) (x3 : BitVec 3) : RoundTrip.Statement (.hmul2 x0 x1 x2 x3) := by
  intro w hi hw
  obtain ⟨h, m, f, e0, e1, e2, e3⟩ := layout28 (M := 38) (k := 1) (Option.some.inj hw).symm rfl (by decide) (by decide)
  exact ⟨h, by rw [major26 m, decode26]; simp [f, e0, e1, e2, e3, accept_wf hi]⟩

theorem RoundTrip.hfmac2 (x0 : BitVec 7) (x1 : BitVec 7) (x2 : BitVec 7) (x3 : BitVec 3) : RoundTrip.Statement (.hfmac2 x0 x1 x2 x3) := by
  intro w hi hw
  obtain ⟨h, m, f, e0, e1, e2, e3⟩ := layout28 (M := 38) (k := 2) (Option.some.inj hw).symm rfl (by decide) (by decide)
  exact ⟨h, by rw [major26 m, decode26]; simp [f, e0, e1, e2, e3, accept_wf hi]⟩

theorem RoundTrip.hmax2 (x0 : BitVec 7) (x1 : BitVec 7) (x2 : BitVec 7) (x3 : BitVec 3) : RoundTrip.Statement (.hmax2 x0 x1 x2 x3) := by
  intro w hi hw
  obtain ⟨h, m, f, e0, e1, e2, e3⟩ := layout28 (M := 38) (k := 3) (Option.some.inj hw).symm rfl (by decide) (by decide)
  exact ⟨h, by rw [major26 m, decode26]; simp [f, e0, e1, e2, e3, accept_wf hi]⟩

theorem RoundTrip.badd2 (x0 : BitVec 7) (x1 : BitVec 7) (x2 : BitVec 7) (x3 : BitVec 3) : RoundTrip.Statement (.badd2 x0 x1 x2 x3) := by
  intro w hi hw
  obtain ⟨h, m, f, e0, e1, e2, e3⟩ := layout28 (M := 39) (k := 0) (Option.some.inj hw).symm rfl (by decide) (by decide)
  exact ⟨h, by rw [major27 m, decode27]; simp [f, e0, e1, e2, e3, accept_wf hi]⟩

theorem RoundTrip.bmul2 (x0 : BitVec 7) (x1 : BitVec 7) (x2 : BitVec 7) (x3 : BitVec 3) : RoundTrip.Statement (.bmul2 x0 x1 x2 x3) := by
  intro w hi hw
  obtain ⟨h, m, f, e0, e1, e2, e3⟩ := layout28 (M := 39) (k := 1) (Option.some.inj hw).symm rfl (by decide) (by decide)
  exact ⟨h, by rw [major27 m, decode27]; simp [f, e0, e1, e2, e3, accept_wf hi]⟩

theorem RoundTrip.bfmac2 (x0 : BitVec 7) (x1 : BitVec 7) (x2 : BitVec 7) (x3 : BitVec 3) : RoundTrip.Statement (.bfmac2 x0 x1 x2 x3) := by
  intro w hi hw
  obtain ⟨h, m, f, e0, e1, e2, e3⟩ := layout28 (M := 39) (k := 2) (Option.some.inj hw).symm rfl (by decide) (by decide)
  exact ⟨h, by rw [major27 m, decode27]; simp [f, e0, e1, e2, e3, accept_wf hi]⟩

theorem RoundTrip.bmax2 (x0 : BitVec 7) (x1 : BitVec 7) (x2 : BitVec 7) (x3 : BitVec 3) : RoundTrip.Statement (.bmax2 x0 x1 x2 x3) := by
  intro w hi hw
  obtain ⟨h, m, f, e0, e1, e2, e3⟩ := layout28 (M := 39) (k := 3) (Option.some.inj hw).symm rfl (by decide) (by decide)
  exact ⟨h, by rw [major27 m, decode27]; simp [f, e0, e1, e2, e3, accept_wf hi]⟩

theorem RoundTrip.cvt (x0 : BitVec 7) (x1 : BitVec 7) (x2 : BitVec 7) (x3 : BitVec 3) (x4 : BitVec 2) : RoundTrip.Statement (.cvt x0 x1 x2 x3 x4) := by
  intro w hi hw
  obtain ⟨h, m, e0, e1, e2, e3, e4⟩ := layout36 (M := 40) (Option.some.inj hw).symm rfl (by decide)
  exact ⟨h, by rw [major28 m, decode28]; simp [e0, e1, e2, e3, e4, accept_wf hi]⟩

theorem RoundTrip.fclass (x0 : BitVec 7) (x1 : BitVec 7) (x2 : BitVec 3) : RoundTrip.Statement (.fclass x0 x1 x2) := by
  intro w hi hw
  obtain ⟨h, m, f, z0, e0, e1, e2⟩ := layout30 (M := 41) (k := 0) (Option.some.inj hw).symm rfl (by decide) (by decide)
  exact ⟨h, by rw [major29 m, decode29]; simp [f, z0, e0, e1, e2, accept_wf hi]⟩

theorem RoundTrip.frint (x0 : BitVec 7) (x1 : BitVec 7) (x2 : BitVec 3) : RoundTrip.Statement (.frint x0 x1 x2) := by
  intro w hi hw
  obtain ⟨h, m, f, z0, e0, e1, e2⟩ := layout30 (M := 41) (k := 1) (Option.some.inj hw).symm rfl (by decide) (by decide)
  exact ⟨h, by rw [major29 m, decode29]; simp [f, z0, e0, e1, e2, accept_wf hi]⟩

theorem RoundTrip.fscalb (x0 : BitVec 7) (x1 : BitVec 7) (x2 : BitVec 7) (x3 : BitVec 3) : RoundTrip.Statement (.fscalb x0 x1 x2 x3) := by
  intro w hi hw
  obtain ⟨h, m, f, e0, e1, e2, e3⟩ := layout28 (M := 41) (k := 2) (Option.some.inj hw).symm rfl (by decide) (by decide)
  exact ⟨h, by rw [major29 m, decode29]; simp [f, e0, e1, e2, e3, accept_wf hi]⟩

theorem RoundTrip.fgetexp (x0 : BitVec 7) (x1 : BitVec 7) (x2 : BitVec 3) : RoundTrip.Statement (.fgetexp x0 x1 x2) := by
  intro w hi hw
  obtain ⟨h, m, f, z0, e0, e1, e2⟩ := layout30 (M := 41) (k := 3) (Option.some.inj hw).symm rfl (by decide) (by decide)
  exact ⟨h, by rw [major29 m, decode29]; simp [f, z0, e0, e1, e2, accept_wf hi]⟩

theorem RoundTrip.pand (x0 : BitVec 3) (x1 : BitVec 3) (x2 : BitVec 3) : RoundTrip.Statement (.pand x0 x1 x2) := by
  intro w hi hw
  obtain ⟨h, m, f, z0, z1, z2, e0, e1, e2⟩ := layout37 (M := 42) (k := 0) (Option.some.inj hw).symm rfl (by decide) (by decide)
  exact ⟨h, by rw [major2A m, decode2A]; simp [f, z0, z1, z2, e0, e1, e2, accept_wf hi]⟩

theorem RoundTrip.por (x0 : BitVec 3) (x1 : BitVec 3) (x2 : BitVec 3) : RoundTrip.Statement (.por x0 x1 x2) := by
  intro w hi hw
  obtain ⟨h, m, f, z0, z1, z2, e0, e1, e2⟩ := layout37 (M := 42) (k := 1) (Option.some.inj hw).symm rfl (by decide) (by decide)
  exact ⟨h, by rw [major2A m, decode2A]; simp [f, z0, z1, z2, e0, e1, e2, accept_wf hi]⟩

theorem RoundTrip.pxor (x0 : BitVec 3) (x1 : BitVec 3) (x2 : BitVec 3) : RoundTrip.Statement (.pxor x0 x1 x2) := by
  intro w hi hw
  obtain ⟨h, m, f, z0, z1, z2, e0, e1, e2⟩ := layout37 (M := 42) (k := 2) (Option.some.inj hw).symm rfl (by decide) (by decide)
  exact ⟨h, by rw [major2A m, decode2A]; simp [f, z0, z1, z2, e0, e1, e2, accept_wf hi]⟩

theorem RoundTrip.pandn (x0 : BitVec 3) (x1 : BitVec 3) (x2 : BitVec 3) : RoundTrip.Statement (.pandn x0 x1 x2) := by
  intro w hi hw
  obtain ⟨h, m, f, z0, z1, z2, e0, e1, e2⟩ := layout37 (M := 42) (k := 3) (Option.some.inj hw).symm rfl (by decide) (by decide)
  exact ⟨h, by rw [major2A m, decode2A]; simp [f, z0, z1, z2, e0, e1, e2, accept_wf hi]⟩

theorem RoundTrip.pnot (x0 : BitVec 3) (x1 : BitVec 3) : RoundTrip.Statement (.pnot x0 x1) := by
  intro w hi hw
  obtain ⟨h, m, f, z0, z1, z2, e0, e1⟩ := layout38 (M := 42) (k := 4) (Option.some.inj hw).symm rfl (by decide) (by decide)
  exact ⟨h, by rw [major2A m, decode2A]; simp [f, z0, z1, z2, e0, e1, accept_wf hi]⟩

theorem RoundTrip.pflag (x0 : BitVec 3) (x1 : BitVec 3) : RoundTrip.Statement (.pflag x0 x1) := by
  intro w hi hw
  obtain ⟨h, m, f, z0, z1, z2, e0, e1⟩ := layout39 (M := 42) (k := 5) (Option.some.inj hw).symm rfl (by decide) (by decide)
  exact ⟨h, by rw [major2A m, decode2A]; simp [f, z0, z1, z2, e0, e1, accept_wf hi]⟩

theorem RoundTrip.flclr (x0 : BitVec 5) : RoundTrip.Statement (.flclr x0) := by
  intro w hi hw
  obtain ⟨h, m, f, z0, e0⟩ := layout40 (M := 42) (k := 6) (Option.some.inj hw).symm rfl (by decide) (by decide)
  exact ⟨h, by rw [major2A m, decode2A]; simp [f, z0, e0, accept_wf hi]⟩

theorem RoundTrip.flrd (x0 : BitVec 6) : RoundTrip.Statement (.flrd x0) := by
  intro w hi hw
  obtain ⟨h, m, f, z0, e0⟩ := layout14 (M := 42) (k := 7) (Option.some.inj hw).symm rfl (by decide) (by decide)
  exact ⟨h, by rw [major2A m, decode2A]; simp [f, z0, e0, accept_wf hi]⟩

theorem RoundTrip.mfacc (x0 : BitVec 7) (x1 : BitVec 1) (x2 : BitVec 6) (x3 : BitVec 6) (x4 : BitVec 3) : RoundTrip.Statement (.mfacc x0 x1 x2 x3 x4) := by
  intro w hi hw
  obtain ⟨h, m, f, e0, e1, e2, e3, e4⟩ := layout41 (M := 43) (k := 0) (Option.some.inj hw).symm rfl (by decide) (by decide)
  exact ⟨h, by rw [major2B m, decode2B]; simp [f, e0, e1, e2, e3, e4, accept_wf hi]⟩

theorem RoundTrip.mtacc (x0 : BitVec 7) (x1 : BitVec 6) (x2 : BitVec 6) (x3 : BitVec 3) : RoundTrip.Statement (.mtacc x0 x1 x2 x3) := by
  intro w hi hw
  obtain ⟨h, m, f, z0, e0, e1, e2, e3⟩ := layout42 (M := 43) (k := 1) (Option.some.inj hw).symm rfl (by decide) (by decide)
  exact ⟨h, by rw [major2B m, decode2B]; simp [f, z0, e0, e1, e2, e3, acceptCode_wf hi]⟩

theorem RoundTrip.mfaccz (x0 : BitVec 7) (x1 : BitVec 1) (x2 : BitVec 6) (x3 : BitVec 6) (x4 : BitVec 3) : RoundTrip.Statement (.mfaccz x0 x1 x2 x3 x4) := by
  intro w hi hw
  obtain ⟨h, m, f, e0, e1, e2, e3, e4⟩ := layout41 (M := 43) (k := 2) (Option.some.inj hw).symm rfl (by decide) (by decide)
  exact ⟨h, by rw [major2B m, decode2B]; simp [f, e0, e1, e2, e3, e4, accept_wf hi]⟩

theorem RoundTrip.shfli (x0 : BitVec 7) (x1 : BitVec 7) (x2 : BitVec 7) (x3 : BitVec 3) : RoundTrip.Statement (.shfli x0 x1 x2 x3) := by
  intro w hi hw
  obtain ⟨h, m, f, e0, e1, e2, e3⟩ := layout28 (M := 44) (k := 0) (Option.some.inj hw).symm rfl (by decide) (by decide)
  exact ⟨h, by rw [major2C m, decode2C]; simp [f, e0, e1, e2, e3, accept_wf hi]⟩

theorem RoundTrip.shflu (x0 : BitVec 7) (x1 : BitVec 7) (x2 : BitVec 7) (x3 : BitVec 3) : RoundTrip.Statement (.shflu x0 x1 x2 x3) := by
  intro w hi hw
  obtain ⟨h, m, f, e0, e1, e2, e3⟩ := layout28 (M := 44) (k := 1) (Option.some.inj hw).symm rfl (by decide) (by decide)
  exact ⟨h, by rw [major2C m, decode2C]; simp [f, e0, e1, e2, e3, accept_wf hi]⟩

theorem RoundTrip.shfld (x0 : BitVec 7) (x1 : BitVec 7) (x2 : BitVec 7) (x3 : BitVec 3) : RoundTrip.Statement (.shfld x0 x1 x2 x3) := by
  intro w hi hw
  obtain ⟨h, m, f, e0, e1, e2, e3⟩ := layout28 (M := 44) (k := 2) (Option.some.inj hw).symm rfl (by decide) (by decide)
  exact ⟨h, by rw [major2C m, decode2C]; simp [f, e0, e1, e2, e3, accept_wf hi]⟩

theorem RoundTrip.shflx (x0 : BitVec 7) (x1 : BitVec 7) (x2 : BitVec 7) (x3 : BitVec 3) : RoundTrip.Statement (.shflx x0 x1 x2 x3) := by
  intro w hi hw
  obtain ⟨h, m, f, e0, e1, e2, e3⟩ := layout28 (M := 44) (k := 3) (Option.some.inj hw).symm rfl (by decide) (by decide)
  exact ⟨h, by rw [major2C m, decode2C]; simp [f, e0, e1, e2, e3, accept_wf hi]⟩

theorem RoundTrip.vall (x0 : BitVec 1) (x1 : BitVec 3) (x2 : BitVec 1) (x3 : BitVec 3) : RoundTrip.Statement (.vall x0 x1 x2 x3) := by
  intro w hi hw
  obtain ⟨h, m, f, z0, z1, z2, z3, e0, e1, e2, e3⟩ := layout43 (M := 45) (k := 0) (Option.some.inj hw).symm rfl (by decide) (by decide)
  exact ⟨h, by rw [major2D m, decode2D]; simp [f, z0, z1, z2, z3, e0, e1, e2, e3, accept_wf hi]⟩

theorem RoundTrip.vany (x0 : BitVec 1) (x1 : BitVec 3) (x2 : BitVec 1) (x3 : BitVec 3) : RoundTrip.Statement (.vany x0 x1 x2 x3) := by
  intro w hi hw
  obtain ⟨h, m, f, z0, z1, z2, z3, e0, e1, e2, e3⟩ := layout43 (M := 45) (k := 1) (Option.some.inj hw).symm rfl (by decide) (by decide)
  exact ⟨h, by rw [major2D m, decode2D]; simp [f, z0, z1, z2, z3, e0, e1, e2, e3, accept_wf hi]⟩

theorem RoundTrip.vbal (x0 : BitVec 6) (x1 : BitVec 1) (x2 : BitVec 3) : RoundTrip.Statement (.vbal x0 x1 x2) := by
  intro w hi hw
  obtain ⟨h, m, f, z0, z1, z2, e0, e1, e2⟩ := layout44 (M := 45) (k := 2) (Option.some.inj hw).symm rfl (by decide) (by decide)
  exact ⟨h, by rw [major2D m, decode2D]; simp [f, z0, z1, z2, e0, e1, e2, accept_wf hi]⟩

theorem RoundTrip.vcnt (x0 : BitVec 6) (x1 : BitVec 1) (x2 : BitVec 3) : RoundTrip.Statement (.vcnt x0 x1 x2) := by
  intro w hi hw
  obtain ⟨h, m, f, z0, z1, z2, e0, e1, e2⟩ := layout44 (M := 45) (k := 3) (Option.some.inj hw).symm rfl (by decide) (by decide)
  exact ⟨h, by rw [major2D m, decode2D]; simp [f, z0, z1, z2, e0, e1, e2, accept_wf hi]⟩

theorem RoundTrip.vred (x0 : BitVec 7) (x1 : BitVec 7) (x2 : BitVec 1) (x3 : BitVec 6) (x4 : BitVec 3) : RoundTrip.Statement (.vred x0 x1 x2 x3 x4) := by
  intro w hi hw
  obtain ⟨h, m, f, e0, e1, e2, e3, e4⟩ := layout45 (M := 46) (k := 0) (Option.some.inj hw).symm rfl (by decide) (by decide)
  exact ⟨h, by rw [major2E m, decode2E]; simp [f, e0, e1, e2, e3, e4, accept_wf hi]⟩

theorem RoundTrip.vscani (x0 : BitVec 7) (x1 : BitVec 7) (x2 : BitVec 6) (x3 : BitVec 3) : RoundTrip.Statement (.vscani x0 x1 x2 x3) := by
  intro w hi hw
  obtain ⟨h, m, f, z0, e0, e1, e2, e3⟩ := layout46 (M := 46) (k := 1) (Option.some.inj hw).symm rfl (by decide) (by decide)
  exact ⟨h, by rw [major2E m, decode2E]; simp [f, z0, e0, e1, e2, e3, accept_wf hi]⟩

theorem RoundTrip.vscanx (x0 : BitVec 7) (x1 : BitVec 7) (x2 : BitVec 6) (x3 : BitVec 3) : RoundTrip.Statement (.vscanx x0 x1 x2 x3) := by
  intro w hi hw
  obtain ⟨h, m, f, z0, e0, e1, e2, e3⟩ := layout46 (M := 46) (k := 2) (Option.some.inj hw).symm rfl (by decide) (by decide)
  exact ⟨h, by rw [major2E m, decode2E]; simp [f, z0, e0, e1, e2, e3, accept_wf hi]⟩

theorem RoundTrip.vbcast (x0 : BitVec 6) (x1 : BitVec 6) (x2 : BitVec 6) : RoundTrip.Statement (.vbcast x0 x1 x2) := by
  intro w hi hw
  obtain ⟨h, m, f, e0, e1, e2⟩ := layout23 (M := 47) (k := 0) (Option.some.inj hw).symm rfl (by decide) (by decide)
  exact ⟨h, by rw [major2F m, decode2F]; simp [f, e0, e1, e2, accept_wf hi]⟩

theorem RoundTrip.vextr (x0 : BitVec 6) (x1 : BitVec 6) (x2 : BitVec 6) : RoundTrip.Statement (.vextr x0 x1 x2) := by
  intro w hi hw
  obtain ⟨h, m, f, e0, e1, e2⟩ := layout23 (M := 47) (k := 1) (Option.some.inj hw).symm rfl (by decide) (by decide)
  exact ⟨h, by rw [major2F m, decode2F]; simp [f, e0, e1, e2, accept_wf hi]⟩

theorem RoundTrip.vinsr (x0 : BitVec 6) (x1 : BitVec 6) (x2 : BitVec 6) : RoundTrip.Statement (.vinsr x0 x1 x2) := by
  intro w hi hw
  obtain ⟨h, m, f, e0, e1, e2⟩ := layout23 (M := 47) (k := 2) (Option.some.inj hw).symm rfl (by decide) (by decide)
  exact ⟨h, by rw [major2F m, decode2F]; simp [f, e0, e1, e2, accept_wf hi]⟩

theorem RoundTrip.vcprs (x0 : BitVec 6) (x1 : BitVec 6) (x2 : BitVec 3) : RoundTrip.Statement (.vcprs x0 x1 x2) := by
  intro w hi hw
  obtain ⟨h, m, f, z0, e0, e1, e2⟩ := layout47 (M := 47) (k := 3) (Option.some.inj hw).symm rfl (by decide) (by decide)
  exact ⟨h, by rw [major2F m, decode2F]; simp [f, z0, e0, e1, e2, accept_wf hi]⟩

theorem RoundTrip.vlane (x0 : BitVec 6) (x1 : BitVec 1) : RoundTrip.Statement (.vlane x0 x1) := by
  intro w hi hw
  obtain ⟨h, m, f, z0, e0, e1⟩ := layout48 (M := 47) (k := 4) (Option.some.inj hw).symm rfl (by decide) (by decide)
  exact ⟨h, by rw [major2F m, decode2F]; simp [f, show field w 6 6 = 0 by simp only [field] at z0 ⊢; omega, show field w 1 5 = 0 by simp only [field] at z0 ⊢; omega, e0, e1, acceptCode_wf hi]⟩

theorem RoundTrip.vtid (x0 : BitVec 6) : RoundTrip.Statement (.vtid x0) := by
  intro w hi hw
  obtain ⟨h, m, f, z0, e0⟩ := layout14 (M := 47) (k := 5) (Option.some.inj hw).symm rfl (by decide) (by decide)
  exact ⟨h, by rw [major2F m, decode2F]; simp [f, z0, e0, accept_wf hi]⟩

theorem RoundTrip.lds (x0 : BitVec 7) (x1 : BitVec 7) (x2 : BitVec 6) (x3 : BitVec 3) (x4 : BitVec 3) : RoundTrip.Statement (.lds x0 x1 x2 x3 x4) := by
  intro w hi hw
  obtain ⟨h, m, e0, e1, e2, e3, e4⟩ := layout49 (M := 48) (Option.some.inj hw).symm rfl (by decide)
  exact ⟨h, by rw [major30 m, decode30]; simp [e0, e1, e2, e3, e4, accept_wf hi]⟩

theorem RoundTrip.sts (x0 : BitVec 7) (x1 : BitVec 7) (x2 : BitVec 6) (x3 : BitVec 3) (x4 : BitVec 3) : RoundTrip.Statement (.sts x0 x1 x2 x3 x4) := by
  intro w hi hw
  obtain ⟨h, m, e0, e1, e2, e3, e4⟩ := layout49 (M := 49) (Option.some.inj hw).symm rfl (by decide)
  exact ⟨h, by rw [major31 m, decode31]; simp [e0, e1, e2, e3, e4, accept_wf hi]⟩

theorem RoundTrip.lda (x0 : BitVec 7) (x1 : BitVec 7) (x2 : BitVec 6) (x3 : BitVec 3) (x4 : BitVec 3) : RoundTrip.Statement (.lda x0 x1 x2 x3 x4) := by
  intro w hi hw
  obtain ⟨h, m, e0, e1, e2, e3, e4⟩ := layout49 (M := 50) (Option.some.inj hw).symm rfl (by decide)
  exact ⟨h, by rw [major32 m, decode32]; simp [e0, e1, e2, e3, e4, accept_wf hi]⟩

theorem RoundTrip.sta (x0 : BitVec 7) (x1 : BitVec 7) (x2 : BitVec 6) (x3 : BitVec 3) (x4 : BitVec 3) : RoundTrip.Statement (.sta x0 x1 x2 x3 x4) := by
  intro w hi hw
  obtain ⟨h, m, e0, e1, e2, e3, e4⟩ := layout49 (M := 51) (Option.some.inj hw).symm rfl (by decide)
  exact ⟨h, by rw [major33 m, decode33]; simp [e0, e1, e2, e3, e4, accept_wf hi]⟩

theorem RoundTrip.ldg (x0 : BitVec 7) (x1 : BitVec 7) (x2 : BitVec 6) (x3 : BitVec 3) (x4 : BitVec 3) : RoundTrip.Statement (.ldg x0 x1 x2 x3 x4) := by
  intro w hi hw
  obtain ⟨h, m, e0, e1, e2, e3, e4⟩ := layout49 (M := 52) (Option.some.inj hw).symm rfl (by decide)
  exact ⟨h, by rw [major34 m, decode34]; simp [e0, e1, e2, e3, e4, accept_wf hi]⟩

theorem RoundTrip.stg (x0 : BitVec 7) (x1 : BitVec 7) (x2 : BitVec 6) (x3 : BitVec 3) (x4 : BitVec 3) : RoundTrip.Statement (.stg x0 x1 x2 x3 x4) := by
  intro w hi hw
  obtain ⟨h, m, e0, e1, e2, e3, e4⟩ := layout49 (M := 53) (Option.some.inj hw).symm rfl (by decide)
  exact ⟨h, by rw [major35 m, decode35]; simp [e0, e1, e2, e3, e4, accept_wf hi]⟩

theorem RoundTrip.atom (x0 : BitVec 7) (x1 : BitVec 7) (x2 : BitVec 6) (x3 : BitVec 4) (x4 : BitVec 2) : RoundTrip.Statement (.atom x0 x1 x2 x3 x4) := by
  intro w hi hw
  obtain ⟨h, m, e0, e1, e2, e3, e4⟩ := layout50 (M := 54) (Option.some.inj hw).symm rfl (by decide)
  exact ⟨h, by rw [major36 m, decode36]; simp [e0, e1, e2, e3, e4, accept_wf hi]⟩

theorem RoundTrip.fence (x0 : BitVec 2) (x1 : BitVec 2) : RoundTrip.Statement (.fence x0 x1) := by
  intro w hi hw
  obtain ⟨h, m, f, z0, e0, e1⟩ := layout51 (M := 55) (k := 0) (Option.some.inj hw).symm rfl (by decide) (by decide)
  exact ⟨h, by rw [major37 m, decode37]; simp [f, z0, e0, e1, accept_wf hi]⟩

theorem RoundTrip.acq (x0 : BitVec 6) (x1 : BitVec 6) (x2 : BitVec 2) : RoundTrip.Statement (.acq x0 x1 x2) := by
  intro w hi hw
  obtain ⟨h, m, f, z0, z1, e0, e1, e2⟩ := layout52 (M := 55) (k := 1) (Option.some.inj hw).symm rfl (by decide) (by decide)
  exact ⟨h, by rw [major37 m, decode37]; simp [f, z0, z1, e0, e1, e2, accept_wf hi]⟩

theorem RoundTrip.rel (x0 : BitVec 6) (x1 : BitVec 6) (x2 : BitVec 2) : RoundTrip.Statement (.rel x0 x1 x2) := by
  intro w hi hw
  obtain ⟨h, m, f, z0, z1, e0, e1, e2⟩ := layout52 (M := 55) (k := 2) (Option.some.inj hw).symm rfl (by decide) (by decide)
  exact ⟨h, by rw [major37 m, decode37]; simp [f, z0, z1, e0, e1, e2, accept_wf hi]⟩

theorem RoundTrip.bind (x0 : BitVec 6) (x1 : BitVec 6) (x2 : BitVec 6) : RoundTrip.Statement (.bind x0 x1 x2) := by
  intro w hi hw
  obtain ⟨h, m, f, e0, e1, e2⟩ := layout23 (M := 55) (k := 3) (Option.some.inj hw).symm rfl (by decide) (by decide)
  exact ⟨h, by rw [major37 m, decode37]; simp [f, e0, e1, e2, accept_wf hi]⟩

theorem RoundTrip.unbind (x0 : BitVec 6) : RoundTrip.Statement (.unbind x0) := by
  intro w hi hw
  obtain ⟨h, m, f, z0, z1, e0⟩ := layout53 (M := 55) (k := 4) (Option.some.inj hw).symm rfl (by decide) (by decide)
  exact ⟨h, by rw [major37 m, decode37]; simp [f, z0, z1, e0, accept_wf hi]⟩

theorem RoundTrip.cinv (x0 : BitVec 6) (x1 : BitVec 6) : RoundTrip.Statement (.cinv x0 x1) := by
  intro w hi hw
  obtain ⟨h, m, f, z0, e0, e1⟩ := layout54 (M := 55) (k := 5) (Option.some.inj hw).symm rfl (by decide) (by decide)
  exact ⟨h, by rw [major37 m, decode37]; simp [f, z0, e0, e1, accept_wf hi]⟩

theorem RoundTrip.cwbWriteback (x0 : BitVec 6) (x1 : BitVec 6) : RoundTrip.Statement (.cwbWriteback x0 x1) := by
  intro w hi hw
  obtain ⟨h, m, f, z0, e0, e1⟩ := layout54 (M := 55) (k := 6) (Option.some.inj hw).symm rfl (by decide) (by decide)
  exact ⟨h, by rw [major37 m, decode37]; simp [f, z0, e0, e1, accept_wf hi]⟩

theorem RoundTrip.satom (x0 : BitVec 4) (x1 : BitVec 2) (x2 : BitVec 6) (x3 : BitVec 6) (x4 : BitVec 6) : RoundTrip.Statement (.satom x0 x1 x2 x3 x4) := by
  intro w hi hw
  obtain ⟨h, m, f, e0, e1, e2, e3, e4⟩ := layout55 (M := 55) (k := 1) (Option.some.inj hw).symm rfl (by decide) (by decide)
  have hc := codes_of_wf hi
  simp only [Instr.codesOk, decide_eq_true_eq] at hc
  have hf : field w 20 4 = x0.toNat := toNat_of_bv e0
  have g0 : field w 20 4 < 10 := by omega
  have n0 : ¬ field w 18 8 = 0 := by unfold field at f ⊢; omega
  have n1 : ¬ field w 18 8 = 1 := by unfold field at f ⊢; omega
  have n2 : ¬ field w 18 8 = 2 := by unfold field at f ⊢; omega
  have n3 : ¬ field w 18 8 = 3 := by unfold field at f ⊢; omega
  have n4 : ¬ field w 18 8 = 4 := by unfold field at f ⊢; omega
  have n5 : ¬ field w 18 8 = 5 := by unfold field at f ⊢; omega
  have n6 : ¬ field w 18 8 = 6 := by unfold field at f ⊢; omega
  exact ⟨h, by rw [major37 m, decode37]; simp [g0, n0, n1, n2, n3, n4, n5, n6, f, e0, e1, e2, e3, e4, accept_wf hi]⟩

theorem RoundTrip.wait (x0 : BitVec 4) (x1 : BitVec 4) (x2 : BitVec 4) (x3 : BitVec 4) (x4 : BitVec 4) : RoundTrip.Statement (.wait x0 x1 x2 x3 x4) := by
  intro w hi hw
  obtain ⟨h, m, z0, e0, e1, e2, e3, e4⟩ := layout56 (M := 56) (Option.some.inj hw).symm rfl (by decide)
  exact ⟨h, by rw [major38 m, decode38]; simp [z0, e0, e1, e2, e3, e4, accept_wf hi]⟩

theorem RoundTrip.cpost (x0 : BitVec 6) : RoundTrip.Statement (.cpost x0) := by
  intro w hi hw
  obtain ⟨h, m, f, z0, e0⟩ := layout14 (M := 57) (k := 0) (Option.some.inj hw).symm rfl (by decide) (by decide)
  exact ⟨h, by rw [major39 m, decode39]; simp [f, z0, e0, accept_wf hi]⟩

theorem RoundTrip.waitge (x0 : BitVec 6) (x1 : BitVec 6) (x2 : BitVec 2) (x3 : BitVec 2) (x4 : BitVec 1) : RoundTrip.Statement (.waitge x0 x1 x2 x3 x4) := by
  intro w hi hw
  obtain ⟨h, m, f, z0, e0, e1, e2, e3, e4⟩ := layout57 (M := 57) (k := 1) (Option.some.inj hw).symm rfl (by decide) (by decide)
  exact ⟨h, by rw [major39 m, decode39]; simp [f, z0, e0, e1, e2, e3, e4, accept_wf hi]⟩

theorem RoundTrip.waitgec (x0 : BitVec 6) (x1 : BitVec 6) (x2 : BitVec 2) (x3 : BitVec 2) (x4 : BitVec 1) : RoundTrip.Statement (.waitgec x0 x1 x2 x3 x4) := by
  intro w hi hw
  obtain ⟨h, m, f, z0, e0, e1, e2, e3, e4⟩ := layout57 (M := 57) (k := 2) (Option.some.inj hw).symm rfl (by decide) (by decide)
  exact ⟨h, by rw [major39 m, decode39]; simp [f, z0, e0, e1, e2, e3, e4, accept_wf hi]⟩

theorem RoundTrip.launch (x0 : BitVec 6) : RoundTrip.Statement (.launch x0) := by
  intro w hi hw
  obtain ⟨h, m, f, z0, z1, e0⟩ := layout53 (M := 57) (k := 3) (Option.some.inj hw).symm rfl (by decide) (by decide)
  exact ⟨h, by rw [major39 m, decode39]; simp [f, z0, z1, e0, accept_wf hi]⟩

theorem RoundTrip.launchnb (x0 : BitVec 6) (x1 : BitVec 6) : RoundTrip.Statement (.launchnb x0 x1) := by
  intro w hi hw
  obtain ⟨h, m, f, z0, e0, e1⟩ := layout58 (M := 57) (k := 4) (Option.some.inj hw).symm rfl (by decide) (by decide)
  exact ⟨h, by rw [major39 m, decode39]; simp [f, z0, e0, e1, accept_wf hi]⟩

theorem RoundTrip.armcnt (x0 : BitVec 6) (x1 : BitVec 6) (x2 : BitVec 6) : RoundTrip.Statement (.armcnt x0 x1 x2) := by
  intro w hi hw
  obtain ⟨h, m, f, e0, e1, e2⟩ := layout23 (M := 57) (k := 5) (Option.some.inj hw).symm rfl (by decide) (by decide)
  exact ⟨h, by rw [major39 m, decode39]; simp [f, e0, e1, e2, accept_wf hi]⟩

theorem RoundTrip.disarm (x0 : BitVec 6) (x1 : BitVec 6) : RoundTrip.Statement (.disarm x0 x1) := by
  intro w hi hw
  obtain ⟨h, m, f, z0, e0, e1⟩ := layout3 (M := 57) (k := 6) (Option.some.inj hw).symm rfl (by decide) (by decide)
  exact ⟨h, by rw [major39 m, decode39]; simp [f, z0, e0, e1, accept_wf hi]⟩

theorem RoundTrip.cntrd (x0 : BitVec 6) (x1 : BitVec 6) (x2 : BitVec 6) : RoundTrip.Statement (.cntrd x0 x1 x2) := by
  intro w hi hw
  obtain ⟨h, m, f, e0, e1, e2⟩ := layout23 (M := 57) (k := 7) (Option.some.inj hw).symm rfl (by decide) (by decide)
  exact ⟨h, by rw [major39 m, decode39]; simp [f, e0, e1, e2, accept_wf hi]⟩

theorem RoundTrip.heat (x0 : BitVec 6) (x1 : BitVec 6) : RoundTrip.Statement (.heat x0 x1) := by
  intro w hi hw
  obtain ⟨h, m, f, z0, e0, e1⟩ := layout58 (M := 57) (k := 8) (Option.some.inj hw).symm rfl (by decide) (by decide)
  exact ⟨h, by rw [major39 m, decode39]; simp [f, z0, e0, e1, accept_wf hi]⟩

theorem RoundTrip.cool (x0 : BitVec 6) : RoundTrip.Statement (.cool x0) := by
  intro w hi hw
  obtain ⟨h, m, f, z0, z1, e0⟩ := layout53 (M := 57) (k := 9) (Option.some.inj hw).symm rfl (by decide) (by decide)
  exact ⟨h, by rw [major39 m, decode39]; simp [f, z0, z1, e0, accept_wf hi]⟩

theorem RoundTrip.cwbWaybill (x0 : BitVec 6) (x1 : BitVec 6) : RoundTrip.Statement (.cwbWaybill x0 x1) := by
  intro w hi hw
  obtain ⟨h, m, f, z0, e0, e1⟩ := layout58 (M := 58) (k := 0) (Option.some.inj hw).symm rfl (by decide) (by decide)
  exact ⟨h, by rw [major3A m, decode3A]; simp [f, z0, e0, e1, accept_wf hi]⟩

theorem RoundTrip.cwbr (x0 : BitVec 6) (x1 : BitVec 6) : RoundTrip.Statement (.cwbr x0 x1) := by
  intro w hi hw
  obtain ⟨h, m, f, z0, e0, e1⟩ := layout58 (M := 58) (k := 1) (Option.some.inj hw).symm rfl (by decide) (by decide)
  exact ⟨h, by rw [major3A m, decode3A]; simp [f, z0, e0, e1, accept_wf hi]⟩

theorem RoundTrip.cstra (x0 : BitVec 6) (x1 : BitVec 6) : RoundTrip.Statement (.cstra x0 x1) := by
  intro w hi hw
  obtain ⟨h, m, f, z0, e0, e1⟩ := layout58 (M := 58) (k := 2) (Option.some.inj hw).symm rfl (by decide) (by decide)
  exact ⟨h, by rw [major3A m, decode3A]; simp [f, z0, e0, e1, accept_wf hi]⟩

theorem RoundTrip.cstrb (x0 : BitVec 6) (x1 : BitVec 6) : RoundTrip.Statement (.cstrb x0 x1) := by
  intro w hi hw
  obtain ⟨h, m, f, z0, e0, e1⟩ := layout58 (M := 58) (k := 3) (Option.some.inj hw).symm rfl (by decide) (by decide)
  exact ⟨h, by rw [major3A m, decode3A]; simp [f, z0, e0, e1, accept_wf hi]⟩

theorem RoundTrip.cinbox (x0 : BitVec 6) : RoundTrip.Statement (.cinbox x0) := by
  intro w hi hw
  obtain ⟨h, m, f, z0, e0⟩ := layout14 (M := 58) (k := 4) (Option.some.inj hw).symm rfl (by decide) (by decide)
  exact ⟨h, by rw [major3A m, decode3A]; simp [f, z0, e0, accept_wf hi]⟩

theorem RoundTrip.cdone : RoundTrip.Statement (.cdone) := by
  intro w hi hw
  obtain ⟨h, m, f, z0⟩ := layout1 (M := 58) (k := 5) (Option.some.inj hw).symm rfl (by decide) (by decide)
  exact ⟨h, by rw [major3A m, decode3A]; simp [f, z0, accept_wf hi]⟩

theorem RoundTrip.ctladv (x0 : BitVec 6) (x1 : BitVec 2) : RoundTrip.Statement (.ctladv x0 x1) := by
  intro w hi hw
  obtain ⟨h, m, f, z0, e0, e1⟩ := layout59 (M := 58) (k := 6) (Option.some.inj hw).symm rfl (by decide) (by decide)
  exact ⟨h, by rw [major3A m, decode3A]; simp [f, z0, e0, e1, accept_wf hi]⟩

theorem RoundTrip.cwaitq (x0 : BitVec 6) (x1 : BitVec 6) : RoundTrip.Statement (.cwaitq x0 x1) := by
  intro w hi hw
  obtain ⟨h, m, f, z0, e0, e1⟩ := layout3 (M := 58) (k := 7) (Option.some.inj hw).symm rfl (by decide) (by decide)
  exact ⟨h, by rw [major3A m, decode3A]; simp [f, z0, e0, e1, accept_wf hi]⟩

theorem RoundTrip.mchb (x0 : BitVec 6) (x1 : BitVec 6) (x2 : BitVec 1) (x3 : BitVec 1) (x4 : BitVec 2) : RoundTrip.Statement (.mchb x0 x1 x2 x3 x4) := by
  intro w hi hw
  obtain ⟨h, m, f, z0, e0, e1, e2, e3, e4⟩ := layout60 (M := 59) (k := 0) (Option.some.inj hw).symm rfl (by decide) (by decide)
  exact ⟨h, by rw [major3B m, decode3B]; simp [f, z0, e0, e1, e2, e3, e4, accept_wf hi]⟩

theorem RoundTrip.mche (x0 : BitVec 6) : RoundTrip.Statement (.mche x0) := by
  intro w hi hw
  obtain ⟨h, m, f, z0, e0⟩ := layout14 (M := 59) (k := 1) (Option.some.inj hw).symm rfl (by decide) (by decide)
  exact ⟨h, by rw [major3B m, decode3B]; simp [f, z0, e0, accept_wf hi]⟩

theorem RoundTrip.mzacc (x0 : BitVec 6) (x1 : BitVec 6) : RoundTrip.Statement (.mzacc x0 x1) := by
  intro w hi hw
  obtain ⟨h, m, f, z0, e0, e1⟩ := layout58 (M := 59) (k := 2) (Option.some.inj hw).symm rfl (by decide) (by decide)
  exact ⟨h, by rw [major3B m, decode3B]; simp [f, z0, e0, e1, accept_wf hi]⟩

theorem RoundTrip.mcap (x0 : BitVec 6) : RoundTrip.Statement (.mcap x0) := by
  intro w hi hw
  obtain ⟨h, m, f, z0, e0⟩ := layout14 (M := 59) (k := 3) (Option.some.inj hw).symm rfl (by decide) (by decide)
  exact ⟨h, by rw [major3B m, decode3B]; simp [f, z0, e0, accept_wf hi]⟩

theorem RoundTrip.mstat (x0 : BitVec 6) (x1 : BitVec 1) : RoundTrip.Statement (.mstat x0 x1) := by
  intro w hi hw
  obtain ⟨h, m, f, z0, e0, e1⟩ := layout48 (M := 59) (k := 4) (Option.some.inj hw).symm rfl (by decide) (by decide)
  exact ⟨h, by rw [major3B m, decode3B]; simp [f, z0, e0, e1, accept_wf hi]⟩

theorem RoundTrip.mma (x0 : BitVec 5) (x1 : BitVec 7) (x2 : BitVec 2) (x3 : BitVec 6) (x4 : BitVec 3) (x5 : BitVec 1) (x6 : BitVec 1) : RoundTrip.Statement (.mma x0 x1 x2 x3 x4 x5 x6) := by
  intro w hi hw
  obtain ⟨h, m, z0, e0, e1, e2, e3, e4, e5, e6⟩ := layout61 (M := 60) (Option.some.inj hw).symm rfl (by decide)
  exact ⟨h, by rw [major3C m, decode3C]; simp [z0, e0, e1, e2, e3, e4, e5, e6, accept_wf hi]⟩

theorem RoundTrip.rldW (x0 : BitVec 7) (x1 : BitVec 6) (x2 : BitVec 1) (x3 : BitVec 6) (x4 : BitVec 3) : RoundTrip.Statement (.rldW x0 x1 x2 x3 x4) := by
  intro w hi hw
  obtain ⟨h, m, f, e0, e1, e2, e3, e4⟩ := layout62 (M := 61) (k := 0) (Option.some.inj hw).symm rfl (by decide) (by decide)
  exact ⟨h, by rw [major3D m, decode3D]; simp [f, e0, e1, e2, e3, e4, accept_wf hi]⟩

theorem RoundTrip.rldD (x0 : BitVec 7) (x1 : BitVec 6) (x2 : BitVec 1) (x3 : BitVec 6) (x4 : BitVec 3) : RoundTrip.Statement (.rldD x0 x1 x2 x3 x4) := by
  intro w hi hw
  obtain ⟨h, m, f, e0, e1, e2, e3, e4⟩ := layout62 (M := 61) (k := 1) (Option.some.inj hw).symm rfl (by decide) (by decide)
  exact ⟨h, by rw [major3D m, decode3D]; simp [f, e0, e1, e2, e3, e4, accept_wf hi]⟩

theorem RoundTrip.rldQ (x0 : BitVec 7) (x1 : BitVec 6) (x2 : BitVec 1) (x3 : BitVec 6) (x4 : BitVec 3) : RoundTrip.Statement (.rldQ x0 x1 x2 x3 x4) := by
  intro w hi hw
  obtain ⟨h, m, f, e0, e1, e2, e3, e4⟩ := layout62 (M := 61) (k := 2) (Option.some.inj hw).symm rfl (by decide) (by decide)
  exact ⟨h, by rw [major3D m, decode3D]; simp [f, e0, e1, e2, e3, e4, accept_wf hi]⟩

theorem RoundTrip.rstW (x0 : BitVec 7) (x1 : BitVec 6) (x2 : BitVec 1) (x3 : BitVec 6) (x4 : BitVec 3) : RoundTrip.Statement (.rstW x0 x1 x2 x3 x4) := by
  intro w hi hw
  obtain ⟨h, m, f, e0, e1, e2, e3, e4⟩ := layout62 (M := 61) (k := 3) (Option.some.inj hw).symm rfl (by decide) (by decide)
  exact ⟨h, by rw [major3D m, decode3D]; simp [f, e0, e1, e2, e3, e4, accept_wf hi]⟩

theorem RoundTrip.rstD (x0 : BitVec 7) (x1 : BitVec 6) (x2 : BitVec 1) (x3 : BitVec 6) (x4 : BitVec 3) : RoundTrip.Statement (.rstD x0 x1 x2 x3 x4) := by
  intro w hi hw
  obtain ⟨h, m, f, e0, e1, e2, e3, e4⟩ := layout62 (M := 61) (k := 4) (Option.some.inj hw).symm rfl (by decide) (by decide)
  exact ⟨h, by rw [major3D m, decode3D]; simp [f, e0, e1, e2, e3, e4, accept_wf hi]⟩

theorem RoundTrip.rstQ (x0 : BitVec 7) (x1 : BitVec 6) (x2 : BitVec 1) (x3 : BitVec 6) (x4 : BitVec 3) : RoundTrip.Statement (.rstQ x0 x1 x2 x3 x4) := by
  intro w hi hw
  obtain ⟨h, m, f, e0, e1, e2, e3, e4⟩ := layout62 (M := 61) (k := 5) (Option.some.inj hw).symm rfl (by decide) (by decide)
  exact ⟨h, by rw [major3D m, decode3D]; simp [f, e0, e1, e2, e3, e4, accept_wf hi]⟩

theorem RoundTrip.ratom (x0 : BitVec 4) (x1 : BitVec 2) (x2 : BitVec 6) (x3 : BitVec 6) (x4 : BitVec 6) : RoundTrip.Statement (.ratom x0 x1 x2 x3 x4) := by
  intro w hi hw
  obtain ⟨h, m, f, e0, e1, e2, e3, e4⟩ := layout55 (M := 62) (k := 0) (Option.some.inj hw).symm rfl (by decide) (by decide)
  have hc := codes_of_wf hi
  simp only [Instr.codesOk, decide_eq_true_eq] at hc
  have hf : field w 20 4 = x0.toNat := toNat_of_bv e0
  have g0 : field w 20 4 < 10 := by omega
  exact ⟨h, by rw [major3E m, decode3E]; simp [g0, f, e0, e1, e2, e3, e4, accept_wf hi]⟩

theorem RoundTrip.rnotify (x0 : BitVec 6) (x1 : BitVec 6) (x2 : BitVec 1) (x3 : BitVec 1) : RoundTrip.Statement (.rnotify x0 x1 x2 x3) := by
  intro w hi hw
  obtain ⟨h, m, f, z0, z1, z2, e0, e1, e2, e3⟩ := layout63 (M := 62) (k := 64) (Option.some.inj hw).symm rfl (by decide) (by decide)
  have n0 : ¬ field w 24 2 = 0 := by unfold field at f ⊢; omega
  exact ⟨h, by rw [major3E m, decode3E]; simp [n0, f, z0, z1, z2, e0, e1, e2, e3, accept_wf hi]⟩

theorem RoundTrip.rfence : RoundTrip.Statement (.rfence) := by
  intro w hi hw
  obtain ⟨h, m, f, z0⟩ := layout1 (M := 62) (k := 65) (Option.some.inj hw).symm rfl (by decide) (by decide)
  have n0 : ¬ field w 24 2 = 0 := by unfold field at f ⊢; omega
  exact ⟨h, by rw [major3E m, decode3E]; simp [n0, f, z0, accept_wf hi]⟩

theorem RoundTrip.tready (x0 : BitVec 6) (x1 : BitVec 6) : RoundTrip.Statement (.tready x0 x1) := by
  intro w hi hw
  obtain ⟨h, m, f, z0, e0, e1⟩ := layout58 (M := 62) (k := 66) (Option.some.inj hw).symm rfl (by decide) (by decide)
  have n0 : ¬ field w 24 2 = 0 := by unfold field at f ⊢; omega
  exact ⟨h, by rw [major3E m, decode3E]; simp [n0, f, z0, e0, e1, accept_wf hi]⟩

theorem RoundTrip.clqry (x0 : BitVec 6) (x1 : BitVec 6) (x2 : BitVec 6) : RoundTrip.Statement (.clqry x0 x1 x2) := by
  intro w hi hw
  obtain ⟨h, m, f, e0, e1, e2⟩ := layout23 (M := 62) (k := 67) (Option.some.inj hw).symm rfl (by decide) (by decide)
  have n0 : ¬ field w 24 2 = 0 := by unfold field at f ⊢; omega
  exact ⟨h, by rw [major3E m, decode3E]; simp [n0, f, e0, e1, e2, accept_wf hi]⟩

theorem RoundTrip.topo (x0 : BitVec 6) (x1 : BitVec 6) : RoundTrip.Statement (.topo x0 x1) := by
  intro w hi hw
  obtain ⟨h, m, f, z0, e0, e1⟩ := layout58 (M := 62) (k := 68) (Option.some.inj hw).symm rfl (by decide) (by decide)
  have n0 : ¬ field w 24 2 = 0 := by unfold field at f ⊢; omega
  exact ⟨h, by rw [major3E m, decode3E]; simp [n0, f, z0, e0, e1, accept_wf hi]⟩

theorem RoundTrip.himm (x0 : BitVec 22) : RoundTrip.Statement (.himm x0) := by
  intro w hi hw
  obtain ⟨h, m, f, e0⟩ := layout64 (M := 63) (k := 0) (Option.some.inj hw).symm rfl (by decide) (by decide)
  exact ⟨h, by rw [major3F m, decode3F]; simp [f, e0, accept_wf hi]⟩

theorem RoundTrip.hmod (x0 : BitVec 4) (x1 : BitVec 3) (x2 : BitVec 3) : RoundTrip.Statement (.hmod x0 x1 x2) := by
  intro w hi hw
  obtain ⟨h, m, f, z0, e0, e1, e2⟩ := layout65 (M := 63) (k := 1) (Option.some.inj hw).symm rfl (by decide) (by decide)
  exact ⟨h, by rw [major3F m, decode3F]; simp [f, z0, e0, e1, e2, accept_wf hi]⟩

theorem RoundTrip.hsched (x0 : BitVec 10) (x1 : BitVec 4) (x2 : BitVec 8) : RoundTrip.Statement (.hsched x0 x1 x2) := by
  intro w hi hw
  obtain ⟨h, m, f, e0, e1, e2⟩ := layout66 (M := 63) (k := 2) (Option.some.inj hw).symm rfl (by decide) (by decide)
  exact ⟨h, by rw [major3F m, decode3F]; simp [f, e0, e1, e2, accept_wf hi]⟩

theorem RoundTrip.hnop (x0 : BitVec 22) : RoundTrip.Statement (.hnop x0) := by
  intro w hi hw
  obtain ⟨h, m, f, e0⟩ := layout64 (M := 63) (k := 3) (Option.some.inj hw).symm rfl (by decide) (by decide)
  exact ⟨h, by rw [major3F m, decode3F]; simp [f, e0, accept_wf hi]⟩

theorem RoundTrip.hintKindNoop (x0 : BitVec 4) (x1 : BitVec 22) : RoundTrip.Statement (.hintKindNoop x0 x1) := by
  intro w hi hw
  obtain ⟨h, m, e0, e1⟩ := layout67 (M := 63) (Option.some.inj hw).symm rfl (by decide)
  have hc := codes_of_wf hi
  simp only [Instr.codesOk, decide_eq_true_eq] at hc
  have hf : field w 22 4 = x0.toNat := toNat_of_bv e0
  have g0 : 4 ≤ field w 22 4 := by omega
  have n0 : ¬ field w 22 4 = 0 := by omega
  have n1 : ¬ field w 22 4 = 1 := by omega
  have n2 : ¬ field w 22 4 = 2 := by omega
  have n3 : ¬ field w 22 4 = 3 := by omega
  exact ⟨h, by rw [major3F m, decode3F]; simp [g0, n0, n1, n2, n3, e0, e1, accept_wf hi]⟩

theorem RoundTrip.accessComplete : RoundTrip.Statement .accessComplete := fun _ _ h => by cases h

theorem RoundTrip.atomicPerform : RoundTrip.Statement .atomicPerform := fun _ _ h => by cases h

theorem RoundTrip.writeArrival : RoundTrip.Statement .writeArrival := fun _ _ h => by cases h

theorem RoundTrip.counterCarterMessage : RoundTrip.Statement .counterCarterMessage := fun _ _ h => by cases h

theorem RoundTrip.tlbInvalidationAck : RoundTrip.Statement .tlbInvalidationAck := fun _ _ h => by cases h

theorem RoundTrip.islandTaskPush : RoundTrip.Statement .islandTaskPush := fun _ _ h => by cases h

theorem RoundTrip.pendingLaunchForward : RoundTrip.Statement .pendingLaunchForward := fun _ _ h => by cases h

theorem RoundTrip.coachPlacement : RoundTrip.Statement .coachPlacement := fun _ _ h => by cases h

theorem RoundTrip.teamAdmission : RoundTrip.Statement .teamAdmission := fun _ _ h => by cases h

theorem RoundTrip.leaseWindowEnd : RoundTrip.Statement .leaseWindowEnd := fun _ _ h => by cases h

theorem RoundTrip.teamForced : RoundTrip.Statement .teamForced := fun _ _ h => by cases h

theorem RoundTrip.teamWake : RoundTrip.Statement .teamWake := fun _ _ h => by cases h

theorem RoundTrip.fuseTimeout : RoundTrip.Statement .fuseTimeout := fun _ _ h => by cases h

theorem RoundTrip.swapOut : RoundTrip.Statement .swapOut := fun _ _ h => by cases h

theorem RoundTrip.coachRestore : RoundTrip.Statement .coachRestore := fun _ _ h => by cases h

theorem RoundTrip.quantumBoundary : RoundTrip.Statement .quantumBoundary := fun _ _ h => by cases h

theorem RoundTrip.successorPush : RoundTrip.Statement .successorPush := fun _ _ h => by cases h

theorem RoundTrip.taskCompletion : RoundTrip.Statement .taskCompletion := fun _ _ h => by cases h

theorem RoundTrip.joinDecrement : RoundTrip.Statement .joinDecrement := fun _ _ h => by cases h

theorem RoundTrip.heatGrant : RoundTrip.Statement .heatGrant := fun _ _ h => by cases h

theorem RoundTrip.waybillElementLand : RoundTrip.Statement .waybillElementLand := fun _ _ h => by cases h

theorem RoundTrip.waybillComplete : RoundTrip.Statement .waybillComplete := fun _ _ h => by cases h

theorem RoundTrip.streamBlockPush : RoundTrip.Statement .streamBlockPush := fun _ _ h => by cases h

theorem RoundTrip.chainDispatch : RoundTrip.Statement .chainDispatch := fun _ _ h => by cases h

theorem RoundTrip.kblockApply : RoundTrip.Statement .kblockApply := fun _ _ h => by cases h

theorem RoundTrip.frameReceive : RoundTrip.Statement .frameReceive := fun _ _ h => by cases h

theorem RoundTrip.frameRetry : RoundTrip.Statement .frameRetry := fun _ _ h => by cases h

theorem RoundTrip.relayForward : RoundTrip.Statement .relayForward := fun _ _ h => by cases h

theorem RoundTrip.rotorSlot : RoundTrip.Statement .rotorSlot := fun _ _ h => by cases h

theorem RoundTrip.remoteReply : RoundTrip.Statement .remoteReply := fun _ _ h => by cases h

theorem RoundTrip.remoteTimeout : RoundTrip.Statement .remoteTimeout := fun _ _ h => by cases h

theorem RoundTrip.reportOnlyTimeout : RoundTrip.Statement .reportOnlyTimeout := fun _ _ h => by cases h

theorem RoundTrip.bellowsSend : RoundTrip.Statement .bellowsSend := fun _ _ h => by cases h

theorem RoundTrip.collectiveComplete : RoundTrip.Statement .collectiveComplete := fun _ _ h => by cases h

theorem RoundTrip.hcpselWrite : RoundTrip.Statement .hcpselWrite := fun _ _ h => by cases h

theorem RoundTrip.queueEnable : RoundTrip.Statement .queueEnable := fun _ _ h => by cases h

theorem RoundTrip.queueDisable : RoundTrip.Statement .queueDisable := fun _ _ h => by cases h

theorem RoundTrip.doorbell : RoundTrip.Statement .doorbell := fun _ _ h => by cases h

theorem RoundTrip.cmdNop : RoundTrip.Statement .cmdNop := fun _ _ h => by cases h

theorem RoundTrip.cmdLaunch : RoundTrip.Statement .cmdLaunch := fun _ _ h => by cases h

theorem RoundTrip.cmdWrite : RoundTrip.Statement .cmdWrite := fun _ _ h => by cases h

theorem RoundTrip.cmdCopy : RoundTrip.Statement .cmdCopy := fun _ _ h => by cases h

theorem RoundTrip.cmdMctset : RoundTrip.Statement .cmdMctset := fun _ _ h => by cases h

theorem RoundTrip.cmdKill : RoundTrip.Statement .cmdKill := fun _ _ h => by cases h

theorem RoundTrip.launchDispatch : RoundTrip.Statement .launchDispatch := fun _ _ h => by cases h

theorem RoundTrip.ctxCreate : RoundTrip.Statement .ctxCreate := fun _ _ h => by cases h

theorem RoundTrip.ctxDestroy : RoundTrip.Statement .ctxDestroy := fun _ _ h => by cases h

theorem RoundTrip.ctxSuspend : RoundTrip.Statement .ctxSuspend := fun _ _ h => by cases h

theorem RoundTrip.ctxResume : RoundTrip.Statement .ctxResume := fun _ _ h => by cases h

theorem RoundTrip.inval : RoundTrip.Statement .inval := fun _ _ h => by cases h

theorem RoundTrip.pfDone : RoundTrip.Statement .pfDone := fun _ _ h => by cases h

theorem RoundTrip.topoRead : RoundTrip.Statement .topoRead := fun _ _ h => by cases h

theorem RoundTrip.topoFence : RoundTrip.Statement .topoFence := fun _ _ h => by cases h

theorem RoundTrip.topoRemap : RoundTrip.Statement .topoRemap := fun _ _ h => by cases h

theorem RoundTrip.hearthBudgetWrite : RoundTrip.Statement .hearthBudgetWrite := fun _ _ h => by cases h

theorem RoundTrip.fwmaskWrite : RoundTrip.Statement .fwmaskWrite := fun _ _ h => by cases h

theorem RoundTrip.corectxWrite : RoundTrip.Statement .corectxWrite := fun _ _ h => by cases h

theorem RoundTrip.keyZeroise : RoundTrip.Statement .keyZeroise := fun _ _ h => by cases h

theorem RoundTrip.fareqAssign : RoundTrip.Statement .fareqAssign := fun _ _ h => by cases h

theorem RoundTrip.fareqQuarantine : RoundTrip.Statement .fareqQuarantine := fun _ _ h => by cases h

theorem RoundTrip.scrubStart : RoundTrip.Statement .scrubStart := fun _ _ h => by cases h

theorem RoundTrip.scrubUnit : RoundTrip.Statement .scrubUnit := fun _ _ h => by cases h

theorem RoundTrip.islandReset : RoundTrip.Statement .islandReset := fun _ _ h => by cases h

theorem RoundTrip.islandResetEnd : RoundTrip.Statement .islandResetEnd := fun _ _ h => by cases h

theorem RoundTrip.discard : RoundTrip.Statement .discard := fun _ _ h => by cases h

theorem RoundTrip.hubWake : RoundTrip.Statement .hubWake := fun _ _ h => by cases h

theorem RoundTrip.registerWrite : RoundTrip.Statement .registerWrite := fun _ _ h => by cases h

theorem RoundTrip.energyWindow : RoundTrip.Statement .energyWindow := fun _ _ h => by cases h

theorem RoundTrip.correctedError : RoundTrip.Statement .correctedError := fun _ _ h => by cases h

theorem RoundTrip.uncorrectableError : RoundTrip.Statement .uncorrectableError := fun _ _ h => by cases h

theorem RoundTrip.temperatureCrossing : RoundTrip.Statement .temperatureCrossing := fun _ _ h => by cases h

theorem RoundTrip.linkWindowEnd : RoundTrip.Statement .linkWindowEnd := fun _ _ h => by cases h

theorem RoundTrip.fwLoad : RoundTrip.Statement .fwLoad := fun _ _ h => by cases h

theorem RoundTrip.fwVerifyComplete : RoundTrip.Statement .fwVerifyComplete := fun _ _ h => by cases h

theorem RoundTrip.hubReset : RoundTrip.Statement .hubReset := fun _ _ h => by cases h

theorem RoundTrip.spdmRequest : RoundTrip.Statement .spdmRequest := fun _ _ h => by cases h

theorem RoundTrip.powerOn : RoundTrip.Statement .powerOn := fun _ _ h => by cases h

theorem RoundTrip.illegalInsn : RoundTrip.Statement .illegalInsn := fun _ _ h => by cases h

theorem RoundTrip.instructionFetchFault : RoundTrip.Statement .instructionFetchFault := fun _ _ h => by cases h

theorem RoundTrip.invalidCommand : RoundTrip.Statement .invalidCommand := fun _ _ h => by cases h

theorem RoundTrip.invalidMailboxRequest : RoundTrip.Statement .invalidMailboxRequest := fun _ _ h => by cases h

theorem RoundTrip.edgePortLinkUp : RoundTrip.Statement .edgePortLinkUp := fun _ _ h => by cases h

theorem RoundTrip.powerLoss : RoundTrip.Statement .powerLoss := fun _ _ h => by cases h

end Sys2Proof.Laws
end

