-- ==== Sys2Proof/Tests/Slice0.lean ====
section
/-!
SUPPORT. Tests: words written out from the encoding tables, ill-formed terms, one small step of each family with its expected result taken
from the specification, and a state that meets the hypotheses of each statement.
-/
namespace Sys2Proof.Tests

open Sys2Proof Sys2Proof.Machine Sys2Proof.Spec

set_option maxRecDepth 20000
set_option exponentiation.threshold 2000

/-! ### Small states -/

/-- The state after an instruction. -/
def after (i : Instr) (s : State) : State := match exec i s with
  | .next t => t
  | .fault _ => s
  | .refused _ => s

/-- An agent with a handle of its own, of launch 4, task 5 and coach 6; its code is at 0x20000. -/
def agent (k : AgentKind) : Thread :=
  { probeAgent k with id := { (probeAgent k).id with launch := 4, task := 5, coach := 6, slot := 2, vregs := 128, width := 4, prio := 1 } }

/-- A panel whose running agent is given, with one context on island 0 whose tables map the low GiB to itself. -/
def world (t : Thread) : State := { State.reset with cur := t, others := [], ctxs := [probeCtx], mem := setCells [] probeTables }

/-- A team with scalar registers set. -/
def regs (t : Thread) (rs : List (Nat × Word64)) : Thread := rs.foldl (fun t r => t.wrS r.1 r.2) t

/-- A team with register r of each lane set. -/
def lanes (t : Thread) (r : Nat) (f : Nat → Word32) : Thread := t.wrLanes r f (List.range 4)

/-- A team in the world with some scalar registers. -/
def s0 (rs : List (Nat × Word64)) : State := world (regs (agent .team) rs)

/-- A state in which a step is the current one. -/
def on (s : State) (e : Event) : State := s.withEv e

/-- Two teams, the running one and one beside it. -/
def mate : Thread := { agent .team with id := { (agent .team).id with uid := 9, team := 1, launchPos := 4, hitch := 1 } }

/-- Words of the specification's own worked examples (R208 to R338). -/
theorem test_decode_examples_1 : ∀ q ∈ ([
    (0x04518700, .sadd 5 6 7), (0x28080000, .ret), (0x28009000, .jmpr 9), (0x30001000, .vif 1), (0x30040000, .velse), (0x30080000, .vendif),
    (0x30142040, .vcont 2 1), (0x34000000, .exit), (0x34045000, .exitS 5), (0x34080000, .yield), (0x340C8244, .yieldc 8 9 4),
    (0x34100001, .split 1), (0x34185000, .lease 5), (0x3800000B, .gbar 0 2 3), (0x3804504A, .garrive 5 1 2 2), (0x38085049, .gwait 5 1 2 1),
    (0x40082063, .vsubs 1 2 3 0), (0x44409143, .vmad 8 9 10 0), (0x58103082, .vclt 2 3 4 0), (0x60103083, .vdot4 2 3 4 0),
    (0x680811FF, .vaddi 1 1 0 511), (0x6C103104, .vsrai 2 3 0 4), (0x70380000, .vmovi 7 0 0), (0x78801000, .vcmpi 1 0 1 0 0)] : List (Nat × Instr)), decodeWord q.1 = .ok q.2 := by decide

/-- Words of the specification's own worked examples (R208 to R338). -/
theorem test_decode_examples_2 : ∀ q ∈ ([
    (0x80082060, .fadd 1 2 3 0), (0x843060E2, .fminm 6 6 7 0), (0x88082061, .fclt 1 2 3 0), (0x8C2050C0, .fdiv 4 5 6 0),
    (0x8C205001, .fsqrt 4 5 0), (0x90082000, .fexp2 1 2 0), (0x90082003, .fcospi 1 2 0), (0x94221900, .fma 1 2 3 4 0),
    (0xA0103001, .cvt 2 3 0 0 1), (0xA4103003, .fgetexp 2 3 0), (0xA8001083, .pand 1 2 3), (0xA818001F, .flclr 31), (0xA81C3000, .flrd 3),
    (0xAC404240, .mfacc 8 0 4 9 0), (0xAC444240, .mfacc 8 1 4 9 0), (0xAC404241, .mtacc 8 4 9 0), (0xAC404242, .mfaccz 8 0 4 9 0),
    (0xB0101123, .shflx 2 1 9 0), (0xB404A500, .vany 1 2 1 4), (0xB4086040, .vbal 6 0 1), (0xB8101002, .vscanx 2 1 0 0),
    (0xBC004042, .vbcast 4 1 2), (0xBC047042, .vextr 7 1 2), (0xBC0C5042, .vcprs 5 1 2)] : List (Nat × Instr)), decodeWord q.1 = .ok q.2 := by decide

/-- Words of the specification's own worked examples (R208 to R338). -/
theorem test_decode_examples_3 : ∀ q ∈ ([
    (0xBC143000, .vtid 3), (0xD8305127, .atom 6 5 4 9 3), (0xDC00000A, .fence 2 2), (0xDC045108, .acq 5 4 2), (0xDC0C9284, .bind 9 10 4),
    (0xDC140105, .cinv 4 5), (0xE4008000, .cpost 8), (0xE4044149, .waitge 4 5 0 2 1), (0xE40461D5, .waitge 6 7 1 1 1),
    (0xE4046029, .waitge 6 0 2 2 1), (0xE4084009, .waitgec 4 0 0 2 1), (0xE40C0100, .launch 4), (0xE4145106, .armcnt 5 4 6),
    (0xE4185006, .disarm 5 6), (0xE41C5046, .cntrd 5 1 6), (0xE4205100, .heat 5 4), (0xE8005100, .cwbWaybill 5 4), (0xE8045200, .cwbr 5 8),
    (0xE8085100, .cstra 5 4), (0xE80C5100, .cstrb 5 4), (0xE8108000, .cinbox 8), (0xE8185002, .ctladv 5 2), (0xE81C5001, .cwaitq 5 1),
    (0xEC005180, .mchb 5 6 0 0 0)] : List (Nat × Instr)), decodeWord q.1 = .ok q.2 := by decide

/-- Words of the specification's own worked examples (R208 to R338). -/
theorem test_decode_examples_4 : ∀ q ∈ ([
    (0xEC0051B4, .mchb 5 6 1 1 1), (0xF04A0184, .mma 2 40 0 6 0 1 0), (0xF0600180, .mma 3 0 0 6 0 0 0), (0xF0E00192, .mma 7 0 0 6 2 0 1),
    (0xEC047000, .mche 7), (0xEC084140, .mzacc 4 5), (0xEC0C5000, .mcap 5), (0xEC105001, .mstat 5 1), (0xF440B101, .rldD 8 5 1 4 0),
    (0xF9006202, .rnotify 6 8 0 1), (0xF9085100, .tready 5 4), (0xF90C5102, .clqry 5 4 2), (0xF9105100, .topo 5 4), (0x00185012, .mfsr 5 18),
    (0xFC400005, .hmod 0 0 5), (0xFC400028, .hmod 0 5 0), (0xFC400040, .hmod 1 0 0), (0xFC400046, .hmod 1 0 6), (0xFC800110, .hsched 0 1 16),
    (0xFCC00000, .hnop 0), (0xFD400000, .hintKindNoop 5 0), (0xFFFFFFFF, .hintKindNoop 15 0x3FFFFF), (0xE8100000, .cinbox 0),
    (0x2D000A02, .loophi 10 2)] : List (Nat × Instr)), decodeWord q.1 = .ok q.2 := by decide

/-- Words of the specification's own worked examples (R208 to R338). -/
theorem test_decode_examples_5 : ∀ q ∈ ([
    (0x15214600, .scmp 2 2 5 6), (0x00000000, .nop)] : List (Nat × Instr)), decodeWord q.1 = .ok q.2 := by decide

/-- Words put together field by field from R208, R211 and R216. -/
theorem test_decode_fields_1 : ∀ q ∈ ([
    (0b000000_00000001000000000000_001001, .trap 9), (0b000000_00000010000000000000_001001, .brk 9),
    (0b000000_00000011000000000000000000, .tret), (0b000000_00000100000000000000000000, .tkill), (0b000000_00000101000000000000000000, .tskip),
    (0b000000_00000111_010100_000000_000010, .mtsr 20 2), (0b000000_00001000000000000000000000, .halt),
    (0b000001_011000_010100_001100_00000001, .ssub 24 20 12), (0b000001_011000_010100_001100_00000010, .smul 24 20 12),
    (0b000001_011000_010100_001100_00000011, .smulh 24 20 12), (0b000001_011000_010100_001100_00000100, .smulhu 24 20 12),
    (0b000001_011000_010100_001100_00000101, .sdiv 24 20 12), (0b000001_011000_010100_001100_00000110, .sdivu 24 20 12),
    (0b000001_011000_010100_001100_00000111, .srem 24 20 12), (0b000001_011000_010100_001100_00001000, .sremu 24 20 12),
    (0b000001_011000_010100_001100_00001001, .sand 24 20 12), (0b000001_011000_010100_001100_00001010, .sor 24 20 12),
    (0b000001_011000_010100_001100_00001011, .sxor 24 20 12), (0b000001_011000_010100_001100_00001100, .sshl 24 20 12),
    (0b000001_011000_010100_001100_00001101, .sshr 24 20 12)] : List (Nat × Instr)), decodeWord q.1 = .ok q.2 := by decide

/-- Words put together field by field from R208, R211 and R216. -/
theorem test_decode_fields_2 : ∀ q ∈ ([
    (0b000001_011000_010100_001100_00001110, .ssra 24 20 12), (0b000001_011000_010100_001100_00001111, .smin 24 20 12),
    (0b000001_011000_010100_001100_00010000, .smax 24 20 12), (0b000001_011000_010100_001100_00010001, .sminu 24 20 12),
    (0b000001_011000_010100_001100_00010010, .smaxu 24 20 12), (0b000001_011000_010100_00000000010011, .sclz 24 20),
    (0b000001_011000_010100_00000000010100, .spopc 24 20), (0b000010_011000_010100_00000101010101, .saddi 24 20 341),
    (0b000011_011000_010100_00000000_001001, .sshli 24 20 9), (0b000011_011000_010100_01000000_001001, .sshri 24 20 9),
    (0b000011_011000_010100_10000000_001001, .ssrai 24 20 9), (0b000100_011000_00000000000101010101, .slui 24 341),
    (0b000110_110_011_010100_00000101010101, .scmpi 6 3 20 341), (0b000111_011000_010100_00_000100100011, .sldW 24 20 291),
    (0b000111_011000_010100_01_000100100011, .sldD 24 20 291), (0b000111_011000_010100_10_000100100011, .sstW 24 20 291),
    (0b000111_011000_010100_11_000100100011, .sstD 24 20 291), (0b001000_011_1_1010101010101010101010, .br 3 1 2796202),
    (0b001001_00000000000000000100100011, .call 291), (0b001010_00000001_010100_000000000000, .callr 20)] : List (Nat × Instr)), decodeWord q.1 = .ok q.2 := by decide

/-- Words put together field by field from R208, R211 and R216. -/
theorem test_decode_fields_3 : ∀ q ∈ ([
    (0b001010_00000011001_110_001_100_001_011, .cand 6 4 3), (0b001010_00000100001_110_001_100_001_011, .cor 6 4 3),
    (0b001010_00000101001_110_001_100_001_011, .cxor 6 4 3), (0b001010_00000110001_110_001_100_000000, .cnot 6 4),
    (0b001011_00_010100_0000000000_00000110, .looph 20 6), (0b001011_10000000000000000000000000, .lbrk),
    (0b001100_00000011000000000000000000, .vloop), (0b001100_00000100000_101_000010_000000, .vbrk 5 2),
    (0b001100_00000110_000000000000011000, .endvl 24), (0b001101_00000101_011000_000001_0_00001, .fuse 24 1 1),
    (0b001101_00000111000000000000000000, .leasem), (0b001101_00001000_011000_000000_000010, .leaseq 24 2),
    (0b001110_00000011_011000_0000_10_00_0011, .gqry 24 2 3), (0b010000_0011000_0010100_0001100_101_00, .vadd 24 20 12 5),
    (0b010000_0011000_0010100_0001100_101_01, .vsub 24 20 12 5), (0b010000_0011000_0010100_0001100_101_10, .vadds 24 20 12 5),
    (0b010001_0011000_0010100_0001100_101_00, .vmul 24 20 12 5), (0b010001_0011000_0010100_0001100_101_01, .vmulh 24 20 12 5),
    (0b010001_0011000_0010100_0001100_101_10, .vmulhu 24 20 12 5), (0b010010_0011000_0010100_0001100_101_00, .vand 24 20 12 5)] : List (Nat × Instr)), decodeWord q.1 = .ok q.2 := by decide

/-- Words put together field by field from R208, R211 and R216. -/
theorem test_decode_fields_4 : ∀ q ∈ ([
    (0b010010_0011000_0010100_0001100_101_01, .vor 24 20 12 5), (0b010010_0011000_0010100_0001100_101_10, .vxor 24 20 12 5),
    (0b010010_0011000_0010100_0001100_101_11, .vandn 24 20 12 5), (0b010011_0011000_0010100_0001100_101_00, .vshl 24 20 12 5),
    (0b010011_0011000_0010100_0001100_101_01, .vshr 24 20 12 5), (0b010011_0011000_0010100_0001100_101_10, .vsra 24 20 12 5),
    (0b010011_0011000_0010100_0001100_101_11, .vrot 24 20 12 5), (0b010100_0011000_0010100_0001100_101_00, .vmin 24 20 12 5),
    (0b010100_0011000_0010100_0001100_101_01, .vmax 24 20 12 5), (0b010100_0011000_0010100_0001100_101_10, .vminu 24 20 12 5),
    (0b010100_0011000_0010100_0001100_101_11, .vmaxu 24 20 12 5), (0b010101_0011000_0010100_0001100_101_00, .vaddus 24 20 12 5),
    (0b010101_0011000_0010100_0001100_101_01, .vsubus 24 20 12 5), (0b010101_0011000_0010100_0001100_101_10, .vabsd 24 20 12 5),
    (0b010101_0011000_0010100_0001100_101_11, .vavg 24 20 12 5), (0b010110_0000_110_0010100_0001100_101_00, .vceq 6 20 12 5),
    (0b010110_0000_110_0010100_0001100_101_01, .vcne 6 20 12 5), (0b010110_0000_110_0010100_0001100_101_11, .vcle 6 20 12 5),
    (0b010111_0000_110_0010100_0001100_101_00, .vcltu 6 20 12 5), (0b010111_0000_110_0010100_0001100_101_01, .vcleu 6 20 12 5)] : List (Nat × Instr)), decodeWord q.1 = .ok q.2 := by decide

/-- Words put together field by field from R208, R211 and R216. -/
theorem test_decode_fields_5 : ∀ q ∈ ([
    (0b010111_0000_110_0010100_0001100_101_10, .vctst 6 20 12 5), (0b011000_0011000_0010100_0001100_101_00, .vaddh2 24 20 12 5),
    (0b011000_0011000_0010100_0001100_101_01, .vaddb4 24 20 12 5), (0b011000_0011000_0010100_0001100_101_10, .vmulh2 24 20 12 5),
    (0b011001_0011000_0010100_0001100_001_00, .vsel 24 20 12 1), (0b011001_0011000_0010100_0000000_101_01, .vclz 24 20 5),
    (0b011001_0011000_0010100_0000000_101_10, .vpopc 24 20 5), (0b011001_0011000_0010100_0000000_101_11, .vbrev 24 20 5),
    (0b011011_0011000_0010100_101_0000_01001, .vshli 24 20 5 9), (0b011011_0011000_0010100_101_0100_01001, .vshri 24 20 5 9),
    (0b011101_0011000_101_0000000101010101, .vmovhi 24 5 341), (0b100000_0011000_0010100_0001100_101_01, .fsub 24 20 12 5),
    (0b100000_0011000_0010100_0001100_101_10, .fmul 24 20 12 5), (0b100000_0011000_0010100_0001100_101_11, .fmac 24 20 12 5),
    (0b100001_0011000_0010100_0001100_101_00, .fmin 24 20 12 5), (0b100001_0011000_0010100_0001100_101_01, .fmax 24 20 12 5),
    (0b100001_0011000_0010100_0001100_101_11, .fmaxm 24 20 12 5), (0b100010_0000_110_0010100_0001100_101_00, .fceq 6 20 12 5),
    (0b100010_0000_110_0010100_0001100_101_10, .fcle 6 20 12 5), (0b100010_0000_110_0010100_0001100_101_11, .fcun 6 20 12 5)] : List (Nat × Instr)), decodeWord q.1 = .ok q.2 := by decide

/-- Words put together field by field from R208, R211 and R216. -/
theorem test_decode_fields_6 : ∀ q ∈ ([
    (0b100011_0011000_0010100_0000000_101_10, .frsq 24 20 5), (0b100011_0011000_0010100_0000000_101_11, .frcp 24 20 5),
    (0b100100_0011000_0010100_0000000_101_01, .flog2 24 20 5), (0b100100_0011000_0010100_0000000_101_10, .fsinpi 24 20 5),
    (0b100101_11000_10100_01100_00011_101_010, .fms 24 20 12 3 5), (0b100101_11000_10100_01100_00011_101_100, .fnma 24 20 12 3 5),
    (0b100101_11000_10100_01100_00011_101_110, .fnms 24 20 12 3 5), (0b100110_0011000_0010100_0001100_101_00, .hadd2 24 20 12 5),
    (0b100110_0011000_0010100_0001100_101_01, .hmul2 24 20 12 5), (0b100110_0011000_0010100_0001100_101_10, .hfmac2 24 20 12 5),
    (0b100110_0011000_0010100_0001100_101_11, .hmax2 24 20 12 5), (0b100111_0011000_0010100_0001100_101_00, .badd2 24 20 12 5),
    (0b100111_0011000_0010100_0001100_101_01, .bmul2 24 20 12 5), (0b100111_0011000_0010100_0001100_101_10, .bfmac2 24 20 12 5),
    (0b100111_0011000_0010100_0001100_101_11, .bmax2 24 20 12 5), (0b101001_0011000_0010100_0000000_101_00, .fclass 24 20 5),
    (0b101001_0011000_0010100_0000000_101_01, .frint 24 20 5), (0b101001_0011000_0010100_0001100_101_10, .fscalb 24 20 12 5),
    (0b101010_00000001000_110_000_100_000_011, .por 6 4 3), (0b101010_00000010000_110_000_100_000_011, .pxor 6 4 3)] : List (Nat × Instr)), decodeWord q.1 = .ok q.2 := by decide

/-- Words put together field by field from R208, R211 and R216. -/
theorem test_decode_fields_7 : ∀ q ∈ ([
    (0b101010_00000011000_110_000_100_000_011, .pandn 6 4 3), (0b101010_00000100000_110_000_100_000000, .pnot 6 4),
    (0b101010_00000101000_110_010_011_000000, .pflag 6 3), (0b101100_0011000_0010100_0001100_101_00, .shfli 24 20 12 5),
    (0b101100_0011000_0010100_0001100_101_01, .shflu 24 20 12 5), (0b101100_0011000_0010100_0001100_101_10, .shfld 24 20 12 5),
    (0b101101_0000000000_1_110_0_1_0_001_000000, .vall 1 6 1 1), (0b101101_00000011_011000_0_1_0_001_000000, .vcnt 24 1 1),
    (0b101110_0011000_0010100_1_000100_101_00, .vred 24 20 1 4 5), (0b101110_0011000_0010100_0_000100_101_01, .vscani 24 20 4 5),
    (0b101111_00000010_011000_010100_001100, .vinsr 24 20 12), (0b101111_00000100_011000_00000000000_1, .vlane 24 1),
    (0b110000_0011000_0010100_001100_101_100, .lds 24 20 12 5 4), (0b110001_0011000_0010100_001100_101_100, .sts 24 20 12 5 4),
    (0b110010_0011000_0010100_001100_101_100, .lda 24 20 12 5 4), (0b110011_0011000_0010100_001100_101_100, .sta 24 20 12 5 4),
    (0b110100_0011000_0010100_001100_101_100, .ldg 24 20 12 5 4), (0b110101_0011000_0010100_001100_101_100, .stg 24 20 12 5 4),
    (0b110111_00000010_001100_010100_00_10_00, .rel 12 20 2), (0b110111_00000100000000_010100_000000, .unbind 20)] : List (Nat × Instr)), decodeWord q.1 = .ok q.2 := by decide

/-- Words put together field by field from R208, R211 and R216. -/
theorem test_decode_fields_8 : ∀ q ∈ ([
    (0b110111_00000110000000_010100_001100, .cwbWriteback 20 12), (0b110111_01_1001_10_011000_010100_001100, .satom 9 2 24 20 12),
    (0b111000_0001_0010_0011_0100_0101_000000, .wait 1 2 3 4 5), (0b111001_00000100_011000_010100_000000, .launchnb 24 20),
    (0b111001_00001001000000_010100_000000, .cool 20), (0b111010_00000101000000000000000000, .cdone),
    (0b111101_0011000_010100_1_001100_101_000, .rldW 24 20 1 12 5), (0b111101_0011000_010100_1_001100_101_010, .rldQ 24 20 1 12 5),
    (0b111101_0011000_010100_1_001100_101_011, .rstW 24 20 1 12 5), (0b111101_0011000_010100_1_001100_101_100, .rstD 24 20 1 12 5),
    (0b111101_0011000_010100_1_001100_101_101, .rstQ 24 20 1 12 5), (0b111110_00_1001_10_011000_010100_001100, .ratom 9 2 24 20 12),
    (0b111110_01000001000000000000000000, .rfence), (0b111111_0000_1010101010101010101010, .himm 2796202)] : List (Nat × Instr)), decodeWord q.1 = .ok q.2 := by decide

/-! ### Well-formedness: a term for each check, which it refuses -/

theorem test_wf_unused_fields : ∀ i ∈ ([.mchb 1 2 0 0 1, .mma 0 1 0 2 0 0 0, .mma 0 0 1 2 0 0 0, .vred 64 1 1 0 0, .vred 1 1 0 13 0, .vscani 1 1 13 0,
    .vscanx 1 1 13 0, .waitge 1 1 2 1 0] : List Instr), i.zerosOk = false ∧ i.wf = false := by decide

theorem test_wf_codes_scalar : ∀ i ∈ ([.mfsr 1 27, .mtsr 1 27, .scmp 1 6 1 1, .scmpi 1 7 1 0, .vcmpi 1 6 1 0 0, .yieldc 1 2 5, .yieldc 1 2 12,
    .fuse 1 5 0, .leaseq 1 5, .gbar 0 3 0, .gbar 0 0 0, .garrive 1 0 3 0, .garrive 1 0 1 1, .gwait 1 0 0 0, .gwait 1 0 1 2, .gqry 1 0 4] : List Instr),
    i.codesOk = false ∧ i.wf = false := by decide

theorem test_wf_codes_vector : ∀ i ∈ ([.cvt 1 1 18 0 0, .cvt 1 1 12 0 1, .pflag 1 5, .vall 0 1 1 5, .vany 0 1 1 5, .vbal 1 1 5, .vcnt 1 1 5,
    .mfacc 1 0 13 0 0, .mtacc 1 13 0 0, .mfaccz 1 0 13 0 0, .vred 1 1 0 14 0, .vscani 1 1 14 0, .vscanx 1 1 14 0] : List Instr),
    i.codesOk = false ∧ i.wf = false := by decide

theorem test_wf_codes_memory : ∀ i ∈ ([.lds 1 1 1 0 7, .lda 1 1 1 0 7, .ldg 1 1 1 0 7, .sts 1 1 1 0 5, .sta 1 1 1 0 6, .stg 1 1 1 0 7, .atom 1 1 1 11 0,
    .satom 10 0 1 1 1, .ratom 10 0 1 2 1, .fence 1 0, .fence 3 1, .acq 1 1 3, .rel 1 1 3, .waitge 1 1 3 1 0, .waitge 1 1 0 3 0, .waitgec 1 1 2 1 0,
    .waitgec 1 1 0 3 0, .cntrd 1 4 1, .cwaitq 1 5, .clqry 1 1 4, .hmod 4 0 0, .hintKindNoop 3 0, .mma 10 0 0 1 0 0 0] : List Instr),
    i.codesOk = false ∧ i.wf = false := by decide

theorem test_wf_registers : ∀ i ∈ ([.lds 1 1 1 0 3, .sts 2 1 1 0 4, .lda 3 1 1 0 3, .sta 6 1 1 0 4, .ldg 1 1 1 0 3, .stg 2 1 1 0 4, .atom 1 1 1 9 0,
    .bind 1 3 1, .mchb 1 3 0 0 0, .cpost 4, .cwbr 1 9, .cinbox 4, .rldD 1 1 0 1 0, .rstD 1 1 0 1 0, .rldQ 2 1 0 1 0, .rstQ 2 1 0 1 0,
    .ratom 0 0 1 3 1, .rnotify 1 1 0 0] : List Instr), i.regsOk = false ∧ i.wf = false := by decide

theorem test_allocation_and_agent : (Instr.ldg 2 7 4 0 2).allocOk 8 = true ∧ (Instr.ldg 9 7 4 0 2).allocOk 8 = false
    ∧ (Instr.ldg 2 7 4 0 2).agentOk .carter = false ∧ (Instr.cinbox 0).agentOk .team = false ∧ (Instr.cinbox 0).agentOk .carter = true := by decide

/-! ### Scalar and vector members: results worked out by hand -/

theorem test_sadd_wraps : (after (.sadd 3 1 2) (s0 [(1, -1), (2, 1)])).rdS 3 = 0 := by decide
theorem test_sadd_to_s0_is_discarded : (after (.sadd 0 1 2) (s0 [(1, 5), (2, 1)])).rdS 0 = 0 := by decide
theorem test_smulh_signed : (after (.smulh 3 1 2) (s0 [(1, -1), (2, 2)])).rdS 3 = -1 := by decide
theorem test_smulhu : (after (.smulhu 3 1 2) (s0 [(1, -1), (2, 2)])).rdS 3 = 1 := by decide
theorem test_sdiv_truncates : (after (.sdiv 3 1 2) (s0 [(1, -7), (2, 2)])).rdS 3 = -3 := by decide
theorem test_srem_sign : (after (.srem 3 1 2) (s0 [(1, -7), (2, 2)])).rdS 3 = -1 := by decide
theorem test_ssra : (after (.ssra 3 1 2) (s0 [(1, -8), (2, 65)])).rdS 3 = -4 := by decide
theorem test_sclz_zero : (after (.sclz 3 1) (s0 [])).rdS 3 = 64 := by decide
theorem test_saddi_negative : (after (.saddi 3 1 0x3FFF) (s0 [(1, 5)])).rdS 3 = 4 := by decide
theorem test_slui : (after (.slui 3 0x80000) (s0 [])).rdS 3 = 0xFFFFFFFF80000000 := by decide
theorem test_scmpi_unsigned : (after (.scmpi 2 4 1 0x3FFF) (s0 [(1, 100)])).cur.rdC 2 = true
    ∧ (after (.scmpi 2 2 1 0x3FFF) (s0 [(1, 100)])).cur.rdC 2 = false := by decide
theorem test_c0_reads_true : (after (.cnot 0 0) (s0 [])).cur.rdC 0 = true := by decide
theorem test_pc_moves_on : (after .nop (s0 [])).cur.sc.pc = 0x20004 := by decide
theorem test_himm_extends : (after (.saddi 3 0 1) (after (.himm 1) (s0 []))).rdS 3 = 0x4001 := by decide

theorem witness_division_corners : (s0 [(1, 9)]).rdS 2 = 0
    ∧ (s0 [(1, BitVec.ofInt 64 (-2 ^ 63)), (2, -1)]).rdS 1 = BitVec.ofInt 64 (-2 ^ 63) ∧ (s0 [(1, BitVec.ofInt 64 (-2 ^ 63)), (2, -1)]).rdS 2 = -1 := by decide
theorem test_division_corners : (after (.sdiv 3 1 2) (s0 [(1, 9)])).rdS 3 = -1 ∧ (after (.srem 3 1 2) (s0 [(1, 9)])).rdS 3 = 9
    ∧ (after (.sdiv 3 1 2) (s0 [(1, BitVec.ofInt 64 (-2 ^ 63)), (2, -1)])).rdS 3 = BitVec.ofInt 64 (-2 ^ 63) := by decide
theorem witness_condition_codes : (5 : BitVec 3).toNat ≤ 5 ∧ (0 : BitVec 3).toNat ≤ 5 := by decide

/-- A team whose v1 holds l − 2 and v2 holds 3 in lane l. -/
def vt : Thread := lanes (lanes (agent .team) 1 (fun l => BitVec.ofNat 32 l - 2)) 2 (fun _ => 3)

theorem test_vadd : (after (.vadd 3 1 2 0) (world vt)).cur.rdV 3 0 = 1 ∧ (after (.vadd 3 1 2 0) (world vt)).cur.rdV 3 3 = 4 := by decide
theorem test_vadd_inactive_lane : (after (.vadd 3 1 2 1) (world vt)).cur.rdV 3 0 = 0 := by decide
theorem test_vmulh : (after (.vmulh 3 1 2 0) (world vt)).cur.rdV 3 0 = -1 ∧ (after (.vmulhu 3 1 2 0) (world vt)).cur.rdV 3 0 = 2 := by decide
theorem test_vavg_rounds_up : (after (.vavg 3 1 2 0) (world vt)).cur.rdV 3 0 = 1 := by decide
theorem test_vadds_saturates : (after (.vadds 3 1 1 0) (world (lanes vt 1 (fun _ => 0x7FFFFFFF)))).cur.rdV 3 0 = 0x7FFFFFFF := by decide
theorem test_vsel_takes_each : (after (.vsel 3 1 2 0) (world vt)).cur.rdV 3 0 = -2 ∧ (after (.vsel 3 1 2 1) (world vt)).cur.rdV 3 0 = 3 := by decide
theorem test_vdot4 : (after (.vdot4 4 1 2 0) (world (lanes vt 1 (fun _ => 0x010203FF)))).cur.rdV 4 0 = 0xFFFFFFFD := by decide
theorem test_vclt : (after (.vclt 1 1 0 0) (world vt)).cur.rdP 1 0 = true ∧ (after (.vclt 1 1 0 0) (world vt)).cur.rdP 1 2 = false := by decide
theorem test_vmovhi : (after (.vmovhi 2 0 0x1234) (world vt)).cur.rdV 2 0 = 0x12340003 := by decide

/-! ### Floats -/

/-- v1 holds 1.0, v2 holds 3.0, v3 a quiet NaN. -/
def ft : Thread := lanes (lanes (lanes (agent .team) 1 (fun _ => 0x3F800000)) 2 (fun _ => 0x40400000)) 3 (fun _ => 0x7FC00000)
/-- The same with every flag trapping. -/
def ftTrap : Thread := { ft with sc := { ft.sc with fpte := 0x1F } }

theorem test_fadd : (after (.fadd 4 1 2 0) (world ft)).cur.rdV 4 0 = 0x40800000 := by decide
theorem test_fdiv_inexact : (after (.fdiv 4 1 2 0) (world ft)).cur.rdV 4 0 = 0x3EAAAAAB := by decide
theorem test_fmul_inexact : (after (.fmul 4 4 4 0) (world (lanes ft 4 (fun _ => 0x3F800001)))).cur.rdFlags 0 = 1 := by decide
theorem test_fma : (after (.fma 4 2 2 1 0) (world ft)).cur.rdV 4 0 = 0x41200000 := by decide
theorem test_fclt_nan_raises : (after (.fclt 1 1 3 0) (world ft)).cur.rdP 1 0 = false ∧ (after (.fclt 1 1 3 0) (world ft)).cur.rdFlags 0 = 16 := by decide
theorem test_cvt_to_int : (after (.cvt 4 2 0 0 1) (world ft)).cur.rdV 4 0 = 3 := by decide

theorem witness_float_member_completes : trapping (world ft) 0 (fun _ => 1) = [] := by decide
theorem witness_float_member_traps : trapping (world ftTrap) 0 (fun _ => 1) = [0, 1, 2, 3] := by decide

/-! ### Lanes and depth counters -/

theorem test_shflu_wraps : (after (.shflu 3 1 4 0) (world (lanes vt 4 (fun _ => 1)))).cur.rdV 3 0 = 1 := by decide
theorem test_vbal : (after (.vbal 3 0 1) (after (.vclt 1 1 0 0) (world vt))).rdS 3 = 3 := by decide
theorem test_vcprs : (after (.vcprs 3 1 1) (after (.vcle 1 0 1 0) (world vt))).cur.rdV 3 1 = 1 := by decide
theorem test_vred_add : (after (.vred 3 1 1 0 0) (world vt)).rdS 3 = -2 := by decide
theorem test_vscanx : (after (.vscanx 3 2 0 0) (world vt)).cur.rdV 3 0 = 0 ∧ (after (.vscanx 3 2 0 0) (world vt)).cur.rdV 3 3 = 9 := by decide
theorem test_vif_enters : (after (.vif 1) (world vt)).cur.rdDc 0 = 1 := by decide
theorem test_endvl_branches : (after (.endvl 2) (world vt)).cur.sc.pc = 0x1FFF8 := by decide

/-- Every lane's depth counter at 255, or at 2. -/
def deep (n : BitVec 8) : Thread := { agent .team with ln := { (agent .team).ln with dc := [(0, n), (1, n), (2, n), (3, n)] } }

theorem witness_depth_rises : ∀ l < (world vt).cur.nlanes, ((world vt).cur.rdDc l).toNat + 2 ≤ 255 := by decide
theorem witness_depth_overflows : ∃ l < (world (deep 255)).cur.nlanes, 255 < ((world (deep 255)).cur.rdDc l).toNat + 1 := by decide
theorem witness_vbrk_overflows : ∃ l < (world vt).cur.nlanes, (world vt).cur.active 0 l = true ∧ 255 < 63 * 4 + 4 := by decide
theorem witness_endvl_goes_on : ∃ l < (world vt).cur.nlanes, ((world vt).cur.rdDc l).toNat ≤ 1 := by decide
theorem witness_endvl_leaves : ¬ ∃ l < (world (deep 2)).cur.nlanes, ((world (deep 2)).cur.rdDc l).toNat ≤ 1 := by decide
theorem witness_reduction : trapping (world vt) 0 (fun _ => (redFold (world vt) 0 (redSource (world vt) 0 1 0)).2) = [] := by decide

/-! ### Scalar and vector memory -/

/-- s1 holds an address that the tables map, s2 one that is misaligned. -/
def ms : State := s0 [(1, 0x30000), (2, 0x30001), (4, 0x1122334455667788), (6, 0x30000), (7, 128), (8, 1)]

theorem witness_scalar_load : ∃ s1 pa mt, ScalarOk ms 1 0 8 .read s1 pa mt ∧ s1.goesLate = false :=
  ⟨_, 0x30000, 0, ⟨Prod.ext rfl (by decide), by decide⟩, by decide⟩
theorem witness_scalar_store : ∃ s1 pa mt, ScalarOk ms 1 0 8 .write s1 pa mt ∧ s1.goesLate = false ∧ KeysHeld s1 :=
  ⟨_, 0x30000, 0, ⟨Prod.ext rfl (by decide), by decide⟩, by decide, by simp only [KeysHeld]; decide⟩
/-- The step performs its accesses late (R425). -/
def slow (s : State) : State := { s with ord := { s.ord with lag := true } }
theorem witness_scalar_late : (∃ s1 pa mt, ScalarOk (slow ms) 1 0 8 .read s1 pa mt ∧ s1.goesLate = true)
    ∧ ∃ s1 pa mt, ScalarOk (slow ms) 1 0 8 .write s1 pa mt ∧ s1.goesLate = true :=
  ⟨⟨_, 0x30000, 0, ⟨Prod.ext rfl (by decide), by decide⟩, by decide⟩, _, 0x30000, 0, ⟨Prod.ext rfl (by decide), by decide⟩, by decide⟩
/-- Under no-allocate (R336) a store whose line the L1 does not hold goes to the L2 alone. -/
theorem test_noalloc_store : let t := after (.sstD 4 1 0) { ms with cur := { ms.cur with sc := { ms.cur.sc with hints := { himm := none, hmod := some 0x080, hsched := none } } } }
    t.l1 = [] ∧ t.physNat 0 0x30000 8 = 0x1122334455667788 := by decide
theorem witness_scalar_misaligned : scalarAddr ms 2 0 % 4 ≠ 0 ∧ scalarAddr ms 2 0 % 8 ≠ 0 := by decide
theorem test_store_then_load : (after (.sldW 5 1 4) (after (.sstD 4 1 0) ms)).rdS 5 = 0x11223344 := by decide

/-- A coach with a KiB of each store, of which the running team is one. -/
def coach0 : Coach :=
  { uid := 6, task := 5, isl := 0, ctx := 1, core := 0, idx := 0, hitch := 0, slots := [2], sp := (0, 1), ab := (0, 1), wb := (0, 1), cb := (0, 1),
    swapped := false, placedAt := 0, residentAt := 0, exits := 0, succ := [], prio := 1, former := [], rotOut := false, rotIn := false }

/-- A team of that coach; v5 holds 8 × l in lane l, and v8 and v9 hold l. -/
def cs : State :=
  { world (regs (lanes (lanes (lanes (agent .team) 5 (fun l => BitVec.ofNat 32 (8 * l))) 8 (fun l => BitVec.ofNat 32 l)) 9 (fun l => BitVec.ofNat 32 l))
      [(1, 0x30000), (2, 16), (3, 0x10001), (4, 8), (6, 4)]) with
    coaches := [coach0] }

theorem witness_store_access : StoreOk cs 1 (elemBytes 3) 5 0 0 ∧ StoreClean cs 1 (elemBytes 3) 5 0 0 := by
  refine ⟨fun l h => ?_, fun l h m hm => ?_⟩
  · have : l < 4 := by simp [Thread.active, Thread.nlanes] at h; exact h.1.1.1
    match l with
    | 0 => decide
    | 1 => decide
    | 2 => decide
    | 3 => decide
    | n + 4 => omega
  · exact absurd hm (by simp only [show (cs.island cs.cur.id.isl).marks = [] from rfl, List.not_mem_nil, not_false_eq_true])
theorem witness_store_access_at_once : StoreAtOnce cs 1 (elemBytes 3) 5 0 0 ∧ cs.ord.ahead = [] := by simp only [StoreAtOnce, StoreQuiet]; decide
theorem witness_store_access_late : (slow cs).cur.activeLanes 0 ≠ [] ∧ StoreOk (slow cs) 1 (elemBytes 3) 5 0 0 ∧ StoreClean (slow cs) 1 (elemBytes 3) 5 0 0
    ∧ StoreQuiet (slow cs) 1 (elemBytes 3) 5 0 0 ∧ (slow cs).goesLate = true :=
  ⟨by decide, witness_store_access.1, witness_store_access.2, by simp only [StoreQuiet]; decide, by decide⟩
theorem test_lds_and_lda : (after (.lds 12 5 0 0 1) { cs with stores := [(storeKey 0 0 1 8, 7), (storeKey 0 0 1 9, 1)] }).cur.rdV 12 1 = 0x107
    ∧ (after (.lda 12 5 0 0 5) { cs with stores := [(storeKey 0 0 2 24, 0x80)] }).cur.rdV 12 3 = 0xFFFFFF80 := by decide

/-- The lines of the addresses that the lanes name are in the L1. -/
def csHeld : State :=
  { cs with
    l1 := [{ isl := 0, core := 0, line := 0x600, ctx := 1, vas := [0x600], data := 0x0102030405060708, dirty := 0, marked := 0, team := 8, stream := false, last := false }] }

theorem witness_global_lanes : ∃ s1 ps, LanesOk csHeld 5 1 0 4 .read s1 ps ∧ s1.goesLate = false ∧ s1.ord.ahead = [] ∧ LinesHeld s1 ps :=
  ⟨_, [(0, .ok 0x30000 0), (1, .ok 0x30008 0), (2, .ok 0x30010 0), (3, .ok 0x30018 0)], ⟨Prod.ext rfl (by decide), by simp [mtHub], by decide⟩,
    by decide, by decide, by simp only [LinesHeld]; decide⟩
theorem witness_global_store : ∃ s1 ps, LanesOk csHeld 5 1 0 4 .write s1 ps ∧ s1.goesLate = false ∧ LinesHeld s1 ps :=
  ⟨_, [(0, .ok 0x30000 0), (1, .ok 0x30008 0), (2, .ok 0x30010 0), (3, .ok 0x30018 0)], ⟨Prod.ext rfl (by decide), by simp [mtHub], by decide⟩,
    by decide, by simp only [LinesHeld]; decide⟩
theorem witness_global_late : (∃ s1 ps, LanesOk (slow csHeld) 5 1 0 4 .read s1 ps ∧ ps ≠ [] ∧ s1.goesLate = true)
    ∧ ∃ s1 ps, LanesOk (slow csHeld) 5 1 0 4 .write s1 ps ∧ ps ≠ [] ∧ s1.goesLate = true :=
  ⟨⟨_, [(0, .ok 0x30000 0), (1, .ok 0x30008 0), (2, .ok 0x30010 0), (3, .ok 0x30018 0)], ⟨Prod.ext rfl (by decide), by simp [mtHub], by decide⟩,
    by decide, by decide⟩, _, [(0, .ok 0x30000 0), (1, .ok 0x30008 0), (2, .ok 0x30010 0), (3, .ok 0x30018 0)],
    ⟨Prod.ext rfl (by decide), by simp [mtHub], by decide⟩, by decide, by decide⟩
/-- An access begun late: a load of 8 bytes to s9, a store of them, or a load or store of one lane's 4 bytes of SP. -/
def late0 (load : Bool) (space : Nat) : LateAcc :=
  { op := 40, agent := 8, isl := 0, core := 0, ctx := 1, space := space, load := load, scalar := space = 0, elem := 2, dst := 9,
    elems := if space = 0 then [(0, 0x30000, 0x30000, 0, [1, 2, 3, 4, 5, 6, 7, 8])] else [(0, 0, 16, 0, [1, 2, 3, 4])] }
def lateS (load : Bool) (space : Nat) : State :=
  on { csHeld with
    stores := [(storeKey 0 0 1 16, 7)]
    ord := { csHeld.ord with late := [late0 load space] }
    cur := { cs.cur with fl := cs.cur.fl.begin_ 40 (if load then .ld else .st) 1 } } (.accessComplete 40)
theorem witness_late : ∀ load ∈ [true, false], ∀ space ∈ [0, 1], (lateS load space).ord.late.find? (fun a => a.op = 40) = some (late0 load space)
    ∧ (lateS load space).ev = .accessComplete 40 ∧ (lateS load space).cur.holds 40 = true ∧ (late0 load space).load = load
    ∧ (late0 load space).scalar = decide (space = 0) ∧ (late0 load space).space = space := by decide
theorem witness_late_places : 9 < 64 ∧ 0x30000 % 128 + 8 ≤ 128 ∧ (late0 true 1).elem.toNat ≤ 6 ∧ (late0 true 1).dst + elemRegs (late0 true 1).elem ≤ 128
    ∧ ((late0 true 1).elems.map (fun e => e.1)).Nodup ∧ cs.cur.id.width ≤ 64 ∧ 4 * cs.cur.id.hitch ≤ 0 ∧ 0 < 4 * cs.cur.id.hitch + cs.cur.id.width
    ∧ polSkips 0 = false := by decide
theorem test_late_loads : (after .accessComplete (lateS true 0)).rdS 9 = 0x0102030405060708 ∧ (after .accessComplete (lateS true 1)).cur.rdV 9 0 = 7 := by decide
theorem test_late_stores : seenByte (after .accessComplete (lateS false 0)) 0 0 0x30007 = 8
    ∧ (after .accessComplete (lateS false 1)).storeGet 0 0 1 19 = 4 := by decide
theorem test_ldg : (after (.ldg 12 5 1 0 2) csHeld).cur.rdV 12 0 = 0x05060708 := by decide

/-! ### Atomics and ordering -/

theorem witness_atomic : ∃ s1 ps, cs.cur.atomScope ≠ 3 ∧ cs.cur.accessesDone = true ∧ cs.cur.activeLanes 0 ≠ []
    ∧ probeLanes (fun s l => probeAtom s (laneAddr s 5 1 l) 4) cs (cs.cur.activeLanes 0) = (s1, ps)
    ∧ (∀ q ∈ ps, ∃ pa mt, q.2 = .ok pa mt) ∧ atomAhead s1 s1.cur.mIsl (ps.map (fun q => q.2.pa / 128)) = false :=
  ⟨_, [(0, .ok 0x30000 0), (1, .ok 0x30008 0), (2, .ok 0x30010 0), (3, .ok 0x30018 0)], by decide, by decide, by decide, Prod.ext rfl (by decide),
    by simp, by decide⟩
theorem witness_atomic_no_lane : (world (deep 1)).cur.activeLanes 0 = [] := by decide
theorem witness_scalar_atomic : ∃ s1 pa mt, probeAtom ms (ms.rdS 1).toNat 8 = (s1, .ok pa mt) ∧ mt ≠ mtHub
    ∧ atomAhead s1 ms.cur.mIsl [pa / 128] = false := ⟨_, 0x30000, 0, Prod.ext rfl (by decide), by decide, by decide⟩

/-- A pending atomic addition of 5 to the word at 0x30000. -/
def atom0 : AtomReq :=
  { op := 40, lane := 0, agent := 8, isl := 0, core := 0, ctx := 1, key := 0x30000, va := 0x30000, wide := true, aop := 0, val := 5, cmp := 0,
    dst := 9, acq := false, scope := 2, regs := [] }
def as_ : State := on { ms with atoms := [atom0], cur := { ms.cur with fl := ms.cur.fl.begin_ 40 .ld 1 } } (.atomicPerform 40 0)

theorem witness_atomic_performs : as_.ev = .atomicPerform 40 0 ∧ as_.atoms.find? (fun a => a.op = 40 && a.lane = 0) = some atom0 ∧ atom0.acq = false
    ∧ KeysHeld as_ ∧ atom0.key % 2 ^ 48 + 8 ≤ 2 ^ 48 ∧ as_.cur.holds 40 = true := by simp only [KeysHeld]; decide
/-- An acquiring one at scope .i, the last of its operation, with the word's region bound (R99, R280). -/
def atomAcq : AtomReq := { atom0 with acq := true, scope := scopeI, regs := [(0x30000, 128)] }
theorem witness_atomic_acquires : let s := { as_ with atoms := [atomAcq] }
    s.atoms.find? (fun a => a.op = 40 && a.lane = 0) = some atomAcq ∧ atomAcq.acq = true ∧ atomAcq.scope = scopeI ∧ atomAcq.isl = atomAcq.key / 2 ^ 48
    ∧ ∀ q ∈ (after .atomicPerform s).atoms, q.op ≠ 40 := by decide
theorem test_atomic_acquires : (after .atomicPerform { as_ with atoms := [atomAcq], l1 := csHeld.l1 }).l1.filter (fun l => inRegions atomAcq.regs l) = [] := by decide
theorem test_atomic_adds : (after .atomicPerform as_).physNat 0 0x30000 8 = 5 := by decide

def acc0 : State := on { ms with cur := { ms.cur with fl := ms.cur.fl.begin_ 40 .st 1 } } (.accessComplete 40)
theorem witness_access_completes : acc0.ev = .accessComplete 40 ∧ acc0.atoms.all (fun a => a.op ≠ 40) = true
    ∧ acc0.ord.late.all (fun a => a.op ≠ 40) = true ∧ wakeOwed acc0 40 = false
    ∧ acc0.cur.fl.ops.find? (fun o => o.id = 40) = some { id := 40, cls := .st, left := 1 } := by decide
theorem test_access_completes : (after .accessComplete acc0).cur.fl.st = 0 := by decide
theorem witness_write_arrives : (on ms (.writeArrival 0 0 0 0x30000 [1, 2] 1 0x30000)).ev = .writeArrival 0 0 0 0x30000 [1, 2] 1 0x30000 ∧ KeysHeld ms := by
  simp only [KeysHeld]; decide
theorem test_write_arrives : (after .writeArrival (on ms (.writeArrival 0 0 0 0x30000 [1, 2] 1 0x30000))).physNat 0 0x30000 2 = 0x201 := by decide

theorem witness_ordering : ms.cur.accessesDone = true ∧ KeysHeld ms
    ∧ (∃ s1 pa mt, probeUnit ms (ms.rdS 1).toNat 8 = (s1, .ok pa mt))
    ∧ ∃ s1 pa mt, probeGlobal ms (ms.rdS 1).toNat 8 .write = (s1, .ok pa mt) ∧ pa + 8 ≤ 2 ^ 48 ∧ KeysHeld s1 :=
  ⟨by decide, by simp only [KeysHeld]; decide, ⟨_, 0x30000, 0, Prod.ext rfl (by decide)⟩,
    ⟨_, 0x30000, 0, Prod.ext rfl (by decide), by decide, by simp only [KeysHeld]; decide⟩⟩
/-- The line of 0x30000 is dirty in the L1, and its region is bound to the object 0x30100. -/
def dirtyS : State :=
  { ms with
    l1 := csHeld.l1.map (fun l => { l with dirty := 0xFF })
    bindings := [{ isl := 0, ctx := 1, idx := 0, base := 0x30000, len := 128, obj := 0x30100 }]
    cur := ms.cur.wrS 9 0x30100 }
theorem witness_bound : boundRegions dirtyS 0 1 (dirtyS.rdS 9).toNat = [(0x30000, 128)]
    ∧ ∃ l ∈ dirtyS.l1, ownLine 0 0 1 l = true ∧ inRegions [(0x30000, 128)] l = true ∧ l.dirty.getLsbD 7 = true := by decide
theorem test_fence_reaches_the_l2 : (after (.fence 2 2) dirtyS).physNat 0 0x30000 8 = 0x0102030405060708 ∧ (after (.fence 2 1) dirtyS).l1 = []
    ∧ (after (.fence 2 1) dirtyS).physNat 0 0x30000 8 = 0x0102030405060708 := by decide
theorem test_bound_lines : (after (.rel 4 9 2) dirtyS).physNat 0 0x30000 8 = 0x0102030405060708 ∧ (after (.acq 5 9 2) dirtyS).l1 = [] := by decide
theorem test_cwb_and_cinv : (after (.cwbWriteback 1 7) dirtyS).physNat 0 0x30000 8 = 0x0102030405060708 ∧ (after (.cinv 1 7) dirtyS).l1 = [] := by decide
theorem test_rel_then_acq : (after (.acq 5 1 2) (after (.rel 4 1 2) ms)).rdS 5 = 0x1122334455667788 := by decide

theorem witness_bind : (ms.rdS 6).toNat % 128 = 0 ∧ (ms.cur.rdS 7).toNat % 128 = 0 ∧ 128 ≤ (ms.cur.rdS 7).toNat ∧ (ms.rdS 4).toNat % 8 = 0
    ∧ (∀ e ∈ ms.bindings, ¬ (e.isl = 0 ∧ e.ctx = 1 ∧ e.idx = 0)) ∧ (ms.rdS 2).toNat % 128 ≠ 0 := by decide
theorem witness_bind_full : ∀ i < 1024, ∃ e ∈ ({ ms with bindings := (List.range 1024).map (fun i =>
    ({ isl := 0, ctx := 1, idx := i, base := 0, len := 128, obj := 0 } : Binding)) } : State).bindings, e.isl = 0 ∧ e.ctx = 1 ∧ e.idx = i :=
  fun i h => ⟨{ isl := 0, ctx := 1, idx := i, base := 0, len := 128, obj := 0 }, by simpa using h, rfl, rfl, rfl⟩
theorem test_bind_takes_the_lowest : (after (.bind 9 6 4) ms).rdS 9 = 0 ∧ (after (.bind 9 6 1) (after (.bind 9 6 4) ms)).rdS 9 = 1 := by decide
/-! ### Waits, the Carter's inbox, launches, counters and heat -/

/-- An operation of each class is outstanding. -/
def busy : Thread := { agent .team with fl := { (agent .team).fl with ld := 3, st := 1, cp := 1, tl := 1, rm := 1 } }

theorem witness_wait : (world busy).cur.an.deferred = [] ∧ (world busy).cur.fl.ld ≤ (3 : BitVec 4).toNat ∧ ¬ (world busy).cur.fl.ld ≤ (2 : BitVec 4).toNat := by decide
theorem test_wait : (after (.wait 3 15 1 1 1) (world busy)).cur.sc.pc = 0x20004 ∧ (after (.wait 2 15 15 15 15) (world busy)).cur.sc.pc = 0x20000 := by decide

def msg0 : Msg := { words := [1, 2, 3, 4, 5, 6, 7, 8], tag := 0, poster := 0, op := 0, coach := 6, launch := 4, task := 5, prio := 1, scope := 2, regs := [] }
/-- The Carter of core 0 with n messages in its inbox and m pending. -/
def carterSt (n m : Nat) : CarterSt :=
  { isl := 0, core := 0, inbox := List.replicate n msg0, pending := List.replicate m msg0, last := none, lastTeam := none, faultWb := none, heldFaults := [], named := none }

theorem witness_cpost : (s0 []).carter 0 0 |>.inbox.length |> (· < 64) := by decide
theorem witness_cpost_full : 64 ≤ (({ s0 [] with carters := [carterSt 64 0] } : State).carter 0 0).inbox.length := by decide
theorem test_cpost : ((after (.cpost 8) (s0 [(9, 7)])).carter 0 0).inbox.map (fun m => m.words) = [[0, 7, 0, 0, 0, 0, 0, 0]] := by decide

theorem witness_waitge_word : ∃ s1 pa mt, probeUnit ms (ms.rdS 1).toNat 8 = (s1, .ok pa mt) ∧ atomAhead s1 s1.cur.mIsl [pa / 128] = false :=
  ⟨_, 0x30000, 0, Prod.ext rfl (by decide), by decide⟩
theorem witness_wait_acquires : ms.cur.accessesDone = true ∧ (world busy).cur.accessesDone = false
    ∧ (∀ g ∈ boundRegions dirtyS dirtyS.cur.mIsl dirtyS.cur.id.ctx (dirtyS.rdS 9).toNat, g.1 + g.2 ≤ 2 ^ 64) := by decide
/-- WAITGE that acquires the object at .i takes the bound line away; relaxed, it stays (R99, R290). -/
theorem test_wait_acquires : (after (.waitge 9 0 0 2 1) dirtyS).l1 = [] ∧ (after (.waitge 9 0 0 2 0) dirtyS).l1.length = 1 := by decide
theorem witness_waitge_timeline : timelineOk (ms.rdS 8).toNat = true ∧ (ms.rdS 8).toNat ≠ 4
    ∧ timelinePa ms ms.cur.id.isl ms.cur.id.ctx (timelineUnit ms.cur (ms.rdS 8).toNat) (ms.rdS 8).toNat = some 0x50008
    ∧ atomAhead ms ms.cur.mIsl [0x50008 / 128] = false ∧ unitBad ms ms.cur.mIsl ms.cur.id.core 0x50008 = false := by decide
def counter0 (fired : Bool) : Counter :=
  { isl := 0, core := 0, idx := 1, ctx := 1, owner := none, launch := 4, armed := true, fired := fired, counting := true, count := 3, overrun := 0, total := 9,
    store := 1, regs := [(0, 64)], action := 0, scope := 2, arg := 0, val := 0 }
theorem witness_waitge_counter : counterWordOk (ms.rdS 8) ∧ (counterNamed { ms with counters := [counter0 true] } (ms.rdS 8)).fired = true
    ∧ (counterNamed { ms with counters := [counter0 false] } (ms.rdS 8)).fired = false ∧ ¬ counterWordOk (ms.rdS 7) := by simp only [counterWordOk]; decide
theorem test_waitge_parks : (after (.waitge 1 4 0 2 0) ms).cur.sch.life = .parked ∧ (after (.waitge 1 0 0 2 0) ms).cur.sch.life = .active := by decide

theorem witness_launch : (ms.rdS 1).toNat % 64 = 0 ∧ ms.cur.accessesDone = true ∧ (launchEnts ms 0 0).length < 4 ∧ (ms.rdS 2).toNat % 64 ≠ 0 := by decide
def ent0 : LaunchEnt := { isl := 0, core := 0, ctx := 1, addr := 0x30000, team := (agent .team).id, subt := 0, xpc := 0, insn := 0 }
theorem witness_launch_full : 4 ≤ (launchEnts { ms with launchQ := List.replicate 4 ent0 } 0 0).length := by decide
theorem test_launchnb : (after (.launchnb 5 1) ms).rdS 5 = 0 ∧ (after (.launchnb 5 1) { ms with launchQ := List.replicate 4 ent0 }).rdS 5 = 1 := by decide

theorem witness_armcnt : ms.cur.accessesDone = true ∧ ∃ s1 pa mt, probeGlobal ms (ms.rdS 1).toNat 64 .read = (s1, .ok pa mt) :=
  ⟨by decide, _, 0x30000, 0, Prod.ext rfl (by decide)⟩
theorem test_cntrd : (after (.cntrd 5 0 8) { ms with counters := [counter0 true] }).rdS 5 = 3 ∧ (after (.disarm 5 8) { ms with counters := [counter0 true] }).rdS 5 = 0 := by decide

theorem witness_heat : ms.cur.an.heatWait = none ∧ (ms.rdS 0).toNat = 0 ∧ (ms.rdS 8).toNat ≠ 0 ∧ ms.cur.an.heat + (ms.rdS 8).toNat ≤ 255
    ∧ (ms.rdS 8).toNat ≤ (ms.island 0).budget ∧ 255 < ms.cur.an.heat + (ms.rdS 1).toNat := by decide
def granted : State := { ms with cur := { ms.cur with an := { ms.cur.an with heat := 1, heatWait := some (1, 1) } } }
theorem witness_heat_granted : granted.cur.an.heatWait = some (1, 0 + 1) := by decide
theorem test_heat_after_grant : (after (.heat 5 8) granted).rdS 5 = 1 := by decide

/-! ### Ending, yielding, leases, splitting, fusing, barriers -/

theorem witness_exit : ms.cur.an.chain = none ∧ ms.cur.an.deferred = [] ∧ ms.cur.fl.quiet = true ∧ (world busy).cur.fl.quiet = false := by decide
def rec0 : TaskRec :=
  { code := 0x20000, frame := 0x5000, join := 0, arg := 7, wcode := 0, vregs := 8, nteams := 1, coachSz := 1, prio := 1, qnum := 0, spk := 1, abk := 1, wbk := 1,
    cbk := 1, lease := 0, lm := false, taskId := 3, valid := true }
def withMate (s : State) : State := { s with others := [mate], coaches := [coach0] }
theorem witness_exit_lives : ∃ u ∈ (withMate ms).others, u.live = true ∧ u.id.coach = (withMate ms).cur.id.coach := by decide
theorem witness_exit_coach : (withMate ms).coach? (withMate ms).cur.id.coach = some coach0 := by decide
theorem witness_exit_s : ({ ms.cur with sch := { ms.cur.sch with exitRec := some (0x30000, rec0) } } : Thread).sch.exitRec = some (0x30000, rec0) := by decide
theorem witness_chain_open : ({ ms.cur with an := { ms.cur.an with chain := some 3 } } : Thread).an.chain ≠ none := by decide
theorem test_exit_ends_the_stream : (after .exit (withMate ms)).cur.sch.life = .ended ∧ ((after .exit (withMate ms)).coach? 6).map (fun c => c.exits) = some 1 := by decide
theorem witness_yieldc : (ms.rdS 2).toNat % 4 ≠ 0 ∧ (ms.rdS 1).toNat % 4 = 0 ∧ (1 : BitVec 6) ≠ 4
    ∧ timelinePa ms ms.cur.id.isl ms.cur.id.ctx (timelineUnit ms.cur 1) 1 = some 0x50008 := by decide
/-- EXIT.S with an open chain and a misaligned record: CHAIN_STATE comes first (R180, R235). -/
theorem witness_exit_s_chain : let s : State := { ms with cur := { ms.cur with an := { ms.cur.an with chain := some 3 } } }
    (∃ s1 x v, probeGlobal s (s.rdS 2).toNat 64 .read = (s1, .bad x v)) ∧ s.cur.an.chain ≠ none ∧ s.cur.sch.exitRec = none :=
  ⟨⟨_, causeMisalign, 0x30001, Prod.ext rfl (by decide)⟩, by decide, by decide⟩
theorem test_exit_s_chain : (after (.exitS 2) { ms with cur := { ms.cur with an := { ms.cur.an with chain := some 3 } } }).cur.tr.cause
    = (after .exit { ms with cur := { ms.cur with an := { ms.cur.an with chain := some 3 } } }).cur.tr.cause := by decide
theorem test_lease_is_capped : (after (.lease 1) ms).cur.sch.lease = 224 := by decide

/-- A team of 8 lanes. -/
def wide : Thread := { lanes (agent .team) 1 (fun l => BitVec.ofNat 32 l) with id := { (agent .team).id with width := 8, launchWidth := 8 } }
theorem witness_split : (0 : BitVec 6).toNat ≤ 3 ∧ 4 * 2 ^ 0 < wide.id.width ∧ (∀ l < wide.nlanes, wide.rdDc l = 0) ∧ wide.sc.loops = [] ∧ wide.sc.pc1 = none
    ∧ wide.an.chain = none ∧ ¬ 4 * 2 ^ 0 < (agent .team).id.width := by decide
theorem test_split : (after (.split 0) (world wide)).cur.id.width = 4 ∧ (after (.split 0) (world wide)).others.map (fun t => t.id.launchPos) = [4] := by decide

/-- The running half of a split team, and its buddy half waiting at the same FUSE. -/
def half : Thread := { agent .team with id := { (agent .team).id with launchWidth := 8 } }
def buddy : Thread :=
  { half with
    id := { half.id with uid := 9, launchPos := 4, hitch := 1 }
    sch := { half.sch with life := .parked, park := .fuse 1 0 100 0 } }
def fu : State := { world half with others := [buddy], coaches := [coach0] }
theorem witness_fuse : fu.cur.an.chain = none ∧ fu.cur.fl.quiet = true ∧ 4 * 2 ^ (1 : BitVec 6).toNat = 2 * fu.cur.id.width
    ∧ halfLive fu fu.cur.id.coach (buddyHitch fu.cur) (fu.cur.id.width / 4) = true
    ∧ fu.others.find? (fun b => b.live && b.id.coach = fu.cur.id.coach && b.id.hitch = buddyHitch fu.cur && b.id.width = fu.cur.id.width
        && b.sch.life = .parked) = some buddy
    ∧ buddy.sch.park = .fuse 1 0 100 0 ∧ buddy.id.uid ≠ fu.cur.id.uid ∧ fu.cur.id.hitch < buddy.id.hitch ∧ fuseCode fu.cur buddy = 0
    ∧ halfLive (world half) 6 (buddyHitch half) 1 = false ∧ 4 * 2 ^ (2 : BitVec 6).toNat ≠ 2 * fu.cur.id.width := by decide
/-- A buddy at another FUSE, with a depth counter, with a loop or with groups of its own: the codes 3 to 6; one whose period has ended, and none. -/
def buddies : List Thread :=
  [{ buddy with sc := { buddy.sc with pc := 0x20040 } }, { buddy with ln := { buddy.ln with dc := [(0, 1)] } },
   { buddy with sc := { buddy.sc with loops := [{ lc := 0, count := 1, len := 2, last := 0x30000 }] } }, { buddy with id := { buddy.id with groups := [some 2, none, none, none] } }]
theorem test_fuse_codes : buddies.map (fun b => (after (.fuse 5 1 0) { fu with others := [b] }).rdS 5) = [3, 4, 5, 6]
    ∧ buddies.map (fun b => (after (.fuse 5 1 0) { fu with others := [b] }).others.map (fun u => (u.sch.life, u.id.width))) = List.replicate 4 [(.inactive, 4)] := by decide
/-- The upper half comes last. -/
def fuUpper : State :=
  { fu with
    cur := { half with id := { half.id with uid := 9, launchPos := 4, hitch := 1 } }
    others := [{ half with sch := buddy.sch }] }
theorem witness_fuse_upper : fuUpper.cur.an.chain = none ∧ fuUpper.cur.fl.quiet = true ∧ halfLive fuUpper 6 (buddyHitch fuUpper.cur) 1 = true
    ∧ fuUpper.others.find? (fun b => b.live && b.id.coach = fuUpper.cur.id.coach && b.id.hitch = buddyHitch fuUpper.cur && b.id.width = fuUpper.cur.id.width
        && b.sch.life = .parked) = some { half with sch := buddy.sch } ∧ half.id.hitch < fuUpper.cur.id.hitch ∧ half.id.uid ≠ fuUpper.cur.id.uid := by decide
theorem test_fuse_upper : (after (.fuse 5 1 0) fuUpper).cur.sch.life = .ended ∧ (after (.fuse 5 1 0) fuUpper).others.map (fun u => u.id.width) = [8] := by decide
theorem witness_fuse_parks : ({ fu with others := [{ buddy with sch := { buddy.sch with life := .inactive, park := .none } }] } : State).others.find? (fun b => b.live && b.id.coach = fu.cur.id.coach
      && b.id.hitch = buddyHitch fu.cur && b.id.width = fu.cur.id.width && b.sch.life = .parked) = none
    ∧ 100 < ({ fu with cycle := 101 } : State).cycle - 0 := by decide
theorem test_fuse_parks : (after (.fuse 5 1 0) { fu with cycle := 101 }).cur.sch.life = .parked := by decide
theorem test_fuse : (after (.fuse 5 1 0) fu).cur.id.width = 8 ∧ (after (.fuse 5 1 0) fu).rdS 5 = 0 ∧ (after (.fuse 5 2 0) fu).rdS 5 = 7 := by decide

/-- The team belongs to a group of two through slot 0. -/
def inGroup : Thread := { agent .team with id := { (agent .team).id with groups := [some 2, none, none, none] } }
def group0 : Group :=
  { isl := 0, ctx := 1, entry := 2, launch := 4, members := [(0, 0, 2)], ext := 0, phase := 3, arrived := [], settled := [], extCount := 0, regs := [] }
def gs : State := { world inGroup with groups := [group0] }
theorem witness_barrier : (slotEntry ms.cur 0).bind (fun e => ms.group? ms.cur.id.isl ms.cur.id.ctx e) = none ∧ slotEntry ms.cur 0 = none
    ∧ (slotEntry gs.cur 0).bind (fun e => gs.group? gs.cur.id.isl gs.cur.id.ctx e) = some group0 ∧ slotEntry gs.cur 0 = some 2
    ∧ hasArrived gs group0 gs.cur = false ∧ phasePassed group0.phase 2 = true ∧ phasePassed group0.phase 3 = false
    ∧ group0.syncs = false := by decide
/-- The team has arrived in its group's phase. -/
def arrivedS : State :=
  { gs with
    cur := { gs.cur with id := { gs.cur.id with covers := [0] } }
    groups := [{ group0 with arrived := [8] }]
    tasks := [{ uid := 5, isl := 0, ctx := 1, launch := 4, recIdx := some 0, record := rec0, stamp := 0, spot := none, placed := 1, skips := 0, exited := [],
                released := false, done := false }] }
theorem witness_barrier_order : gs.cur.accessesDone = true ∧ KeysHeld gs ∧ (world { inGroup with fl := busy.fl }).cur.accessesDone = false
    ∧ hasArrived arrivedS { group0 with arrived := [8] } arrivedS.cur = true
    ∧ (slotEntry arrivedS.cur 0).bind (fun e => arrivedS.group? arrivedS.cur.id.isl arrivedS.cur.id.ctx e) = some { group0 with arrived := [8] }
    ∧ (slotEntry gs.cur 0).bind (fun e => (releaseAll gs gs.cur.mIsl gs.cur.id.core gs.cur.id.ctx 2).group? gs.cur.id.isl gs.cur.id.ctx e) = some group0 := by
  simp only [KeysHeld]; decide
/-- A second arrival in one phase parks; an arrival at .i that releases has the dirty line's bytes at the L2 (R268, R282). -/
theorem test_barrier_order : (after (.garrive 5 0 1 0) arrivedS).cur.sch.park = .arrive 2 3
    ∧ (after (.garrive 5 0 2 2) { gs with l1 := dirtyS.l1 }).physNat 0 0x30000 8 = 0x0102030405060708
    ∧ (after (.gwait 1 0 2 1) { gs with l1 := dirtyS.l1, cur := gs.cur.wrS 1 2 }).l1 = [] := by decide
theorem test_garrive_alone : (after (.garrive 5 0 1 0) ms).rdS 5 = 0 ∧ soloPhase (after (.garrive 5 0 1 0) ms).cur 0 = 1 := by decide
theorem test_gwait_parks : (after (.gwait 0 0 1 0) { gs with cur := gs.cur.wrS 0 0 }).cur.sch.life = .active
    ∧ (after (.gwait 1 0 1 0) { gs with cur := gs.cur.wrS 1 3 }).cur.sch.life = .parked := by decide

/-! ### The Carter and its waybills -/

def carter : Thread := { agent .carter with id := { (agent .carter).id with coach := 0 } }
/-- A Carter with n messages in its inbox and m pending. -/
def cw (n m : Nat) : State := { world (regs carter [(1, 0x30000)]) with carters := [carterSt n m] }
theorem witness_cinbox : ((cw 1 0).carter 0 0).pending.length < 64 ∧ ((cw 1 0).carter 0 0).inbox = msg0 :: [] ∧ posterDone (cw 1 0) msg0 = true
    ∧ (8 : BitVec 6).toNat + 8 ≤ 64 ∧ ((cw 0 1).carter 0 0).inbox = [] ∧ ((cw 0 1).carter 0 0).pending = msg0 :: [] ∧ ((cw 0 0).carter 0 0).pending = []
    ∧ 64 ≤ ((cw 0 64).carter 0 0).pending.length ∧ timelinePa (cw 0 0) 0 1 0 (1 : BitVec 2).toNat ≠ none := by decide
theorem test_cinbox : (after (.cinbox 8) (cw 1 0)).rdS 10 = 3 ∧ ((after (.cinbox 8) (cw 1 0)).carter 0 0).pending.length = 1 := by decide

/-- A copy of 8 bytes from 0x30000 to 0x40000 of the island's memory, with TLINC. -/
def wbWords : List Word64 := [1, 0x30000, 0x40000, 0x0001000100000008, 0, 0, 0x100000000, 0]
/-- The same copy as memory holds it at 0x30000, and in registers 8 to 15. -/
def cwWb : State :=
  { world (regs carter ((1, 0x30000) :: wbWords.zipIdx.map (fun q => (q.2 + 8, q.1)))) with
    mem := setCells (setCells [] probeTables) (cellsFrom 0x30000 (wbWords.flatMap (fun w => leBytes 8 w.toNat))) }
theorem witness_cwbr : cwWb.cur.accessesDone = true ∧ Starts cwWb [0, 3, 4] ((List.range 8).map (fun i => cwWb.cur.rdS (8 + i)))
    ∧ wbOk (cw 0 0) [0, 3, 4] (parseWb ((List.range 8).map (fun i => (cw 0 0).cur.rdS (8 + i)))) = false := by simp only [Starts]; decide
theorem witness_cwb : ∃ s1 pa mt, probeGlobal cwWb (cwWb.rdS 1).toNat 64 .read = (s1, .ok pa mt)
    ∧ let r := gRead s1 s1.cur.mIsl s1.cur.id.core s1.cur.id.ctx (cwWb.rdS 1).toNat pa 64 (typePolicy (decide (mt = 1)))
      Starts r.1 [0, 3, 4] ((List.range 8).map (fun k => BitVec.ofNat 64 (leNat ((r.2.drop (8 * k)).take 8))))
      ∧ wbOk r.1 [1] (parseWb ((List.range 8).map (fun k => BitVec.ofNat 64 (leNat ((r.2.drop (8 * k)).take 8))))) = false :=
  ⟨_, 0x30000, 0, Prod.ext rfl (by decide), by simp only [Starts]; decide⟩
theorem test_cwbr : (after (.cwbr 5 8) cwWb).rdS 5 = 1 ∧ (after (.cwbr 5 8) cwWb).waybills.length = 1 := by decide

/-- That copy started, with its 7 first elements landed. -/
def wb0 : Waybill :=
  { uid := 20, seq := 20, isl := 0, core := 0, ctx := 1, raw := wbWords, coach := none, launch := 0, task := 0, tl := 0, opn := 1, needHeat := false,
    heatHeld := false, landed := [6, 5, 4, 3, 2, 1, 0], bytes := 7, sent := [], pushedTo := 0, fault := none, faultAddr := 0, faultSpace := 0, paused := false,
    xpc := 0, insn := 0, faultTime := 0, lines := [] }
def land : State :=
  on { ms with waybills := [wb0], mem := setCells (setCells [] probeTables) [(0x30007, 9)] } (.waybillElementLand 20 7)
theorem witness_element_lands : ∃ s1 s2 bs, land.ev = .waybillElementLand 20 7 ∧ land.waybill? 20 = some wb0 ∧ wb0.moves = true ∧ wbOut land wb0 = false
    ∧ (parseWb wb0.raw).kind = 0 ∧ (parseWb wb0.raw).srcsp ≠ 5 ∧ (parseWb wb0.raw).dstsp ≠ 5 ∧ 7 < (parseWb wb0.raw).count ∧ 7 ∉ wb0.landed ∧ 7 ∉ wb0.sent
    ∧ wbSource wb0 (parseWb wb0.raw) 7 land = (s1, none, bs)
    ∧ wbWrite wb0 (parseWb wb0.raw) s1 (dstAt (parseWb wb0.raw) 7) (wbConvert (parseWb wb0.raw) bs) = (s2, none) :=
  ⟨_, _, [9], by decide, by decide, by decide, by decide, by decide, by decide, by decide, by decide, by decide, by decide,
    Prod.ext rfl (by decide), Prod.ext rfl (by decide)⟩
theorem test_element_lands : (after .waybillElementLand land).physGet 0 0x40007 = 9 ∧ Event.waybillComplete 20 ∈ (after .waybillElementLand land).due := by decide
def wbFull : Waybill := { wb0 with landed := [7, 6, 5, 4, 3, 2, 1, 0] }
theorem witness_waybill_completes : (on { ms with waybills := [wbFull] } (.waybillComplete 20)).waybill? 20 = some wbFull
    ∧ wbDone { ms with waybills := [wbFull] } wbFull = true ∧ timelinePa { ms with waybills := [wbFull] } 0 1 0 0 ≠ none := by decide
theorem test_waybill_completes : (after .waybillComplete (on { ms with waybills := [wbFull] } (.waybillComplete 20))).waybills = [] := by decide

/-! ### The Anvil -/

theorem witness_accumulators : (∀ l, l < 4 → (cs.rdS 4).toNat + l < (cbRange cs).2) ∧ cs.cur.nlanes = 4
    ∧ (∀ l, l < 4 → slotBad cs 0 0 ((cbRange cs).1 + (cs.rdS 4).toNat + l) = false) := by decide
/-- A slot of lanes 2 and 3 lies outside the CB, in a context with a handler (R233). -/
def outside : State := { cs with cur := cs.cur.wrS 10 126, ctxs := [{ probeCtx with tba := 0x24000 }] }
theorem witness_slot_outside : outside.cur.active 0 2 = true ∧ (cbRange outside).2 ≤ (outside.rdS 10).toNat + 2
    ∧ ∀ l < 2, outside.cur.active 0 l = true → (outside.rdS 10).toNat + l < (cbRange outside).2 := by decide
theorem test_slot_outside : ((after (.mfacc 12 0 0 10 0) outside).cur.tr.xaddr, (after (.mfaccz 12 0 0 10 0) outside).cur.tr.xlanes) = (128, 12)
    ∧ (after (.mtacc 9 0 10 0) outside).cur.tr.xaddr = 128 := by decide
theorem test_mfaccz_clears : (after (.mfaccz 12 0 0 4 0) (after (.mtacc 9 0 4 0) cs)).cbSlot 0 0 11 = 0
    ∧ (after (.mfaccz 12 0 0 4 0) (after (.mtacc 9 0 4 0) cs)).cur.rdV 12 3 = 3 := by decide
theorem test_mtacc_then_mfacc : (after (.mfacc 12 0 0 4 0) (after (.mtacc 9 0 4 0) cs)).cur.rdV 12 3 = 3 := by decide

/-- The shape M = N = 8, K = 32, and slot 0 in s2. -/
def mchbS : State := { cs with cur := regs cs.cur [(1, 0x0000002000080008), (2, 0), (7, 1)] }
theorem witness_mchb : mchbS.cur.an.chain = none ∧ shapeOk (mchbS.maxM8 0 0) (mchbS.rdS 1).toNat false = true ∧ (mchbS.rdS 2).toNat + 8 * 8 ≤ (cbRange mchbS).2
    ∧ (mchbS.yard.filter (fun c => c.isl = 0 && c.core = 0)).length < 64 ∧ openChain mchbS = none := by decide
theorem witness_mma : ∃ c, openChain (after (.mchb 1 2 0 0 0) mchbS) = some c ∧ c.mmas = [] ∧ 0 < ((after (.mchb 1 2 0 0 0) mchbS).rdS 7).toNat
    ∧ ((after (.mchb 1 2 0 0 0) mchbS).rdS 7).toNat ≤ 2048 := ⟨_, rfl, by decide, by decide, by decide⟩
/-- The chain holds a record already, and the next may be scaled where the first is. -/
def mmaS (sc : BitVec 1) : State := after (.mma 0 9 0 7 0 sc 0) (after (.mchb 1 2 0 0 0) mchbS)
theorem witness_mma_later : ∃ c r, openChain (mmaS 1) = some c ∧ c.mmas = [r] ∧ r.fmt = 0 ∧ r.scaled = true ∧ c.m ≤ 4 * (mmaS 1).cur.id.width
    ∧ (0 : BitVec 2).toNat + ((mmaS 1).rdS 7).toNat ≤ 4 ∧ r.scales = [[0, 1, 2, 3, 0, 0, 0, 0]] := ⟨_, _, rfl, rfl, by decide, by decide, by decide, by decide, by decide⟩
theorem test_mma_unlike : ((after (.mma 0 9 0 7 0 0 0) (mmaS 1)).yard.map (fun c => c.mmas.length), (after (.mma 0 9 1 7 0 1 0) (mmaS 1)).yard.map (fun c => c.mmas.length))
    = ([], [2]) := by decide
/-- With a counter still to fire the closed chain waits; with none it asks for heat (R151). -/
theorem test_mche : (after (.mche 5) (after (.mchb 1 2 0 0 0) { mchbS with cur := mchbS.cur.wrS 3 0 })).yard.map (fun c => (c.st, c.num)) = [(.wantsHeat, 1)]
    ∧ (after (.mche 5) (after (.mchb 1 2 0 0 0) mchbS)).yard.map (fun c => (c.st, c.num)) = [(.waiting, 1)] := by decide
theorem witness_mche_waits : maskFired mchbS 0 0 1 = false ∧ maskFired mchbS 0 0 0 = true := by decide
theorem test_chain_opens_and_closes : (after (.mche 5) (after (.mma 0 0 0 7 0 0 0) (after (.mchb 1 2 0 0 0) mchbS))).rdS 5 = 1
    ∧ (after (.mche 5) (after (.mma 0 0 0 7 0 0 0) (after (.mchb 1 2 0 0 0) mchbS))).yard.map (fun c => c.mmas.length) = [1] := by decide
theorem witness_mzacc : (cs.rdS 4).toNat + (cs.rdS 6).toNat ≤ (cbRange cs).2 := by decide

/-- A granted INT8 chain of one row block, and the streams that it takes. -/
def mma0 : MmaRec := { count := 2, fmt := 0, scaled := false, ov := false, width := 4, active := 0xF, scales := [] }
def chain0 (st : ChainSt) : Chain :=
  { uid := 30, isl := 0, core := 0, ctx := 1, team := 8, coach := 6, m := 8, n := 8, k := 64, base := 0, mask := 0, any := false, group := none, nrow := 0, crow := 0,
    ccol := 0, prio := 1, mmas := [mma0], num := 1, mche := 5, order := 1, lead := 30, begun := false, st := st, applied := [], op := 50, status := 0, xpc := 0, insn := 0 }
def block0 : Block := { num := 0, elems := List.replicate 256 2, scales := [], bad := none }
def stream0 (uid : Nat) (isA : Bool) (chain : Option Nat) (bs : List Block) : Stream :=
  { wb := uid, isl := 0, core := 0, isA := isA, smn := 8, sk := 64, sfmt := 0, scl := false, chain := chain, blocks := bs, next := 0 }
def yardS (st : ChainSt) (chain : Option Nat) (bs : List Block) : State :=
  { cs with yard := [chain0 st], streams := [stream0 31 true chain bs, stream0 32 false chain bs] }
theorem witness_dispatch : let s := on (yardS .hasHeat none []) (.chainDispatch 0 0)
    let s1 := oweWakes (anvilTimeline s 0 0) (yardWaiters s 0 0)
    earliest ((candidates s1 0 0).filter (fun c => ((roundOf s1 c).map (fun r => roundTurn s1 0 r.1)).getD false)) = some (chain0 .hasHeat)
    ∧ (chain0 .hasHeat).begun = false ∧ (stream0 31 true none []).wb ≠ (stream0 32 false none []).wb ∧ anvilFree s1 0 0 = true ∧ chainClear s1 (chain0 .hasHeat) = true
    ∧ untaken s1 0 0 true = some (stream0 31 true none []) ∧ untaken s1 0 0 false = some (stream0 32 false none [])
    ∧ (chain0 .hasHeat).group = none ∧ (chain0 .hasHeat).crow = 0 ∧ (∀ x ∈ s1.streams, x.chain ≠ some 30) := by decide
theorem witness_headers : headersOk (chain0 .hasHeat) (stream0 31 true none []) (stream0 32 false none []) = true
    ∧ headersOk (chain0 .hasHeat) { stream0 31 true none [] with smn := 16 } (stream0 32 false none []) = false := by decide
theorem witness_kblock : let s := on (yardS .running (some 30) [block0]) (.kblockApply 0 0 0)
    s.yard.find? (fun c => c.isl = 0 && c.core = 0 && c.st = .running) = some (chain0 .running)
    ∧ chainAB s (chain0 .running) = some (stream0 31 true (some 30) [block0], stream0 32 false (some 30) [block0]) ∧ (chain0 .running).free = false
    ∧ (chain0 .running).applied.length = 0 ∧ stepStops (chain0 .running) (stream0 31 true (some 30) [block0]) (stream0 32 false (some 30) [block0]) = none
    ∧ stepHand (chain0 .running) (stream0 31 true (some 30) [block0]) (stream0 32 false (some 30) [block0]) = some 1
    ∧ (chain0 .running).applied.length + 1 ≠ (chain0 .running).k / 32 := by decide
theorem witness_kblock_clean : ∀ k, slotBad (on (yardS .running (some 30) [block0]) (.kblockApply 0 0 0)) 0 0 k = false := by
  intro k; simp [slotBad, show ((on (yardS .running (some 30) [block0]) (.kblockApply 0 0 0)).island 0).marks = [] from rfl]

/-- An A stream of INT8 rows at 0x30000. -/
def wbStream : Waybill := { wb0 with raw := [0x0000000700010001, 0x30000, 0, 0, 64, 0, 0, 0x0000000800000040] }
def pushS : State := on { yardS .running (some 30) [] with streams := [stream0 20 true (some 30) []], waybills := [wbStream] } (.streamBlockPush 20)
theorem witness_stream_push : ∃ s1 s2 sc es, pushS.waybill? 20 = some wbStream ∧ pushS.stream? 20 = some (stream0 20 true (some 30) [])
    ∧ wbStream.moves = true ∧ wbOut pushS wbStream = false ∧ (0 : Nat) < 64 / 32
    ∧ (∃ c ∈ streamUsers pushS (stream0 20 true (some 30) []), c.done ≤ 0)
    ∧ readScales wbStream (parseWb wbStream.raw) 0 pushS = (s1, none, sc)
    ∧ readRows wbStream (parseWb wbStream.raw) 0 (parseWb wbStream.raw).smn 0 s1 = (s2, none, es) :=
  ⟨_, _, [], _, by decide, by decide, by decide, by decide, by decide, by decide, Prod.ext rfl (by decide), Prod.ext rfl (Prod.ext (by decide) rfl)⟩


theorem witness_kblock_last : ({ chain0 .running with applied := [1] } : Chain).applied.length + 1 = 64 / 32 ∧ (chain0 .running).k = 64 := by decide
/-! ### Control, remote members, collectives -/

theorem witness_branch : ms.cur.rdC 0 = true ∧ ms.cur.rdC 1 = false ∧ (ms.rdS 1).toNat % 4 = 0 ∧ (ms.rdS 2).toNat % 4 ≠ 0
    ∧ ((s0 [(62, 0x20010)]).rdS 62).toNat % 4 = 0 ∧ ((s0 [(62, 2)]).rdS 62).toNat % 4 ≠ 0 := by decide
theorem test_br_backwards : (after (.br 0 0 0x3FFFFF) ms).cur.sc.pc = 0x1FFFC ∧ (after (.br 0 1 4) ms).cur.sc.pc = 0x20004 := by decide
theorem test_call_links : (after (.call 4) ms).cur.sc.pc = 0x20010 ∧ (after (.call 4) ms).rdS 62 = 0x20004 := by decide
def loopAt (count : BitVec 32) : Loop := { lc := 0, count := count, len := 2, last := 0x20000 }
def looping (ls : List Loop) : State := world { agent .team with sc := { (agent .team).sc with loops := ls } }
theorem witness_loops : (∀ k < 0, ∃ x ∈ ms.cur.sc.loops, x.lc = k) ∧ (∀ x ∈ ms.cur.sc.loops, x.lc ≠ 0) ∧ (∀ x ∈ ms.cur.sc.loops, x.last ≠ ms.cur.sc.pc)
    ∧ (∀ k < 3, ∃ x ∈ (looping [loopAt 1, { loopAt 1 with lc := 1 }, { loopAt 1 with lc := 2 }]).cur.sc.loops, x.lc = k)
    ∧ (loopAt 2).last = (looping [loopAt 2]).cur.sc.pc ∧ 1 < (loopAt 2).count.toNat ∧ (loopAt 1).count.toNat ≤ 1 := by decide
theorem test_loop_repeats : (after .nop (looping [loopAt 2])).cur.sc.pc = 0x1FFFC ∧ (after .nop (looping [loopAt 1])).cur.sc.pc = 0x20004 := by decide
theorem test_loophi_of_zero_skips : (after (.loophi 0 2) ms).cur.sc.pc = 0x20010 := by decide

/-- v4 holds offsets and v5 the island word 0 of panel 0 in each lane; s4 and s5 the pair of a remote word. -/
def rs : State := world (regs (lanes (agent .team) 4 (fun l => BitVec.ofNat 32 (16 * l))) [(1, 0x30000), (4, 0x30000), (5, 0), (6, 0x30004), (7, 0)])
theorem witness_remote_lanes : rs.cur.activeLanes 0 = [0, 1, 2, 3] ∧ remoteGate rs = true
    ∧ (∀ l ∈ rs.cur.activeLanes 0, islandWordOk rs rs.cur.mIsl rs.cur.id.ctx (rs.cur.rdV 5 l).toNat = true ∧ laneAddr rs (pairReg 2) 1 l % 16 = 0
        ∧ laneAddr rs (pairReg 2) 1 l + 16 ≤ 2 ^ 64) ∧ rs.cur.id.ctx ≠ 0 ∧ (world (deep 1)).cur.activeLanes 0 = [] := by decide
theorem witness_remote_lane_fails : pickCause ((rs.cur.activeLanes 0).map (fun l => (l, probeRemote rs 1 (laneAddr rs (pairReg 2) 1 l) 4)))
    = some (causeAbsent, 0x30000, 15) := by decide
/-- A frame of the running team for the word at 0x30000 of island 0, of a kind, in a phase. -/
def frame0 (kind phase : Nat) : Machine.Frame :=
  { uid := 60, seq := 60, isl := 0, core := 0, ctx := 1, agent := 8, op := 40, lane := 0, dst := 9, panel := 0, tgt := 0, va := 0x30000, kind := kind, size := 8,
    aop := 0, redop := 0, data := [1, 2, 3, 4, 5, 6, 7, 8], cmp := 0, ord := false, rel := false, acq := false, wb := none, elem := 0, parts := [], die := 0, phase := phase,
    sentOn := some 3, relay := false, admitted := false, home := 0, retried := 0, sentAt := 0, launch := 4, xpc := 0, insn := 0 }
/-- An acquiring RATOM of the team waits for its old value. -/
def fencedS : State := { rs with frames := [{ frame0 2 0 with acq := true }] }
theorem witness_remote_gate : remoteGate fencedS = false := by decide
theorem test_rld_sends : (after (.rldQ 8 2 0 1 0) rs).frames.map (fun f => (f.tgt, f.va.toNat, f.size)) =
    [(0, 0x30000, 16), (0, 0x30010, 16), (0, 0x30020, 16), (0, 0x30030, 16)] := by decide
theorem witness_remote_word : probeRemote rs (rs.cur.rdS 5).toNat (rs.rdS 4).toNat 8 = .ok (rs.rdS 4).toNat 0
    ∧ probeRemote rs (rs.cur.rdS 7).toNat (rs.rdS 6).toNat 8 = .bad causeMisalign (rs.rdS 6) := by decide
theorem test_ratom_sends : (after (.ratom 0 0 9 4 1) rs).frames.map (fun f => (f.kind, f.va.toNat, f.data)) = [(2, 0x30000, leBytes 8 0x30000)] := by decide

/-- Entry 1 of the tile table: ALLREDUCE of one line of 128 bytes with tag 5, with island 0 as its one peer. -/
def tileWords : List Word64 := [0x30000, 0x38000, 0x1100050001, 1]
def ts : State := { ms with mem := setCells (setCells [] probeTables) (cellsFrom 0x80020 (tileWords.flatMap (fun w => leBytes 8 w.toNat))) }
/-- The agent's lines written back, the ready word written and the entry read, as TREADY does it on the way. -/
def treadyS (s s2 : State) : State :=
  entryRead (l2Base (l2Used (dropLine s2 0 0 ((0x80000 + readyOff + 8) / 128)) 0 1 8) s.cur.id.isl (cellsFrom (0x80000 + readyOff + 8) (leBytes 8 1))) 0 1 1
theorem witness_tready_fires : let s1 := releaseAll ts ts.cur.mIsl ts.cur.id.core ts.cur.id.ctx scopeI
    ts.cur.accessesDone = true ∧ KeysHeld ts ∧ s1.firing? 0 1 1 = none ∧ ∃ s2 pa mt bs, probeGlobal s1 (readyVa s1 0 1 1).toNat 8 .write = (s2, .ok pa mt)
    ∧ pa = 0x80000 + readyOff + 8 ∧ entryBytes (treadyS ts s2) 0 1 1 = some bs ∧ entryBad (treadyS ts s2) 0 1 1 = false
    ∧ keyLive (treadyS ts s2) 0 1 (parseTile bs) 0 = false ∧ tileOk (treadyS ts s2) 0 1 (parseTile bs) = true :=
  ⟨by decide, by simp only [KeysHeld]; decide, by decide, _, 0x80000 + readyOff + 8, 0, tileWords.flatMap (fun w => leBytes 8 w.toNat), Prod.ext rfl (by decide),
    by decide, by decide, by decide, by decide, by decide⟩
theorem witness_tready_leaf : ∃ e, leafOf ts 0 1 (entryVa ts 0 1 1).toNat = some e ∧ e.1 + 1 < 0x80000 + readyOff + 8 := ⟨_, rfl, by decide⟩
/-- The key is live: entry 2 fires under it. -/
def live0 : Firing :=
  { uid := 15, isl := 0, ctx := 1, entry := 2, die := 0, tlx := 0, opn := 1, pk := true, keyBits := 1, tag := 5, oper := 1, size := 1, src := 0x30000, dst := 0x38000,
    root := 0, peers := [0], st := 2, sent := false }
def liveS : State := { ts with firings := [live0] }
theorem test_tready_key_live : (after (.tready 5 8) liveS).rdS 5 = 1 ∧ (after (.tready 5 8) liveS).physNat 0 (0x80000 + readyOff + 8) 8 = 1
    ∧ (after (.tready 5 8) liveS).firings.length = 1 := by decide
theorem test_tready_writes_back : (after (.tready 5 8) { ts with l1 := dirtyS.l1 }).physNat 0 0x30000 8 = 0x0102030405060708
    ∧ (after (.tready 5 8) ts).physNat 0 (0x80000 + readyOff + 8) 8 = 1 := by decide
theorem test_tready_fires : (after (.tready 5 8) ts).rdS 5 = 0 ∧ (after (.tready 5 8) ts).firings.map (fun g => (g.tag, g.st)) = [(5, 1)] := by decide
/-- A firing of that entry, at a stage. -/
def fire0 (st : Nat) (sent : Bool) : Firing := { live0 with entry := 1, st := st, sent := sent }
def fireS (st : Nat) (sent : Bool) (oper : Nat) : State :=
  { ts with
    firings := [fire0 st sent]
    tiles := if sent then [{ isl := 0, ctx := 1, die := 0, pk := true, keyBits := 1, tag := 5, sender := 0, seq := 15, oper := oper, size := 1, total := 128,
                             got := 128, spill := false, spot := 0, fault := none, bytes := List.replicate 128 0 }] else [] }
theorem witness_tready_busy : ((releaseAll (fireS 2 false 1) 0 0 1 scopeI).firing? 0 1 1).isSome = true
    ∧ keyLive (fireS 2 false 1) 0 1 (parseTile (tileWords.flatMap (fun w => leBytes 8 w.toNat))) 0 = true := by decide
theorem witness_bellows_check : ∃ bs, (fireS 0 false 1).firing? 0 1 1 = some (fire0 0 false) ∧ entryBytes (fireS 0 false 1) 0 1 1 = some bs ∧ entryBad (fireS 0 false 1) 0 1 1 = false
    ∧ keyLive (fireS 0 false 1) 0 1 (parseTile bs) 15 = false ∧ tileOk (fireS 0 false 1) 0 1 (parseTile bs) = true :=
  ⟨tileWords.flatMap (fun w => leBytes 8 w.toNat), by decide⟩
theorem witness_bellows_send : ∃ s1 bs, (fire0 2 false).st = 2 ∧ (fire0 2 false).sent = false
    ∧ bellowsRead 0 0 1 (l2Used (fireS 2 false 1) 0 1 (fire0 2 false).gives) 0x30000 (fire0 2 false).gives = (s1, none, bs) :=
  ⟨_, _, by decide, by decide, Prod.ext rfl (Prod.ext (by decide) rfl)⟩
theorem witness_collective_completes : 2 ≤ (fire0 2 true).st ∧ (fire0 2 true).sent = true
    ∧ (∀ x ∈ firingTiles (fireS 2 true 1) (fire0 2 true), x.oper = (fire0 2 true).oper ∧ x.size = (fire0 2 true).size ∧ x.fault = none)
    ∧ (firingTiles (fireS 2 true 1) (fire0 2 true)).length = (fire0 2 true).peers.length
    ∧ (∀ x ∈ firingTiles (fireS 2 true 1) (fire0 2 true), x.whole = true ∧ tileBehind (fireS 2 true 1) (fire0 2 true) x = false)
    ∧ (∃ x ∈ firingTiles (fireS 2 true 2) (fire0 2 true), x.oper ≠ 1)
    ∧ (firingTiles { fireS 2 true 1 with tiles := [] } (fire0 2 true)).length ≠ (fire0 2 true).peers.length := by decide
theorem witness_collective_tiles : ∀ x ∈ firingTiles (fireS 2 true 1) (fire0 2 true), x.spill = false := by decide
theorem witness_collective_destination : (bellowsTargets 0 0 1 ((fireS 2 true 1).setFiring (fire0 3 true)) 0x38000 128).2.1 = none := by decide
theorem witness_tready : ms.cur.accessesDone = true ∧ 4095 < (ms.rdS 1).toNat ∧ (ms.rdS 8).toNat ≤ 4095 ∧ (world busy).cur.accessesDone = false := by decide
theorem test_clqry_beyond : (after (.clqry 5 1 0) ms).rdS 5 = -1 := by decide

/-! ### Special registers, hints, the handler -/

theorem witness_special_registers : ms.cur.id.kind = .team ∧ (∃ q ∈ teamSrs ms, (5 : BitVec 6).toNat = q.1) ∧ (world carter).cur.id.kind = .carter := by decide
theorem test_mfsr_archv : (after (.mfsr 5 0) ms).rdS 5 = 0x100 ∧ (after (.mfsr 5 3) ms).rdS 5 = 4 := by decide
theorem test_mtsr_rmode : (after (.mtsr 4 16) (s0 [(4, 6)])).cur.sc.rmode = 2 ∧ (after (.mtsr 4 17) (s0 [(4, -1)])).cur.sc.fpte = 31 := by decide
theorem witness_hints : ∀ l ∈ ms.cur.sc.loops, l.last ≠ ms.cur.sc.pc := by decide
theorem test_hnop_keeps_hints : (after (.hnop 5) (after (.himm 1) ms)).cur.sc.hints = { himm := some 1, hmod := none, hsched := none } := by decide

/-- A context whose traps go to a handler at 0x24000. -/
def handled : State := { ms with ctxs := [{ probeCtx with tba := 0x24000 }] }
theorem witness_handler : ms.cur.tr.handler = false ∧ RingOk handled { probeCtx with tba := 0x24000 } 0x40000 0x40040 ∧ KeysHeld handled
    ∧ handlerOf ms ms.cur = 0 := by simp only [KeysHeld, RingOk]; decide
/-- The line of WCOUNT is known to be bad: the ring is lost (R385, log 40). -/
def ringLost : State := { handled with islands := [{ Island.reset 0 with blt := [(0, 0x40000 / 128)] }] }
theorem witness_ring_lost : ringLost.cur.tr.handler = false ∧ handlerOf ringLost ringLost.cur ≠ 0 ∧ ringOk ringLost 0 1 = false := by decide
theorem test_ring_lost : (after (.trap 3) ringLost).ctxs.map (fun c => c.dead) = [true] := by decide
theorem test_trap_enters : (after (.trap 3) handled).cur.sc.pc = 0x24000 ∧ (after (.trap 3) handled).cur.tr.xpc = 0x20000 := by decide
/-- The same team in its handler. -/
def inHandler : State := { handled with cur := { handled.cur with tr := { handled.cur.tr with handler := true, xpc := 0x20010 } } }
theorem witness_leaving : inHandler.cur.tr.handler = true ∧ inHandler.cur.tr.report = false ∧ inHandler.cur.tr.resume = none
    ∧ ({ inHandler.cur.tr with resume := some 0x20020 } : Trap).resume = some 0x20020 ∧ inHandler.cur.tr.xpcWritten = false := by decide
theorem test_tret_and_tskip : (after .tret inHandler).cur.sc.pc = 0x20010 ∧ (after .tskip inHandler).cur.sc.pc = 0x20014 := by decide
theorem witness_hub : State.reset.cur.id.kind = .hub ∧ ms.cur.id.kind ≠ .hub := by decide
theorem test_halt : (after .halt State.reset).cur.sch.life = .halted := by decide

/-! ### Pushes, placement, admission, windows, forced teams -/

/-- The bytes of the record rec0. -/
def recBytes : List Byte :=
  leBytes 64 (0x20000 + 0x5000 * 2 ^ 64 + 2 ^ 200 + 8 * 2 ^ 216 + 2 ^ 224 + 2 ^ 240 + 2 ^ 248 + 2 ^ 256 + 2 ^ 265 + 2 ^ 276 + 2 ^ 288 + 3 * 2 ^ 320 + 7 * 2 ^ 384)
def recS : State := { ms with mem := setCells (setCells [] probeTables) (cellsFrom 0x30000 recBytes) }
def push0 : Push :=
  { uid := 70, isl := 0, ctx := 1, addr := 0x30000, source := 0, sub := 0, launch := 4, recIdx := some 0, team := none, paused := false }
theorem test_record_fields : parseRec recBytes = rec0 := by decide
theorem witness_push : Accepts recS push0 probeCtx rec0 ∧ (on { recS with pushes := [push0] } (.islandTaskPush 70)).push? 70 = some push0
    ∧ pushBehind (on { recS with pushes := [push0] } (.islandTaskPush 70)) push0 = false := by simp only [Accepts]; decide
theorem witness_entry_forwards : launchEnts { recS with launchQ := [ent0] } 0 0 = ent0 :: [] ∧ Accepts ({ recS with launchQ := [ent0] } : State).take.2 (entryPush recS.fresh ent0) probeCtx rec0 := by
  simp only [Accepts]; decide
theorem test_push_queues : (after .islandTaskPush (on { recS with pushes := [push0] } (.islandTaskPush 70))).tasks.map (fun k => k.record) = [rec0] := by decide
theorem test_entry_forwards : (after .pendingLaunchForward (on { recS with launchQ := [ent0] } (.pendingLaunchForward 0 0))).tasks.map (fun k => k.record) = [rec0]
    ∧ (after .pendingLaunchForward (on { recS with launchQ := [ent0] } (.pendingLaunchForward 0 0))).launchQ = [] := by decide

theorem witness_counter_message : ({ ms with waitMsgs := [{ isl := 0, core := 1, msg := msg0 }, { isl := 0, core := 0, msg := msg0 }] } : State).waitMsgs
      = [{ isl := 0, core := 1, msg := msg0 }] ++ { isl := 0, core := 0, msg := msg0 } :: [] ∧ (ms.carter 0 0).inbox.length < 64 := by decide
/-- A task of one team that has exited. -/
def task0 (join : Word64) (released : Bool) : Task :=
  { uid := 5, isl := 0, ctx := 1, launch := 0, recIdx := none, record := { rec0 with join := join }, stamp := 0, spot := none, placed := 1, skips := 0, exited := [0],
    released := released, done := false }
theorem witness_task_completes : ({ ms with tasks := [task0 0x30000 false] } : State).task? 5 = some (task0 0x30000 false)
    ∧ (task0 0 false).exited.length = (task0 0 false).record.nteams := by decide
theorem witness_join : ∃ s1 pa mt, translate { ms with tasks := [task0 0x30000 true] } 0 128 1 0x30000 .write = (s1, .ok pa mt)
    ∧ lineBad s1 0 (pa / 128) = false ∧ KeysHeld s1 := ⟨_, 0x30000, 0, Prod.ext rfl (by decide), by decide, by simp only [KeysHeld]; decide⟩
theorem test_join_decrements : (after .joinDecrement (on { ms with tasks := [task0 0x30000 true] } (.joinDecrement 5))).physGet 0 0x30007 = 0xFF := by decide

/-- A queued task, and the grant of core 0 to its context. -/
def placeS : State :=
  on { ms with
    cur := Thread.hubReset 0, tasks := [{ task0 0 false with placed := 0, exited := [] }]
    cores := [{ isl := 0, core := 0, v := true, q := false, err := false, fn := 0, ctx := 1, areas := [] }] } (.coachPlacement 0)
theorem witness_placement : (∀ c ∈ placeS.coaches, mayReturn placeS c = false) ∧ ∃ p, nextPlace placeS [] (queuedTasks placeS 0)
    = (some ({ task0 0 false with placed := 0, exited := [] }, 0, p), []) := ⟨by decide, { hitch := 0, slots := [0], sp := (0, 1), ab := (0, 1), wb := (0, 1), cb := (0, 1) }, by decide⟩
theorem witness_placement_queue : dueRecords placeS 0 = [] := by decide
/-- Sixteen entries of the queue are held: the next lies at the first place of its part of the region (R58, log 12). -/
def fullS : State :=
  { recS with tasks := (List.range 16).map (fun i => { task0 0 false with uid := 100 + i, placed := 0, exited := [] }), pushes := [push0] }
theorem witness_spilled : newPlace fullS probeCtx rec0 = some 0 ∧ queueAccepts fullS probeCtx rec0 = true
    ∧ peek (recUsed fullS 0 1 0x30000) 0 1 (queueVa probeCtx rec0 0) ≠ none := by decide
theorem test_placement : (after .coachPlacement placeS).others.map (fun t => (t.rdS 1, t.rdS 61, t.sc.pc)) = [(7, 0x5000, 0x20000)] := by decide

def inactive : Thread := { mate with sch := { mate.sch with life := .inactive } }
def inS (c : Nat) : State := { ms with others := [inactive], cycle := c }
theorem witness_admission : nextInactive (inS 0) 0 0 [] = some inactive ∧ admits64 (inS 0) inactive = true := by decide
theorem test_admission : (after .teamAdmission (on (inS 0) (.teamAdmission 0 0))).others.map (fun t => t.sch.life) = [.active] := by decide
theorem witness_forced : (inS (16 * msCycles)).thread? 9 = some inactive ∧ inactive.live = true ∧ inactive.sch.inactiveAt + 8 * (2 * msCycles) ≤ 16 * msCycles := by decide
/-- A team at the end of its window, with 3 lines and one lost. -/
def windowed : Thread := { mate with sch := { mate.sch with winCount := 4096, winLines := [1, 2, 3], winLost := 1, winMisses := 2 } }
theorem witness_window : ({ ms with others := [windowed] } : State).thread? 9 = some windowed ∧ windowed.live = true ∧ 4096 ≤ windowed.sch.winCount
    ∧ windowed.sch.winMisses < 16 * windowed.sch.winLost ∧ windowed.sch.measured = false := by decide
theorem test_window_raises : (after .leaseWindowEnd (on { ms with others := [windowed] } (.leaseWindowEnd 9))).others.map (fun t => t.sch.effLease) = [1] := by decide

/-- A request for heat waits at the Hearth of island 0. -/
def reqS (kind who : Nat) : State :=
  on { yardS .wantsHeat none [] with
    waybills := [wb0], islands := [{ Island.reset 0 with reqs := [{ kind := kind, who := who, units := 1, prio := 1 }] }] } (.heatGrant 0)
theorem witness_heat_grant : topRequest ((reqS 0 30).island 0) = some { kind := 0, who := 30, units := 1, prio := 1 }
    ∧ ((reqS 0 30).island 0).held + 1 ≤ ((reqS 0 30).island 0).budget ∧ (reqS 0 30).chain? 30 = some (chain0 .wantsHeat)
    ∧ (reqS 1 20).waybill? 20 = some wb0 ∧ (reqS 3 8).thread? 8 = some (reqS 3 8).cur ∧ (reqS 3 8).cur.an.heatOwed = 0 := by decide
theorem test_heat_grant : ((after .heatGrant (reqS 0 30)).yard.map (fun c => c.st)) = [.hasHeat] ∧ ((after .heatGrant (reqS 0 30)).island 0).held = 1 := by decide

/-! ### Wakes and swaps -/

def parked : Thread := { mate with sch := { mate.sch with life := .parked, park := .word 0x30000 0 1 false true 2, woken := true } }
theorem witness_wake_relaxed : wakeSyncs { parked with sch := { parked.sch with park := .word 0x30000 0 1 false false 2 } } = false := by decide
theorem witness_wake : ({ ms with others := [parked] } : State).thread? 9 = some parked ∧ parked.sch.woken = true ∧ parked.sch.life = .parked
    ∧ parked.sch.park ≠ .none ∧ (∀ w d l n, parked.sch.park ≠ .fuse w d l n) ∧ parked.accessesDone = true :=
  ⟨by decide, rfl, rfl, by decide, (fun _ _ _ _ h => by cases h), by decide⟩
theorem test_wake : (after .teamWake (on { ms with others := [parked] } (.teamWake 9))).others.map (fun t => t.sch.life) = [.inactive] := by decide
theorem witness_fuse_timeout : ({ fu with cycle := 101 } : State).thread? 9 = some buddy ∧ buddy.sch.park = .fuse 1 0 100 0 ∧ buddy.sch.life = .parked
    ∧ 100 < ({ fu with cycle := 101 } : State).cycle - 0 := by decide

/-- The coach's one team has waited for 200 µs. -/
def longS : State :=
  { cs with
    cur := Thread.hubReset 0, others := [{ cs.cur with id := { cs.cur.id with vregs := 8 }, sch := { cs.cur.sch with life := .parked, park := .word 0x30000 0 1 false false 2 } }]
    ctxs := [{ probeCtx with savsz := 1 }], cycle := 320000 }
theorem witness_swap : longS.coach? 6 = some coach0 ∧ mayLeave longS coach0 = true ∧ mustDrain longS coach0 = false ∧ mayGo longS coach0 = true
    ∧ (columnCoaches longS coach0).any (saveWaits longS) = false
    ∧ (∀ x ∈ longS.yard, x.coach = 6 → x.st ≠ .running)
    ∧ areaMapped longS coach0.isl coach0.ctx ((columnPlan longS coach0).getD []) = true := by decide
/-- R389: the sections of a team block take 1,024 bytes. -/
theorem test_team_block : (teamBlock cs.cur).length = 1024 := by decide +kernel
/-- An image of core 3 with one reply open, of team block 0, for lane 2 (R389, R390). -/
def img0 : Image :=
  { isl := 0, core := 3, ctx := 1, kind := 1, coach := 6, spot := 0, kib := 8, seed := 0, time := 0x1234
    replies := [{ op := 70, block := 0, kind := 1, dst := 9 }], stores := [], marks := [], counters := [], chains := [], streams := []
    rows := [(8, 4 * 8 * 4)], parts := [(6, 1, 1, 1, 1)] }
def replyF : State := { cs with frames := [{ frame0 0 0 with op := 70, lane := 2, size := 8, dst := 9 }] }
theorem test_image_header : headerBytes replyF img0 =
    (known 8 0x0300000100010001 ++ known 8 0x010100 ++ known 8 0x0001000100010001 ++ known 8 (64 + 1024 + 4 * 8 * 4 + 4096 + 2048 + 4096 + 16) ++ known 8 1
      ++ known 8 0x1234 ++ known 16 0) := by decide
theorem test_reply_entry : replyBytes replyF img0 { op := 70, block := 0, kind := 1, dst := 9 } = known 8 0x090100 ++ known 8 4 := by decide
/-- The state with the coach out. -/
def outS : State :=
  { longS.mapT (fun t => if t.id.uid = 8 then { t with sch := { t.sch with life := .swapped } } else t) with
    coaches := [{ coach0 with swapped := true }]
    images := [{ isl := 0, core := 0, ctx := 1, kind := 1, coach := 6, spot := 0, kib := 8, seed := 0, time := 0, replies := [], stores := [], marks := []
                 counters := [], chains := [], streams := [] }] }
/-- Its wait has held while it was out. -/
def readyS : State := outS.mapT (fun t => { t with sch := { t.sch with park := .none, woken := true } })
def coachOut : Coach := { coach0 with swapped := true }
theorem witness_restore : readyS.coach? 6 = some coachOut ∧ mayReturn readyS coachOut = true ∧ canReturn readyS coachOut = true
    ∧ placeFirst readyS coachOut = false ∧ mayRotate readyS coachOut = true ∧ coachOut ∈ readyS.coaches ∧ coachOut.prio ≤ 3
    ∧ (∀ d ∈ readyS.coaches, d.isl = 0 → d.core = 0 → d.swapped = true)
    ∧ (∃ i, readyS.image? 6 = some i ∧ imageOf readyS coachOut = some i)
    ∧ areaMapped readyS 0 1 (imagePlaces readyS (coachOut :: columnMates readyS coachOut)) = true := by decide
theorem test_restore : (after .coachRestore (on readyS (.coachRestore 6))).others.map (fun t => t.sch.life) = [.inactive] := by decide
/-! ### Frames, collectives -/

/-- The firewall admits island 0, and the leaf is reachable and pinned. -/
def world1 : State := { rs with islands := [{ Island.reset 0 with fwmask := 1 }], mem := setCells (setCells [] probeTables) [(0x13000, 0x3F)] }
def frameS (kind : Nat) (e : Event) : State := on { world1 with frames := [frame0 kind 0] } e
theorem witness_frame_receive : (frameS 1 (.frameReceive 60)).frame? 60 = some (frame0 1 0) ∧ (frame0 1 0).sentOn ≠ none ∧ (frame0 1 0).relay = false
    ∧ admits (frameS 1 (.frameReceive 60)) (frame0 1 0) = true ∧ mayPerform (frameS 1 (.frameReceive 60)) (frame0 1 0) = true
    ∧ admits { rs with frames := [frame0 1 0] } (frame0 1 0) = false
    ∧ (frame0 1 0).home = Config.panel ∧ (frame0 1 0).panel = Config.panel ∧ frameLate (frameS 1 (.frameReceive 60)) (frame0 1 0) = false
    ∧ (frame0 1 0).admitted = false := by decide
theorem witness_ingress : ∃ s1 pas, ingressBytes 0 1 true ((frameS 1 (.frameReceive 60)).setFrameOp { frame0 1 0 with admitted := true }) 0x30000 8 = (s1, none, pas) ∧ KeysHeld s1 ∧ pas.Nodup
    ∧ (frame0 1 0).data.length = 8 := ⟨_, (List.range 8).map (fun i => 0x30000 + i), Prod.ext rfl (by decide), by simp only [KeysHeld]; decide, by decide, rfl⟩
theorem witness_ingress_read : ∃ s1 pas, ingressBytes 0 1 false ((frameS 0 (.frameReceive 60)).setFrameOp { frame0 0 0 with admitted := true }) 0x30000 8 = (s1, none, pas)
    ∧ ∀ pa ∈ pas, lineBad s1 0 (pa / 128) = false := ⟨_, (List.range 8).map (fun i => 0x30000 + i), Prod.ext rfl (by decide), by decide⟩
theorem test_frame_write : (after .frameReceive (frameS 1 (.frameReceive 60))).physGet 0 0x30007 = 8
    ∧ (after .frameReceive (frameS 1 (.frameReceive 60))).frames.map (fun f => f.phase) = [1] := by decide
theorem test_frame_retry : ((after .frameRetry (frameS 1 (.frameRetry 60))).island 0).linkRetry = [(3, 1)] := by decide
theorem witness_relay : ({ frame0 1 0 with relay := true }).phase ≠ 2 ∧ relays (frameS 1 (.relayForward 60)) { frame0 1 0 with relay := true } ≠ [] := by decide
theorem witness_rotor : ((frameS 1 (.rotorSlot 2)).frames.map (fun f => f.uid)).Nodup ∧ 2 < 8 := by decide
/-- A reply returns to the team's outstanding operation 40. -/
def replyS (kind : Nat) : State :=
  on { world1 with
    cur := { rs.cur with fl := { rs.cur.fl with rm := 1, ops := [{ id := 40, cls := .rm, left := 1 }], pendS := [9], pendV := [9] } }
    frames := [frame0 kind 1] } (.remoteReply 60)
theorem witness_denied : let f := { frame0 1 0 with agent := 99 }
    admits { rs with frames := [f] } f = false ∧ frameTeam { rs with frames := [f] } f = none ∧ rs.thread? 99 = none := by decide
theorem test_denied : (after .frameReceive (on { rs with frames := [{ frame0 1 0 with agent := 99 }] } (.frameReceive 60))).ctxs.map (fun c => c.dead) = [true]
    ∧ (after .frameReceive (on { rs with frames := [{ frame0 1 0 with agent := 99 }] } (.frameReceive 60))).frames = [] := by decide
theorem witness_reply : admitsReply (replyS 2) (frame0 2 1) = true ∧ (replyS 2).frame? 60 = some (frame0 2 1) ∧ (frame0 2 1).wb = none ∧ (replyS 2).cur.holds (frame0 2 1).op = true
    ∧ 4 * (replyS 0).cur.id.hitch ≤ (frame0 0 1).lane ∧ (frame0 0 1).lane < 4 * (replyS 0).cur.id.hitch + (replyS 0).cur.id.width := by decide
theorem test_reply_of_ratom : (after .remoteReply (replyS 2)).cur.rdS 9 = 0x0807060504030201 ∧ (after .remoteReply (replyS 2)).cur.fl.rm = 0 := by decide
theorem test_reply_of_rld : (after .remoteReply (replyS 0)).cur.rdV 9 0 = 0x04030201 ∧ (after .remoteReply (replyS 0)).cur.rdV 10 0 = 0x08070605 := by decide
theorem witness_remote_timeout : (frame0 1 0).sentAt + msCycles ≤ ({ rs with cycle := msCycles } : State).cycle ∧ rs.ctx? 0 1 = some probeCtx
    ∧ frameTeam rs { frame0 1 0 with agent := 99 } = none ∧ rs.thread? 99 = none := by decide
/-- A saved team waits for a reply (R192). -/
theorem witness_saved_timeout : ∃ y ∈ ({ replyS 1 with others := [{ (replyS 1).cur with sch := { (replyS 1).cur.sch with life := .swapped } }] } : State).threads,
    y.sch.life = .swapped ∧ y.holds (frame0 1 1).op = true := by decide
def reporting : CtxIsl := { probeCtx with report := [(8, 0, causeAbsent)] }
theorem witness_report_timeout : ∃ c ∈ ({ rs with ctxs := [reporting], cycle := msCycles } : State).ctxs, (8, 0, causeAbsent) ∈ c.report ∧ 0 + msCycles ≤ msCycles
    ∧ ∀ d ∈ [reporting], ∀ r ∈ d.report, r.1 = 8 → d.ctx = c.ctx := by decide

/-! ### Functions, queues, commands, launches -/

theorem witness_in_service : inService ms = true := by decide
theorem test_hcpsel : ((after .hcpselWrite (on ms (.hcpselWrite 2 1))).fnRegs 2).accepted = true
    ∧ ((after .hcpselWrite (on ms (.hcpselWrite 2 0x101))).fnRegs 2).accepted = false := by decide
/-- A queue of function 0 in context 1, with its commands at 0x1000 of the host's memory and its records at 0x2000. -/
def queue0 (tail : Nat) : HostQueue :=
  { fn := 0, q := 0, en := true, log2n := 4, prio := 0, vec := 1, ctx := 1, qbase := 0x1000, cbase := 0x2000, head := 0, tail := tail, qerr := 0, hold := none, inHand := false,
    stopping := false }
theorem witness_queue_enable : (0x0001000100000004 : Word64).getLsbD 32 = true ∧ ms.queue? 0 0 = none
    ∧ 4 ≤ (0x0001000100000004 : Word64).toNat % 32 ∧ ownsCtx ms 0 ((0x0001000100000004 : Word64).toNat / 2 ^ 48) = true := by decide
theorem test_queue_enable : ((after .queueEnable (on ms (.queueEnable 0 0 0x2000 0x1001 0x0001000100000004))).queue? 0 0).map (fun x => (x.en, x.qerr)) =
    some (false, 1) := by decide
theorem witness_doorbell : ({ ms with queues := [queue0 14] } : State).queue? 0 0 = some (queue0 14)
    ∧ 14 + (15 + 2 ^ 4 - 14 % 2 ^ 4) % 2 ^ 4 - firstOpen { ms with queues := [queue0 14] } (queue0 14) ≤ 2 ^ 4 - 1
    ∧ 2 ^ 4 - 1 < 14 + (0 + 2 ^ 4 - 14 % 2 ^ 4) % 2 ^ 4 - firstOpen { ms with queues := [queue0 14] } (queue0 14) := by decide
theorem test_doorbell : ((after .doorbell (on { ms with queues := [queue0 14] } (.doorbell 0 0 15))).queue? 0 0).map (fun x => x.tail) = some 15 := by decide
theorem test_edge_port : (after .edgePortLinkUp (on ms (.edgePortLinkUp 3 2))).panel.edges = [3] ∧ (after .edgePortLinkUp (on ms (.edgePortLinkUp 3 1))).panel.edges = [] := by decide

/-- The head command of that queue is given, and the current step is its own. -/
def cmdS (ws : List Nat) : State :=
  let s : State := { ms with queues := [queue0 1], hostMem := setCells [] (cellsFrom 0x1000 (ws.flatMap (leBytes 8))) }
  on s (cmdEvent s (queue0 1))
theorem witness_cmd_nop : (cmdS [0x700000000]).ev = .cmdNop 0 0 ∧ Taken (cmdS [0x700000000]) (queue0 1) := by simp only [Taken, Next]; decide
theorem test_cmd_nop : getBytes (after .cmdNop (cmdS [0x700000000])).hostMem 0x2000 8 = leBytes 8 0x0001000000000007 := by decide
/-- R365: the host answers some addresses with an error. -/
def errS (a n : Nat) : State := { cmdS [0x700000000] with panel := { (cmdS []).panel with hostBad := [(a, n)] } }
theorem witness_host_error : Next (errS 0x1000 1) (queue0 1) ∧ hostOk (errS 0x1000 1) (headAt (queue0 1)) 64 = false
    ∧ Next (errS 0x2008 1) (queue0 1) ∧ hostOk (errS 0x2008 1) (headAt (queue0 1)) 64 = true ∧ hostOk (errS 0x2008 1) (recordAt (queue0 1)) 16 = false := by
  simp only [Next]; decide
theorem test_host_error : ((after .cmdNop (errS 0x1000 1)).queue? 0 0).map (fun x => (x.head, x.qerr)) = some (0, 2)
    ∧ ((after .cmdNop (errS 0x2008 1)).queue? 0 0).map (fun x => (x.head, x.qerr)) = some (1, 2) := by decide
theorem witness_cmd_invalid : (cmdS [0x700000000, 9]).ev = .invalidCommand 0 0 ∧ Taken (cmdS [0x700000000, 9]) (queue0 1)
    ∧ (headCmd (cmdS [0x700000000, 9]) (queue0 1)).bad = some 8 := by simp only [Taken, Next]; decide
def writeS : State := cmdS [2, 0, 0x30000, 0x1122334455667788]
theorem witness_cmd_write : writeS.ev = .cmdWrite 0 0 ∧ Taken writeS (queue0 1) ∧ hostIslOk writeS 1 0 = true ∧ hostIslOk writeS 1 7 = false
    ∧ ∃ s1 pas, hostTargets 0 1 .write writeS 0x30000 8 = (s1, pas) ∧ pas.length = 8 ∧ pas.Nodup ∧ KeysHeld s1 :=
  ⟨by decide, by simp only [Taken, Next]; decide, by decide, by decide, _, (List.range 8).map (fun i => 0x30000 + i), Prod.ext rfl (by decide), by decide, by decide,
    by simp only [KeysHeld]; decide⟩
theorem test_cmd_write : (after .cmdWrite writeS).physGet 0 0x30007 = 0x11 := by decide
theorem witness_cmd_write_absent : ∃ s1 pas, hostTargets 0 1 .write writeS (2 ^ 63) 8 = (s1, pas) ∧ pas.length < 8 :=
  ⟨_, [], Prod.ext rfl (by decide), by decide⟩
/-- A copy of 4 bytes, out of the island or into it. -/
def copyS (out : Bool) : State := cmdS [3, if out then 2 ^ 63 else 0, 0x3000, 0x30000, 4]
theorem witness_cmd_copy : (copyS true).ev = .cmdCopy 0 0 ∧ Taken (copyS true) (queue0 1) ∧ Taken (copyS false) (queue0 1)
    ∧ (headCmd (copyS true) (queue0 1)).w1.testBit 63 = true ∧ (headCmd (copyS false) (queue0 1)).w1.testBit 63 = false
    ∧ (∃ s1, hostTargets 0 1 .read (copyS true) 0x30000 4 = (s1, [0x30000, 0x30001, 0x30002, 0x30003]))
    ∧ ∃ s1, hostTargets 0 1 .write (copyS false) 0x30000 4 = (s1, [0x30000, 0x30001, 0x30002, 0x30003]) ∧ KeysHeld s1 :=
  ⟨by decide, by simp only [Taken, Next]; decide, by simp only [Taken, Next]; decide, by decide, by decide, ⟨_, Prod.ext rfl (by decide)⟩, _, Prod.ext rfl (by decide),
    by simp only [KeysHeld]; decide⟩
def mctS : State := cmdS [4 , 0x100050000, 0, 3, 0]
theorem witness_absent : hostIslOk (cmdS [3, 7, 0x3000, 0x30000, 4]) 1 7 = false ∧ (headCmd (cmdS [3, 7, 0x3000, 0x30000, 4]) (queue0 1)).w1 % 2 ^ 63 = 7
    ∧ (headCmd (cmdS [4, 0x100050007, 0, 3, 0]) (queue0 1)).w1 % 2 ^ 16 = 7 := by decide
theorem test_absent : getBytes (after .cmdCopy (cmdS [3, 7, 0x3000, 0x30000, 4])).hostMem 0x2000 16 = leBytes 8 0x0001000800000000 ++ leBytes 8 7
    ∧ getBytes (after .cmdMctset (cmdS [4, 0x100050007, 0, 3, 0])).hostMem 0x2000 16 = leBytes 8 0x0001000800000000 ++ leBytes 8 7 := by decide
theorem witness_cmd_mctset : mctS.ev = .cmdMctset 0 0 ∧ Taken mctS (queue0 1) ∧ ¬ (∃ w ∈ mctS.waybills, w.isl = 0)
    ∧ (∃ w ∈ [{ wb0 with raw := [0x40001] }], w.isl = 0 ∧ w.ctx = 1 ∧ (parseWb w.raw).kind = 4 ∧ (parseWb w.raw).mct = 0) := by simp only [Taken, Next]; decide
/-- A waybill in progress names that entry (R86). -/
theorem witness_mct_named : mctNamed { mctS with waybills := [{ wb0 with raw := [0x40001, 0, 0, 0, 0, 0, 0x50000] }] } 0 1 5 = true ∧ mctNamed mctS 0 1 5 = false := by decide
theorem test_mctset_group : (after .cmdMctset (cmdS [4, 0x109050000, 0, 3, 0])).mcasts.map (fun m => m.group) = [9] := by decide
theorem test_cmd_mctset : (after .cmdMctset mctS).mcasts.map (fun m => (m.entry, m.valid, m.cores)) = [(5, true, 3)] := by decide
def launch0 (st : Nat) : Launch :=
  { uid := 80, fn := 0, lid := 6, ctx := 1, queue := 0, tag := 7, slot := 0, irq := false, st := st, recs := [(0, 0x30000)], waits := [], groups := [(0, 2, 0, 1, 0)],
    mcts := [], status := 0, value := 0 }
theorem witness_cmd_kill : (cmdS [5, 6]).ev = .cmdKill 0 0 ∧ Taken (cmdS [5, 6]) (queue0 1)
    ∧ ({ cmdS [5, 6] with launches := [launch0 1] } : State).launches.find? (fun l => l.fn = 0 && l.lid = 6 && l.st ≠ 2) = some (launch0 1)
    ∧ (∀ l ∈ (cmdS [5, 6]).launches, ¬ (l.fn = 0 ∧ l.lid = 6 ∧ l.st ≠ 2)) := by simp only [Taken, Next]; decide

/-- A LAUNCH whose descriptor at 0x3000 names one record at 0x30000, or one whose length is too short. -/
def launchS (len : Nat) : State :=
  let s : State := { recS with
    queues := [queue0 1]
    hostMem := setCells (setCells [] (cellsFrom 0x1000 ([1, 0x3000, len].flatMap (leBytes 8))))
      (cellsFrom 0x3000 (leBytes 8 0x10001 ++ leBytes 8 6) ++ cellsFrom 0x30C0 (leBytes 8 0x30000)) }
  on s (cmdEvent s (queue0 1))
theorem witness_launch_command : (launchS 0xD0).ev = .cmdLaunch 0 0 ∧ Taken (launchS 0xD0) (queue0 1)
    ∧ launchReject (launchS 0xD0) (queue0 1) (headCmd (launchS 0xD0) (queue0 1)) = none
    ∧ launchReject (launchS 0x80) (queue0 1) (headCmd (launchS 0x80) (queue0 1)) = some (1, 16) := by simp only [Taken, Next]; decide
theorem test_launch_accepted : (after .cmdLaunch (launchS 0xD0)).launches.map (fun l => (l.lid, l.recs)) = [(6, [(0, 0x30000)])] := by decide
theorem witness_launch_dispatch : ({ ms with launches := [launch0 0] } : State).launch? 80 = some (launch0 0) ∧ ∀ w ∈ (launch0 0).waits, w.held = true := by decide
theorem test_launch_multicast : (after .launchDispatch (on { ms with launches := [{ launch0 0 with mcts := [(0, 5, 9, 3)] }] } (.launchDispatch 80))).mcasts.map
    (fun m => (m.entry, m.valid, m.group, m.cores)) = [(5, true, 9, 3)] := by decide
theorem test_launch_dispatch : (after .launchDispatch (on { ms with launches := [launch0 0] } (.launchDispatch 80))).pushes.map (fun p => p.addr) = [0x30000]
    ∧ (after .launchDispatch (on { ms with launches := [launch0 0] } (.launchDispatch 80))).groups.map (fun g => g.members) = [[(0, 0, 1)]] := by decide
/-! ### The mailbox -/

/-- A request of function 0 in hand, with the step that performs it. -/
def req (code : Nat) (ws : List Nat) : MbReq :=
  { fn := 0, buf := 0x4000, words := (([0x900000100 + code] ++ ws ++ [0, 0, 0, 0]).take 5).map (BitVec.ofNat 64) }
def mbS (s : State) (r : MbReq) : State := on { s with panel := { s.panel with mbox := [r] } } r.event
theorem witness_in_hand : InHand (mbS ms (req 7 [0x5000])) 0 (req 7 [0x5000]) ∧ (mbS ms (req 7 [0x5000])).ev = .topoRead 0 := by simp only [InHand]; decide
theorem witness_bad_request : InHand (mbS ms (req 77 [])) 0 (req 77 []) ∧ (mbS ms (req 77 [])).ev = .invalidMailboxRequest 0 := by simp only [InHand]; decide
theorem test_bad_request : getBytes (after .invalidMailboxRequest (mbS ms (req 77 []))).hostMem 0x4000 8 = leBytes 8 0x900000001 := by decide
theorem test_topo_read : getBytes (after .topoRead (mbS ms (req 7 [0x5000]))).hostMem 0x5000 8 = leBytes 8 (1 + 48 * 2 ^ 16) := by decide

/-- A descriptor of context 2 on island 0 at 0x6000 of the host's memory. -/
def descBytes : List (Nat × Byte) :=
  cellsFrom 0x6000 (leBytes 8 0x0002000001000001) ++ cellsFrom 0x6008 (leBytes 8 1)
    ++ cellsFrom 0x6040 ([0x100000400, 0x10000, 0, 0, 0, 0x40000, 0x50000, 0x60000, 0x80000, 0x100000, 0x110000, 0].flatMap (leBytes 8))
def createS : State := mbS { ms with hostMem := setCells [] descBytes } (req 1 [0x6000, 0xA0])
theorem witness_create : InHand createS 0 (req 1 [0x6000, 0xA0]) ∧ createS.ev = .ctxCreate 0 ∧ DescOk createS (req 1 [0x6000, 0xA0])
    ∧ (∀ c ∈ createS.ctxs, c.ctx ≠ descCtx createS (req 1 [0x6000, 0xA0]))
    ∧ (∀ b ∈ descBlocks createS (req 1 [0x6000, 0xA0]), islandServes createS b.isl = true ∧ blockStatus createS b = 0 ∧ freeSlot createS b.isl ≠ none
      ∧ (b.prot = true → freeKey createS b.isl ≠ none))
    ∧ onePartition createS 0 (hostWord createS 0x6008) = true := by simp only [InHand, DescOk]; decide

def destroyS : State := { mbS ms (req 2 [1]) with panel := { ms.panel with mbox := [req 2 [1]], mbStage := 2 } }
theorem witness_destroy : InHand destroyS 0 (req 2 [1]) ∧ destroyS.ev = .ctxDestroy 0 ∧ mbCtx destroyS 0 1 = true ∧ destroyS.panel.mbStage = 2
    ∧ invalsDone destroyS = true ∧ mbCtx destroyS 0 3 = false := by simp only [InHand]; decide
theorem witness_destroy_first : let s : State := { destroyS with panel := { destroyS.panel with mbStage := 0 } }
    InHand s 0 (req 2 [1]) ∧ s.ev = .ctxDestroy 0 ∧ mbCtx s 0 1 = true ∧ ctxIsls s 1 = [0] := by simp only [InHand]; decide
theorem test_destroy : (after .ctxDestroy destroyS).ctxs = [] := by decide
def hubCur (s : State) : State := { s with cur := Thread.hubReset 0 }
theorem witness_suspend : let s := mbS (hubCur ms) (req 3 [1, 1])
    InHand s 0 (req 3 [1, 1]) ∧ s.ev = .ctxSuspend 0 ∧ islsOk s 1 1 = true ∧ s.panel.mbStage = 0
    ∧ (∀ i ∈ maskIsls 1, suspendWaits s i 1 = false ∧ areaFits s i 1 = true) := by simp only [InHand]; decide
theorem witness_resume : let s := mbS (hubCur ms) (req 4 [1, 1])
    InHand s 0 (req 4 [1, 1]) ∧ s.ev = .ctxResume 0 ∧ ∀ i ∈ maskIsls 1, (∀ c ∈ imagedOn s i 1, noReply s c = true)
      ∧ (∀ m ∈ coreImages s i 1, imageMajor s m = 1 ∧ imageReserved s m = false) ∧ areaMapped s i 1 ((coreImages s i 1).map (fun m => (m.spot, m.kib))) = true := by simp only [InHand]; decide
theorem test_suspend : (after .ctxSuspend (mbS (hubCur ms) (req 3 [1, 1]))).ctxs.map (fun c => c.suspended) = [true] := by decide

theorem witness_inval : let r := req 5 [1, 1, 0x30000, 0x1000]
    InHand (mbS ms r) 0 r ∧ (mbS ms r).ev = .inval 0 ∧ r.word 1 < 2 ^ 18 ∧ r.word 1 / 2 ^ 16 % 4 < 2 ∧ islsOk (mbS ms r) 1 (r.word 2) = true := by
  simp only [InHand]; decide
def inval0 : Inval := { uid := 90, isl := 0, ctx := some 1, base := 0, len := 2 ^ 64, left := [10] }
theorem witness_inval_ack : ({ ms with invals := [inval0] } : State).invals.find? (fun n => n.uid = 90) = some inval0 ∧ 10 ∈ inval0.left
    ∧ invalOpen ms { inval0 with left := [0, 1] } 1 = false
    ∧ lostTimelines (invalDrop ms { inval0 with left := [0, 1] } 1) (fun y va => y.id.isl = 0 && dieOf y.id.core = 1 && inval0.names y.id.ctx va 8) = [] := by decide
theorem witness_inval_done : let r := req 5 [1, 1, 0x30000, 0x1000]
    let s : State := { mbS ms r with panel := { (mbS ms r).panel with mbStage := 1 } }
    InHand s 0 r ∧ s.ev = .inval 0 ∧ s.panel.mbStage = 1 ∧ invalsDone s = true := by simp only [InHand]; decide
theorem witness_page_done : InHand (mbS ms (req 6 [1, 0x30000])) 0 (req 6 [1, 0x30000]) ∧ (mbS ms (req 6 [1, 0x30000])).ev = .pfDone 0
    ∧ (mbS ms (req 6 [1, 0x30000])).ctx? 0 1 ≠ none ∧ (req 6 [1, 0x30000]).word 1 < 2 ^ 24 := by simp only [InHand]; decide
def parkedPage : Thread := { mate with sch := { mate.sch with life := .parked, park := .page 0x30008 } }
theorem test_page_done : Event.teamWake 9 ∈ (after .pfDone (mbS { ms with others := [parkedPage] } (req 6 [1, 0x30000]))).due := by decide
theorem witness_fence : let r := req 8 [0x105]
    InHand (mbS ms r) 0 r ∧ (mbS ms r).ev = .topoFence 0 ∧ r.word 1 / 2 ^ 9 % 128 = 0 ∧ r.word 1 / 2 ^ 8 % 2 = 1
    ∧ topoOf (mbS ms r) 5 = some { site := 5, state := 1, visl := 5, phase := 5 } ∧ namersOf (mbS ms r) [5] = [] ∧ namersOf (mbS ms r) [0] ≠ []
    ∧ (req 8 [5]).word 1 / 2 ^ 8 % 2 = 0 := by simp only [InHand]; decide
theorem witness_return : let s := after .topoFence (mbS ms (req 8 [0x105]))
    topoOf s 5 = some { site := 5, state := 2, visl := 5, phase := 5 } ∧ s.panel.gen = 1 := by decide
theorem witness_remap : let r := req 9 [0x0705]
    InHand (mbS ms r) 0 r ∧ (mbS ms r).ev = .topoRemap 0 ∧ topoOf (mbS ms r) 5 ≠ none ∧ topoOf (mbS ms r) 7 ≠ none ∧ namersOf (mbS ms r) [5, 7] = [] := by
  simp only [InHand]; decide
theorem witness_remap_busy : let r := req 9 [0x0700]
    InHand (mbS ms r) 0 r ∧ (mbS ms r).ev = .topoRemap 0 ∧ namersOf (mbS ms r) [0, 7] = [1] := by simp only [InHand]; decide
theorem test_remap : ((after .topoRemap (mbS ms (req 9 [0x0705]))).panel.topo.map (fun e => e.visl))[5]? = some 7 := by decide

/-! ### The control block -/

theorem witness_free : Free ms 0 := by simp only [Free]; decide
theorem test_budget : ((after .hearthBudgetWrite (on ms (.hearthBudgetWrite 0 0x10020))).island 0).budget = 0x20 := by decide
theorem test_fwmask : ((after .fwmaskWrite (on ms (.fwmaskWrite 0 (-1)))).island 0).fwmask = 0x8000FFFFFFFFFFFF := by decide
theorem test_waymask : waymask ((after .registerWrite (on ms (.registerWrite false 0 0x108 0x1234))).island 0) 1 = 0x1234 := by decide
def core1 : CoreCtx := { isl := 0, core := 1, v := true, q := false, err := false, fn := 0, ctx := 1, areas := [] }
theorem witness_corectx : (ms.coreCtx 0 1).v = false ∧ (0x80000001 : Word64).getLsbD 31 = true ∧ (0x80000001 : Word64).toNat % 2 ^ 16 = 1
    ∧ ms.ctx? 0 1 = some probeCtx ∧ coreOffered ms 0 1 = true ∧ ({ ms with cores := [core1] } : State).coreCtx 0 1 = core1
    ∧ (0x80000002 : Word64).toNat % 2 ^ 16 ≠ core1.ctx ∧ holdsCore { ms with coaches := [{ coach0 with core := 1 }], cores := [core1] } 0 1 1 = true := by decide
theorem test_corectx : (after .corectxWrite (on { ms with ctxs := [{ probeCtx with centry := 0x20000 }] } (.corectxWrite 0 1 0x80000001))).others.map
    (fun t => (t.id.kind, t.id.core, t.sc.pc, t.sch.life)) = [(.carter, 1, 0x20000, .active)] := by decide

/-- Frame 3 of island 0 belongs to context 1, frame 4 is in quarantine. -/
def frS : State :=
  { ms with
    frameInfo := [{ isl := 0, idx := 3, owner := 1, q := false, lost := false }, { isl := 0, idx := 4, owner := 0, q := true, lost := false }]
    keys := [{ isl := 0, slot := 2, v := true, ctx := 1 }] }
theorem witness_keys : (frS.keySlot 0 2).v = true ∧ ∃ f ∈ frS.frameInfo, f.isl = 0 ∧ f.owner = (frS.keySlot 0 2).ctx := by decide
theorem test_zeroise : (after .keyZeroise (on frS (.keyZeroise 0 2))).frameInfo.map (fun f => f.lost) = [true, false] := by decide
/-- FAREQ words: frame 5 to context 1, frames 3 and 4 to context 2, none, and frame 3 to quarantine. -/
def far (ctx kind first n : Nat) : Word64 := BitVec.ofNat 64 (ctx * 2 ^ 48 + first * 2 ^ 21 + kind * 2 ^ 20 + n)
theorem witness_assign : (far 1 0 5 1).getLsbD 20 = false ∧ (far 1 0 5 1).toNat / 2 ^ 48 = 1 ∧ (far 1 0 5 1).toNat / 2 ^ 21 % 2 ^ 27 = 5
    ∧ (far 1 0 5 1).toNat % 2 ^ 20 = 1 ∧ (1 : Nat) ≠ 0 ∧ (5 + 1) * 2 ^ 21 ≤ Config.islandBytes ∧ (far 1 1 3 1).getLsbD 20 = true
    ∧ (∃ f ∈ frS.frameInfo, f.isl = 0 ∧ 4 ≤ f.idx ∧ f.idx < 5 ∧ f.q = true) := by decide
theorem test_assign : ((after .fareqAssign (on frS (.fareqAssign 0 (far 1 0 5 1)))).frame 0 5).owner = 1
    ∧ ((after .fareqAssign (on frS (.fareqAssign 0 (far 2 0 3 2)))).island 0).fastat = 8 ∧ ((after .fareqAssign (on frS (.fareqAssign 0 (far 2 0 3 0)))).island 0).fastat = 1 := by decide
theorem test_quarantine : (after .fareqQuarantine (on frS (.fareqQuarantine 0 (far 1 1 3 1)))).frame 0 3 = { isl := 0, idx := 3, owner := 0, q := true, lost := false } := by decide
theorem witness_scrub : (frS.island 0).scrubRun = false ∧ ((scrubEntries frS 0).map entryUnits).sum = 32 := by decide
/-- The scrub of frame 4 has done n units. -/
def scrubS (n : Nat) : State :=
  { frS with islands := [{ Island.reset 0 with scrubRun := true, scrubTotal := 32, scrubDone := n, scrubSet := [(132, [])] }], cycle := 16 * 25 * (n + 1) }
theorem witness_scrub_unit : (scrubS 31 |>.island 0).scrubRun = true ∧ scrubAtUnit ((scrubS 31).island 0).scrubSet 31 = some (132, [], 31)
    ∧ ((scrubS 31).island 0).scrubAt + 16 * 25 * (31 + 1) ≤ (scrubS 31).cycle ∧ KeysHeld (scrubS 31) := by simp only [KeysHeld]; decide
theorem witness_scrub_again : let s : State := { scrubS 31 with islands := [{ (scrubS 31).island 0 with scrubNext := true }] }
    (s.island 0).scrubNext = true ∧ (s.island 0).scrubTotal ≤ (s.island 0).scrubDone + 1 := by decide
theorem test_scrub_unit : ((after .scrubUnit (on (scrubS 31) (.scrubUnit 0))).frame 0 4).q = false ∧ ((after .scrubUnit (on (scrubS 30) (.scrubUnit 0))).frame 0 4).q = true := by decide
theorem test_island_reset : let s := after .islandReset (on (hubCur { frS with ctxs := [] }) (.islandReset 0))
    (s.island 0).resetting = true ∧ s.keys = [] := by decide
theorem witness_reset_end : ({ ms with islands := [{ Island.reset 0 with resetting := true }], cycle := resetCycles } : State).island 0
    = { Island.reset 0 with resetting := true }
    ∧ ({ Island.reset 0 with resetting := true, scrubRun := true } : Island).scrubRun = true := by decide
/-- A scrub was asked for during the reset: it starts at its end (log 40). -/
def resetS : State := { frS with islands := [{ Island.reset 0 with resetting := true, scrubNext := true }], cycle := resetCycles }
theorem witness_reset_end_scrub : (resetS.island 0).resetting = true ∧ (resetS.island 0).scrubNext = true ∧ (resetS.island 0).scrubRun = false := by decide
theorem test_reset_end_scrub : let t := after .islandResetEnd (on resetS (.islandResetEnd 0))
    (t.island 0).scrubRun = true ∧ (t.island 0).scrubNext = false := by decide
theorem witness_discard : (1 : Word64) ≠ 0 ∧ (ms.island 0).discard = none ∧ (ms.island 0).resetting = false
    ∧ discardWaits (discardStop (hubCur ms) 0 1) 0 1 = false := by decide

/-! ### Errors, links, firmware, power -/

theorem witness_hub_wake : ∃ c ∈ (after .halt { State.reset with panel := Panel.reset }).panel.hubs, c.hub = 0 ∧ c.halted = true ∧ c.fault = false := by decide
theorem test_hub_wake : (after .hubWake (on (after .halt State.reset) (.hubWake 1 0))).cur.sch.life = .active := by decide
theorem test_corrected_error : ((after .correctedError (on ms (.correctedError 0 7))).island 0).cecnt = [(7, 1)]
    ∧ ((after .correctedError (on ms (.correctedError 0 9))).island 0).cecore = [(1, 1)] := by decide
theorem witness_uncorrectable : (0x30000 : Nat) < Config.islandBytes ∧ (∀ b ∈ (ms.island 0).blt, b.2 ≠ 0x30000 / 128) ∧ ((ms.island 0).blt).length < 64
    ∧ (∀ x ∈ ms.ord.late, x.isl ≠ 0) ∧ (∀ q ∈ ms.atoms, ¬ (q.key / 2 ^ 48 = 0 ∧ q.key % 2 ^ 48 / 128 = 0x30000 / 128)) := by decide
theorem witness_temperature : (0x0500 : BitVec 16).toInt ≤ 95 * 16 ∧ (0x0600 : BitVec 16).toInt < 115 * 16 ∧ 115 * 16 ≤ (0x0730 : BitVec 16).toInt := by decide
theorem test_hot : (after .temperatureCrossing (on ms (.temperatureCrossing 0 0x190 0x730))).cur.runnable = false := by decide
theorem test_temperature : ((after .temperatureCrossing (on ms (.temperatureCrossing 0 0x190 0x500))).island 0).temp = 0x01900500 := by decide
theorem witness_link_window : (∀ f ∈ ms.panel.fencing, f.1 ≠ 0) ∧ (spGet (ms.island 0).winRetry 3).toNat * 1024 ≤ (spGet (ms.island 0).winSent 3).toNat
    ∧ 10 ≤ (12 : BitVec 8).toNat
    ∧ (spGet (ms.island 0).winDone 3).toNat < ({ ms with cycle := windowCycles } : State).cycle / windowCycles
    ∧ ms.cycle / windowCycles ≤ (spGet (ms.island 0).winDone 3).toNat := by decide
theorem witness_verify : (after .fwLoad (on ms .fwLoad)).panel.fwstat = 1 := by decide
theorem test_verify : (after (.fwVerifyComplete) (on (after .fwLoad (on ms .fwLoad)) (.fwVerifyComplete false))).panel.fwstat = 3 := by decide
theorem test_hub_reset : (after .hubReset (on State.reset (.hubReset true))).panel.fwstat = 0 ∧ (after .hubReset (on State.reset (.hubReset false))).panel.fwstat = 4 := by decide
theorem witness_hub_reset : resetWaits (((resetStart State.reset).ctxs.map (fun c => c.ctx)).eraseDups.foldl abandonStopped (resetStart State.reset)) = false := by
  decide
theorem witness_power_on : (after .powerLoss (on ms (.powerLoss true))).panel.power = false := by decide
theorem test_power_on : (after .powerOn (on (after .powerLoss (on ms (.powerLoss false))) .powerOn)).others.map (fun t => t.id.kind) = [.hub, .hub, .hub] := by
  decide
theorem test_power_loss : (after .powerLoss (on ms (.powerLoss true))).panel.power = false := by decide

/-! ### The step -/

/-- The team's word is in memory. -/
def fetchS (w : Nat) : State := { ms with mem := setCells (setCells [] probeTables) (cellsFrom 0x20000 (leBytes 4 w)) }
theorem witness_fetch : ∃ s1 pa mt, probeGlobal (fetchS 0x04042000) 0x20000 4 .fetch = (s1, .ok pa mt) ∧ gBad s1 0 0 pa 4 = false :=
  ⟨_, 0x20000, 0, Prod.ext rfl (by decide), by decide⟩
theorem witness_step : (fetchS 0).agenda = [] ∧ (fetchS 0).panel.power = true ∧ (fetchS 0).cur.runnable = true ∧ (fetchS 0).cur.sl.quiet = true ∧ ∃ s1, fetchWord (fetchS 0) = (s1, .word 0)
    ∧ decode (wordBytes 0) = .ok (.nop, []) ∧ Instr.nop.allocOk s1.cur.id.vregs = true ∧ Instr.nop.agentOk s1.cur.id.kind = true ∧ s1.cur.ready .nop = true :=
  ⟨by decide, by decide, by decide, by decide, _, Prod.ext rfl (by decide), by decide⟩
theorem witness_fetch_fault : ∃ s1 p, fetchWord { fetchS 0 with mem := [] } = (s1, .bad p) := ⟨_, .bad causeUnmapped 0x20000, Prod.ext rfl (by decide)⟩
theorem witness_agents : nextAgent { ms with cur := { ms.cur with sch := { ms.cur.sch with life := .parked } }, others := [mate] } = some 9
    ∧ nextAgent { ms with cur := { ms.cur with sch := { ms.cur.sch with life := .parked } } } = none := by decide
/-- A team of 8 lanes, of which the first four take an IF, with one instruction in its vector queue. -/
def halves : Thread :=
  { agent .team with
    id := { (agent .team).id with width := 8 }
    sc := { (agent .team).sc with pc := 0x20000 }
    ln := { (agent .team).ln with dc := [(4, 1), (5, 1), (6, 1), (7, 1)] }
    sl := { first := [{ instr := .vaddi 2 4 0 1, word := 0, sc := { (agent .team).sc with pc := 0x1FFFC }, ifs := [] }], second := []
            ifs := [{ even := true, thenLanes := [0, 1, 2, 3], clean := true, before := [] }], two := none } }
def queued (w : Nat) : State :=
  { world halves with mem := setCells (setCells [] probeTables) (cellsFrom 0x20000 (leBytes 4 w)), agenda := [.push 8] }
theorem witness_queue_issues : halves.sl.quiet = false ∧ halves.nextStreams.map (fun x => (x.1, x.2.instr)) = [(false, .vaddi 2 4 0 1)]
    ∧ olderLauncher (world halves) = none
    ∧ ∀ e ∈ halves.sl.first, stalledAt 8 e (issueFrom false e (world halves)) = false := by decide
/-- In two-slot mode the first stream's RLD waits at an acquiring RATOM of the team, and the second stream's head can issue. -/
def duo : Thread :=
  { halves with
    ln := { halves.ln with v := rs.cur.ln.v }
    sl := { first := [{ instr := .rldW 8 2 0 1 0, word := BitVec.ofNat 32 ((encodeWord (.rldW 8 2 0 1 0)).getD 0), sc := { rs.cur.sc with pc := 0x1FFFC }, ifs := [] }]
            second := [{ instr := .vaddi 2 4 0 1, word := 0, sc := { (agent .team).sc with pc := 0x20000 }, ifs := [] }], ifs := []
            two := some { base := 0, thenLanes := [0, 1, 2, 3], dcA := [(4, 1), (5, 1), (6, 1), (7, 1)], dcB := [(0, 1), (1, 1), (2, 1), (3, 1)], inElse := true,
                          seen := 0, done := 0, second := false, opsA := [], opsB := [] } } }
def duoS : State := { world duo with frames := [{ frame0 2 0 with acq := true }] }
theorem witness_other_stream : duoS.cur.nextStreams.map (fun x => x.1) = [false, true] ∧ olderLauncher duoS = none
    ∧ duoS.cur.nextStreams.map (fun x => stalledAt 8 x.2 (issueFrom x.1 x.2 duoS)) = [true, false] := by decide
/-- The ELSE at the front end enters two-slot mode (R44): the second PC slot holds the instruction behind it, and the queue is the first stream's. -/
theorem test_else_enters_two_slot_mode : ∃ t, step (queued ((encodeWord .velse).getD 0)) = .next t ∧ t.cur.sc.pc1 = some 0x20004
    ∧ (t.cur.sl.two.map (fun m => (m.thenLanes, m.inElse))) = some ([0, 1, 2, 3], true) ∧ t.cur.sl.first.length = 1 := ⟨_, rfl, by decide⟩
/-- With the queue issued, the first stream's lanes hold its result and the others stay (R45, R48). -/
theorem test_queue_issues : ∃ t, step { queued 0 with agenda := [] } = .next t ∧ t.cur.rdV 2 3 = 1 ∧ t.cur.rdV 2 4 = 0 ∧ t.cur.sl.first.length = 0
    ∧ t.cur.sc.pc = 0x20000 := ⟨_, rfl, by decide⟩
/-- Two teams of a core stand at a LAUNCHNB, and one entry of the queue is free: the older goes first, whichever runs (R34). -/
def launchers : State :=
  { fetchS ((encodeWord (.launchnb 5 1)).getD 0) with
    launchQ := List.replicate 3 ent0, cur := { mate with sc := regs mate [(1, 0x30000)] |>.sc }, others := [ms.cur] }
theorem witness_older_launcher : olderLauncher launchers = some 8 ∧ launchers.cur.runnable = true ∧ launchers.cur.id.uid = 9 ∧ olderLauncher (fetchS 0) = none := by decide
theorem test_older_launcher : ∃ t, step launchers = .next t ∧ (t.launchQ.map (fun e => e.team.uid)) = [8, 8, 8, 8] ∧ t.cur.id.uid = 8 := ⟨_, rfl, by decide⟩
theorem witness_run_turn : (switchTo { ms with others := [mate] } 9).cur.id.uid = 9 ∧ (switchTo { ms with others := [mate] } 9).cur.runnable = true
    ∧ (switchTo ms 77).cur.id.uid ≠ 77 := by decide
theorem test_step_runs_the_word : ∃ t, step (fetchS 0x04042000) = .next t ∧ t.cur.sc.pc = 0x20004 := ⟨_, rfl, by decide⟩
theorem test_step_from_reset : ∃ t, step (State.reset.withFetchWord 32 0) = .next t ∧ t.cur.sc.pc = BitVec.ofNat 64 (probeCode + 4) := ⟨_, rfl, by decide⟩
theorem test_reset_memories : State.reset.memWf = true := by decide
theorem witness_encoding : (Instr.sadd 1 2 3).wf = true ∧ encodeWord (.sadd 1 2 3) = some 0b000001_000001_000010_000011_00000000 := by decide
theorem witness_step_from_reset : State.reset.memWf = true ∧ ∃ t, step State.reset = .next t := ⟨by decide, _, rfl⟩

end Sys2Proof.Tests
end

namespace Sys2Proof.ScalarDivision

open Sys2Proof Sys2Proof.Machine Sys2Proof.Spec Sys2Proof.Laws

/-! ### The fixed values of division (R223) -/

section FixedValues

variable {a b : Word64}

theorem divS_eq_of_divisor_zero (hb : b = 0) : divS a b = -1 := by
  rw [divS, if_pos hb]
  exact BitVec.neg_one_eq_allOnes.symm

theorem divU_eq_of_divisor_zero (hb : b = 0) : divU a b = BitVec.ofNat 64 (2 ^ 64 - 1) := by
  rw [divU, if_pos hb, BitVec.allOnes, BitVec.ofNatLT_eq_ofNat]

theorem remS_eq_of_divisor_zero (hb : b = 0) : remS a b = a := by
  rw [remS, if_pos hb]

theorem remU_eq_of_divisor_zero (hb : b = 0) : remU a b = a := by
  rw [remU, if_pos hb]

/-- The one quotient that does not fit, 2^63, wraps to the dividend. -/
theorem divS_eq_of_overflow (ha : a = BitVec.ofInt 64 (-2 ^ 63)) (hb : b = -1) :
    divS a b = BitVec.ofInt 64 (-2 ^ 63) := by
  subst ha hb
  decide

theorem remS_eq_of_overflow (ha : a = BitVec.ofInt 64 (-2 ^ 63)) (hb : b = -1) : remS a b = 0 := by
  subst ha hb
  decide

end FixedValues

/-! ### The members SDIV, SDIVU, SREM and SREMU (R222) -/

section Members

variable {s : State} {a b : BitVec 6} {x : Word64} (d : BitVec 6)

/-- A member with two sources writes whatever its function gives for them. -/
theorem scalarBin_writes {f : Word64 → Word64 → Word64} (hx : f (s.rdS a) (s.rdS b) = x) :
    WritesS s (goOn (scalarBin f d a b s)) d x := by
  subst hx
  exact wrS_retire_writes s d _

theorem exec_sdiv_writes (hx : divS (s.rdS a) (s.rdS b) = x) : WritesS s (exec (.sdiv d a b) s) d x :=
  scalarBin_writes d hx

theorem exec_sdivu_writes (hx : divU (s.rdS a) (s.rdS b) = x) : WritesS s (exec (.sdivu d a b) s) d x :=
  scalarBin_writes d hx

theorem exec_srem_writes (hx : remS (s.rdS a) (s.rdS b) = x) : WritesS s (exec (.srem d a b) s) d x :=
  scalarBin_writes d hx

theorem exec_sremu_writes (hx : remU (s.rdS a) (s.rdS b) = x) : WritesS s (exec (.sremu d a b) s) d x :=
  scalarBin_writes d hx

end Members

/-! ### The example of R223 -/

/-- `sadd s5, s6, s7` is 0x0400_0000 + 0x0050_0000 + 0x0001_8000 + 0x0000_0700. -/
theorem encodeWord_sadd_example : encodeWord (.sadd 5 6 7) = some 0x04518700 := by decide

theorem decodeWord_sadd_example : decodeWord 0x04518700 = .ok (.sadd 5 6 7) :=
  have ⟨_, hdecode⟩ := RoundTrip.sadd 5 6 7 _ (by decide) encodeWord_sadd_example
  hdecode

/-- Settles O2: each member writes its function's value, and that value is the fixed one in each row of R223's table; the
example's word decodes because the encoding of SADD round-trips. -/
theorem divisionCorners : Obligations.DivisionCorners := by
  unfold Obligations.DivisionCorners
  refine ⟨fun s d a b => ⟨fun hb => ?byZero, fun ha hb => ?overflow⟩, decodeWord_sadd_example, encodeWord_sadd_example⟩
  case byZero =>
    exact ⟨exec_sdiv_writes d (divS_eq_of_divisor_zero hb), exec_sdivu_writes d (divU_eq_of_divisor_zero hb),
      exec_srem_writes d (remS_eq_of_divisor_zero hb), exec_sremu_writes d (remU_eq_of_divisor_zero hb)⟩
  case overflow =>
    exact ⟨exec_sdiv_writes d (divS_eq_of_overflow ha hb), exec_srem_writes d (remS_eq_of_overflow ha hb)⟩

end Sys2Proof.ScalarDivision

namespace Sys2Proof.HaltAndHints

open Sys2Proof Sys2Proof.Machine Sys2Proof.Spec Sys2Proof.Laws

/-! ### HALT (R330, R380) -/

section Halt

variable {s : State}

/-- No memory is the running agent's or the panel's. -/
theorem memAs_cur_panel (s : State) (t : Thread) (p : Panel) : MemAs s { s with cur := t, panel := p } :=
  ⟨fun _ _ => rfl, fun _ _ _ => rfl, fun _ _ _ _ => rfl, fun _ => rfl⟩

/-- The control words of a core after HALT (R380). -/
def haltedAt (core : Nat) (c : HubCtl) : HubCtl := if c.hub = core then { c with halted := true } else c

theorem haltedAt_halted {core : Nat} {c : HubCtl} (h : (haltedAt core c).hub = core) : (haltedAt core c).halted = true := by
  unfold haltedAt at h ⊢
  split
  · rfl
  · next hne => exact absurd (by rwa [if_neg hne] at h) hne

/-- The state in which a hub core's HALT leaves the panel. -/
def halted (s : State) : State :=
  { s with
    cur := { s.cur.dropHints with sch := { s.cur.sch with life := .halted } }
    panel := { s.panel with hubs := s.panel.hubs.map (haltedAt s.cur.id.core) } }

theorem exec_halt (s : State) : exec .halt s = execHalt s := rfl

theorem exec_halt_of_hub (h : s.cur.id.kind = .hub) : exec .halt s = .next (halted s) := by
  rw [exec_halt, execHalt, h]
  rfl

theorem exec_halt_of_not_hub (h : s.cur.id.kind = .team ∨ s.cur.id.kind = .carter) :
    exec .halt s = .next (takeTrap s (plainFx causePriv)) := by
  rw [exec_halt, execHalt]
  obtain team | carter := h
  · rw [team]; rfl
  · rw [carter]; rfl

theorem halted_hubs : ∀ q ∈ (halted s).panel.hubs, q.hub = s.cur.id.core → q.halted = true := by
  intro q hq hcore
  obtain ⟨c, -, rfl⟩ := List.mem_map.1 hq
  exact haltedAt_halted hcore

end Halt

/-- Settles O40: the state a hub core's HALT reaches is `halted`; the other two kinds of agent take the trap. -/
theorem haltStopsAHubCore : Obligations.HaltStopsAHubCore := by
  unfold Obligations.HaltStopsAHubCore
  refine fun s => ⟨fun hub => ?stops, exec_halt_of_not_hub⟩
  exact ⟨halted s, exec_halt_of_hub hub, rfl, rfl, halted_hubs, rfl, rfl, fun _ => rfl, rfl, memAs_cur_panel s _ _⟩

/-! ### HNOP and the kinds 4 to 15 (R220, R338) -/

/-- Where no loop ends at the instruction, its end moves the pc and nothing else (R232). -/
theorem fall_of_no_loop_end {t : Thread} (h : ∀ l ∈ t.sc.loops, l.last ≠ t.sc.pc) :
    t.fall = { t with sc := { t.sc with pc := t.sc.pc + 4 } } := by
  unfold Thread.fall
  rw [loopEnd_none _ _ h]
  rfl

section HintWords

variable {s : State} (hloops : ∀ l ∈ s.cur.sc.loops, l.last ≠ s.cur.sc.pc)
include hloops

/-- Where no loop ends at a hint word, the hints stay attached (R334). -/
theorem hintEnd_of_no_loop_end : s.hintEnd = (s.updCur Thread.fall).count := by
  unfold State.hintEnd
  dsimp only
  rw [if_pos (by rw [updCur_cur, fall_of_no_loop_end hloops])]

theorem hintEnd_sc : s.hintEnd.cur.sc = { s.cur.sc with pc := s.cur.sc.pc + 4 } := by
  rw [hintEnd_of_no_loop_end hloops, count_sc, updCur_cur, fall_of_no_loop_end hloops]

theorem hintEnd_frame : Frame id s s.hintEnd := by
  rw [hintEnd_of_no_loop_end hloops]
  exact ⟨sameRest_count s Thread.fall, still_count (s.updCur Thread.fall)⟩

end HintWords

theorem exec_hnop (p : BitVec 22) (s : State) : exec (.hnop p) s = .next s.hintEnd := rfl

theorem exec_hintKindNoop (k : BitVec 4) (p : BitVec 22) (s : State) : exec (.hintKindNoop k p) s = .next s.hintEnd := rfl

theorem decodeWord_hnop (p : BitVec 22) : decodeWord (0xFCC00000 + p.toNat) = .ok (.hnop p) :=
  (RoundTrip.hnop p _ rfl rfl).2

theorem hintKindNoop_wf {k : BitVec 4} (h : 4 ≤ k.toNat) (p : BitVec 22) : (Instr.hintKindNoop k p).wf = true := by
  simp only [Instr.wf, Instr.zerosOk, Instr.codesOk, Instr.regsOk, decide_eq_true h, Bool.and_self]

theorem decodeWord_hintKindNoop {k : BitVec 4} (h : 4 ≤ k.toNat) (p : BitVec 22) :
    decodeWord (0xFC000000 + k.toNat * 2 ^ 22 + p.toNat) = .ok (.hintKindNoop k p) :=
  (RoundTrip.hintKindNoop k p _ (hintKindNoop_wf h p) rfl).2

/-- Settles O41: both words decode because their encodings round-trip, and both members are the bare end of a hint word. -/
theorem hnopHasNoEffect : Obligations.HnopHasNoEffect := by
  unfold Obligations.HnopHasNoEffect
  intro s n k hloops
  refine ⟨decodeWord_hnop n, fun h => decodeWord_hintKindNoop h n, ?_⟩
  rintro i (rfl | rfl)
  · exact ⟨_, exec_hnop n s, hintEnd_sc hloops, hintEnd_frame hloops⟩
  · exact ⟨_, exec_hintKindNoop k n s, hintEnd_sc hloops, hintEnd_frame hloops⟩

end Sys2Proof.HaltAndHints
